-- ==== Sys2Proof/Word.lean ====
section
/-! DEFINITION. Words and bytes: the plain types of the model's bit patterns. -/

namespace Sys2Proof

/-- One byte (spec R10). -/
abbrev Byte := BitVec 8

/-- A 64-bit word: a setup register (R595), a scalar register (R228), a memory word (R489). -/
abbrev Word := BitVec 64

/-- A 32-bit lane of a vector register, an accumulator row or a tile buffer (R153, R181, R182). -/
abbrev Lane := BitVec 32

/-- One 128-bit instruction or M-die program word (R216, R324). -/
abbrev IWord := BitVec 128

/-- One 64-byte descriptor (R458). -/
abbrev Desc := BitVec 512

end Sys2Proof
end

