-- ==== Sys2Proof/Syntax.lean ====
section
/-! DEFINITION. The commands of the module: one constructor per row of the opcode table, with the bits the row carries. -/

namespace Sys2Proof

/-- One fabric packet (R409): the fabric header of R410, the step header of R363 or R364 (0 where the type carries none; the low
320 bits where the header format is 1, R414), the payload or body, and the end-to-end CRC-32. -/
structure Packet where
  header : BitVec 256
  step : BitVec 384
  body : List Byte
  crc : BitVec 32
  deriving DecidableEq, Repr

/-- A command: what arrives at the module or happens to it. Core instructions carry the logical core and the instruction word
(R216), M-die words the M-die and the word (R324, R381), descriptors the submission ring and the 64 bytes (R458), register
writes the value written (R595), packets the receiving port and the packet (R409), sideband messages their bytes (R588–R590). -/
inductive Instr where
  /-- NOP (R231). -/
  | nop (c : BitVec 8) (w : IWord)
  /-- CBEGIN (R56). -/
  | cbegin (c : BitVec 8) (w : IWord)
  /-- CEND (R231). -/
  | cend (c : BitVec 8) (w : IWord)
  /-- LOOP (R233). -/
  | loop (c : BitVec 8) (w : IWord)
  /-- TWAIT (R226). -/
  | twait (c : BitVec 8) (w : IWord)
  /-- TSIG (R231). -/
  | tsig (c : BitVec 8) (w : IWord)
  /-- SLI (R228). -/
  | sli (c : BitVec 8) (w : IWord)
  /-- SALU (R232). -/
  | salu (c : BitVec 8) (w : IWord)
  /-- SLD (R232). -/
  | sld (c : BitVec 8) (w : IWord)
  /-- SST (R232). -/
  | sst (c : BitVec 8) (w : IWord)
  /-- SID (R232). -/
  | sid (c : BitVec 8) (w : IWord)
  /-- SFLAG (R231). -/
  | sflag (c : BitVec 8) (w : IWord)
  /-- LOADSET (R130). -/
  | loadset (c : BitVec 8) (w : IWord)
  /-- PASS (R120). -/
  | pass (c : BitVec 8) (w : IWord)
  /-- ENQ (R147). -/
  | enq (c : BitVec 8) (w : IWord)
  /-- FLUSH (R148). -/
  | flush (c : BitVec 8) (w : IWord)
  /-- MATVEC (R150). -/
  | matvec (c : BitVec 8) (w : IWord)
  /-- TCLR (R156). -/
  | tclr (c : BitVec 8) (w : IWord)
  /-- COMBINE (R173). -/
  | combine (c : BitVec 8) (w : IWord)
  /-- VOP (R188). -/
  | vop (c : BitVec 8) (w : IWord)
  /-- VCVT (R194). -/
  | vcvt (c : BitVec 8) (w : IWord)
  /-- VSPLIT (R194). -/
  | vsplit (c : BitVec 8) (w : IWord)
  /-- VPERM (R186). -/
  | vperm (c : BitVec 8) (w : IWord)
  /-- VSETVL (R184). -/
  | vsetvl (c : BitVec 8) (w : IWord)
  /-- VMOVS (R242). -/
  | vmovs (c : BitVec 8) (w : IWord)
  /-- VLD (R242). -/
  | vld (c : BitVec 8) (w : IWord)
  /-- VST (R242). -/
  | vst (c : BitVec 8) (w : IWord)
  /-- KLOAD (R197). -/
  | kload (c : BitVec 8) (w : IWord)
  /-- KAPPLY (R202). -/
  | kapply (c : BitVec 8) (w : IWord)
  /-- RREG (R209). -/
  | rreg (c : BitVec 8) (w : IWord)
  /-- RTROW (R209). -/
  | rtrow (c : BitVec 8) (w : IWord)
  /-- WRUN (R260). -/
  | wrun (c : BitVec 8) (w : IWord)
  /-- WPOOL (R269). -/
  | wpool (c : BitVec 8) (w : IWord)
  /-- COPY (R246). -/
  | copy (c : BitVec 8) (w : IWord)
  /-- FILL (R246). -/
  | fill (c : BitVec 8) (w : IWord)
  /-- DSPLIT (R245). -/
  | dsplit (c : BitVec 8) (w : IWord)
  /-- FSEND (R247). -/
  | fsend (c : BitVec 8) (w : IWord)
  /-- FRECV (R226). -/
  | frecv (c : BitVec 8) (w : IWord)
  /-- BSEND (R248). -/
  | bsend (c : BitVec 8) (w : IWord)
  /-- KVREAD (R302). -/
  | kvread (c : BitVec 8) (w : IWord)
  /-- KVAPPEND (R310). -/
  | kvappend (c : BitVec 8) (w : IWord)
  /-- KVFLUSH (R303). -/
  | kvflush (c : BitVec 8) (w : IWord)
  /-- INSTRUCTION_COMPLETE (R229). -/
  | instructionComplete (c : BitVec 8) (unit : BitVec 4)
  /-- TOKEN_WAIT_MET (R226). -/
  | tokenWaitMet (c : BitVec 8)
  /-- INTERLOCK_RELEASE (R177). -/
  | interlockRelease (c : BitVec 8)
  /-- BATCH_WAIT_EXPIRY (R148). -/
  | batchWaitExpiry (c : BitVec 8)
  /-- BLOCK_FINISH (R57). -/
  | blockFinish (c : BitVec 8)
  /-- PACK (R331). -/
  | pack (m : BitVec 4) (w : IWord)
  /-- UNPACK (R327). -/
  | unpack (m : BitVec 4) (w : IWord)
  /-- SHIP (R344). -/
  | ship (m : BitVec 4) (w : IWord)
  /-- FETCH (R344). -/
  | fetch (m : BitVec 4) (w : IWord)
  /-- FWAIT (R381). -/
  | fwait (m : BitVec 4) (w : IWord)
  /-- UPDATE (R378). -/
  | update (m : BitVec 4) (w : IWord)
  /-- VCONTRIB (R385). -/
  | vcontrib (m : BitVec 4) (w : IWord)
  /-- RERUN (R389). -/
  | rerun (m : BitVec 4) (w : IWord)
  /-- OSTAGE (R383). -/
  | ostage (m : BitVec 4) (w : IWord)
  /-- GATHER (R383). -/
  | gather (m : BitVec 4) (w : IWord)
  /-- CWAIT (R391). -/
  | cwait (m : BitVec 4) (w : IWord)
  /-- MDIE_WAIT_MET (R381). -/
  | mdieWaitMet (m : BitVec 4)
  /-- CREST_BOUNDARY (R54). -/
  | crestBoundary
  /-- LATE_WORK_FINISH (R60). -/
  | lateWorkFinish (lateness : BitVec 32)
  /-- OVERRUN_REPEAT (R63). -/
  | overrunRepeat (lateness : BitVec 32)
  /-- STEP_COMPLETION (R73). -/
  | stepCompletion (step : Word)
  /-- NORM_PARTIAL (R472). -/
  | normPartial (step : Word) (group : BitVec 6)
  /-- SUBMISSION_DOORBELL (R452). -/
  | submissionDoorbell (r : BitVec 4) (index : BitVec 32)
  /-- COMPLETION_DOORBELL (R452). -/
  | completionDoorbell (r : BitVec 2) (index : BitVec 32)
  /-- EVENT_DOORBELL (R452). -/
  | eventDoorbell (index : BitVec 32)
  /-- DESCRIPTOR_FETCH (R456). -/
  | descriptorFetch (r : BitVec 4)
  /-- HOST_READ_COMPLETION (R447). -/
  | hostReadCompletion (addr : Word) (error : Bool) (data : List Byte)
  /-- IRQ_HOLDOFF_EXPIRY (R457). -/
  | irqHoldoffExpiry (ring : BitVec 5)
  /-- PLAN_LOAD (R469). -/
  | planLoad (r : BitVec 4) (d : Desc)
  /-- PLAN_UNLOAD (R459). -/
  | planUnload (r : BitVec 4) (d : Desc)
  /-- STEP (R69). -/
  | step (r : BitVec 4) (d : Desc)
  /-- ABORT (R396). -/
  | abort (r : BitVec 4) (d : Desc)
  /-- REALIGN (R65). -/
  | realign (r : BitVec 4) (d : Desc)
  /-- CLIP_FACTOR (R392). -/
  | clipFactor (r : BitVec 4) (d : Desc)
  /-- RING_ADVANCE (R309). -/
  | ringAdvance (r : BitVec 4) (d : Desc)
  /-- SHARD_MAP (R359). -/
  | shardMap (r : BitVec 4) (d : Desc)
  /-- RANK_TABLE (R421). -/
  | rankTable (r : BitVec 4) (d : Desc)
  /-- RANK_MOVE (R438). -/
  | rankMove (r : BitVec 4) (d : Desc)
  /-- PARAM_LOAD (R376). -/
  | paramLoad (r : BitVec 4) (d : Desc)
  /-- PARAM_READ (R376). -/
  | paramRead (r : BitVec 4) (d : Desc)
  /-- COPY_DESCRIPTOR (R461). -/
  | copyDescriptor (r : BitVec 4) (d : Desc)
  /-- FILL_DESCRIPTOR (R494). -/
  | fillDescriptor (r : BitVec 4) (d : Desc)
  /-- SNAPSHOT (R510). -/
  | snapshot (r : BitVec 4) (d : Desc)
  /-- RESTORE (R512). -/
  | restore (r : BitVec 4) (d : Desc)
  /-- TALUS_LEND (R347). -/
  | talusLend (r : BitVec 4) (d : Desc)
  /-- TALUS_END (R347). -/
  | talusEnd (r : BitVec 4) (d : Desc)
  /-- TALUS_BIND (R348). -/
  | talusBind (r : BitVec 4) (d : Desc)
  /-- TALUS_REVOKE (R348). -/
  | talusRevoke (r : BitVec 4) (d : Desc)
  /-- POWER_STATE (R519). -/
  | powerState (r : BitVec 4) (d : Desc)
  /-- QUIESCE (R485). -/
  | quiesce (r : BitVec 4) (d : Desc)
  /-- HBM_REPAIR (R506). -/
  | hbmRepair (r : BitVec 4) (d : Desc)
  /-- FIRMWARE (R567). -/
  | firmware (r : BitVec 4) (d : Desc)
  /-- PEER_LOST (R425). -/
  | peerLost (r : BitVec 4) (d : Desc)
  /-- QUIESCE_DRAINED (R485). -/
  | quiesceDrained
  /-- POWER_TRANSITION (R520). -/
  | powerTransition
  /-- FRAME (R408). -/
  | frame (p : BitVec 5) (frame : BitVec 2048)
  /-- FRAME_RETRY_EXHAUSTED (R405). -/
  | frameRetryExhausted (p : BitVec 5)
  /-- BUCKET_PACKET (R365). -/
  | bucketPacket (p : BitVec 5) (k : Packet)
  /-- FSEND_DATA (R422). -/
  | fsendData (p : BitVec 5) (k : Packet)
  /-- GATHER_DATA (R628). -/
  | gatherData (p : BitVec 5) (k : Packet)
  /-- OSTAGE_DATA (R628). -/
  | ostageData (p : BitVec 5) (k : Packet)
  /-- SNAPSHOT_COPY (R511). -/
  | snapshotCopy (p : BitVec 5) (k : Packet)
  /-- TALUS_READ_REQUEST (R347). -/
  | talusReadRequest (p : BitVec 5) (k : Packet)
  /-- TALUS_READ_REPLY (R347). -/
  | talusReadReply (p : BitVec 5) (k : Packet)
  /-- TALUS_WRITE (R347). -/
  | talusWrite (p : BitVec 5) (k : Packet)
  /-- TALUS_REFUSAL (R349). -/
  | talusRefusal (p : BitVec 5) (k : Packet)
  /-- COLLECTIVE_DATA (R431). -/
  | collectiveData (p : BitVec 5) (k : Packet)
  /-- BEACON (R429). -/
  | beacon (p : BitVec 5) (k : Packet)
  /-- BARRIER_ARRIVE (R431). -/
  | barrierArrive (p : BitVec 5) (k : Packet)
  /-- BARRIER_RELEASE (R412). -/
  | barrierRelease (p : BitVec 5) (k : Packet)
  /-- VERDICT_CONTRIBUTION (R386). -/
  | verdictContribution (p : BitVec 5) (k : Packet)
  /-- VERDICT (R387). -/
  | verdict (p : BitVec 5) (k : Packet)
  /-- RANK_MOVE_PACKET (R439). -/
  | rankMovePacket (p : BitVec 5) (k : Packet)
  /-- IDENTITY_QUERY (R412). -/
  | identityQuery (p : BitVec 5) (k : Packet)
  /-- IDENTITY_REPLY (R438). -/
  | identityReply (p : BitVec 5) (k : Packet)
  /-- RESET_PACKET (R437). -/
  | resetPacket (p : BitVec 5) (k : Packet)
  /-- ACKNOWLEDGEMENT (R407). -/
  | acknowledgement (p : BitVec 5) (k : Packet)
  /-- UNREACHABLE_NOTICE (R424). -/
  | unreachableNotice (p : BitVec 5) (k : Packet)
  /-- CONTROL_PACKET_RESEND (R407). -/
  | controlPacketResend (seq : BitVec 32)
  /-- HELD_PACKET_RELEASE (R419). -/
  | heldPacketRelease (l : BitVec 2)
  /-- MESH_LINK_FAILURE (R37). -/
  | meshLinkFailure (a b : BitVec 5)
  /-- MERGE_ENTRY_RETIRE (R496). -/
  | mergeEntryRetire (m : BitVec 4)
  /-- BEACON_LOSS (R430). -/
  | beaconLoss
  /-- PARTNER_DETECTED (R402). -/
  | partnerDetected (p : BitVec 5) (generation : BitVec 2)
  /-- EQUALISE_DONE (R402). -/
  | equaliseDone (p : BitVec 5) (tuned : Bool)
  /-- MEASURE_DONE (R404). -/
  | measureDone (p : BitVec 5) (rtt delay : BitVec 16)
  /-- PRESENCE_CLOSE (R476). -/
  | presenceClose
  /-- PRESENCE_LOSS (R486). -/
  | presenceLoss
  /-- INPUT_POWER_LOSS (R477). -/
  | inputPowerLoss
  /-- ENTER_POWERED (R554). -/
  | enterPowered
  /-- CAIRN_BOOT (R554). -/
  | cairnBoot (errA errB : Bool)
  /-- STACK_POISON_DONE (R493). -/
  | stackPoisonDone (m : BitVec 4)
  /-- LINK_TRAINED (R445). -/
  | linkTrained (revision : BitVec 2) (reversed : Bool)
  /-- LINK_DOWN (R487). -/
  | linkDown
  /-- RESET_DONE (R543). -/
  | resetDone (die : BitVec 5)
  /-- SUPPLY_DIP (R526). -/
  | supplyDip (sample : BitVec 16)
  /-- SUPPLY_DIP_END (R526). -/
  | supplyDipEnd (lowest : BitVec 16) (duration : BitVec 32)
  /-- SUPPLY_LOW (R526). -/
  | supplyLow (lowest : BitVec 16) (duration : BitVec 32)
  /-- OVER_VOLTAGE (R525). -/
  | overVoltage (highest : BitVec 16)
  /-- TRIP (R528). -/
  | trip (temperature : Bool) (sensor : BitVec 8) (value : BitVec 16)
  /-- SENSOR_SAMPLE (R533). -/
  | sensorSample (sensor : BitVec 7) (reading : BitVec 16)
  /-- COOLANT_EVENT (R534). -/
  | coolantEvent (kind : BitVec 2) (reading : BitVec 16)
  /-- POWER_WARNING (R534). -/
  | powerWarning (average : BitVec 16)
  /-- PROCESSOR_RESTART (R571). -/
  | processorRestart (p : BitVec 2)
  /-- CREST_PERIOD (R51). -/
  | crestPeriod (v : Word)
  /-- CREST_CONTROL (R604). -/
  | crestControl (v : Word)
  /-- ARRAY_CURRENT_CONTROL (R146). -/
  | arrayCurrentControl (v : Word)
  /-- BATCHING_WAIT (R146). -/
  | batchingWait (v : Word)
  /-- ZERO_STREAK_THRESHOLD (R399). -/
  | zeroStreakThreshold (v : Word)
  /-- C_RESET (R544). -/
  | cReset (v : Word)
  /-- M_RESET (R544). -/
  | mReset (v : Word)
  /-- L_RESET (R544). -/
  | lReset (v : Word)
  /-- DEVICE_RESET (R545). -/
  | deviceReset (v : Word)
  /-- CORE_EXCHANGE (R606). -/
  | coreExchange (v : Word)
  /-- CORE_FAILED (R606). -/
  | coreFailed (die : BitVec 3) (v : Word)
  /-- RING_ENABLE (R449). -/
  | ringEnable (ring : BitVec 5) (v : Word)
  /-- RING_DISABLE (R608). -/
  | ringDisable (ring : BitVec 5) (v : Word)
  /-- MODULE_ENABLE (R482). -/
  | moduleEnable (v : Word)
  /-- SUPPLY_THERMAL_CONTROL (R538). -/
  | supplyThermalControl (v : Word)
  /-- FABRIC_ADDRESS (R611). -/
  | fabricAddress (v : Word)
  /-- PORT_ENABLE (R610). -/
  | portEnable (p : BitVec 5) (v : Word)
  /-- PORT_DISABLE (R610). -/
  | portDisable (p : BitVec 5) (v : Word)
  /-- ERROR_STATUS_CLEAR (R613). -/
  | errorStatusClear (v : Word)
  /-- COUNT_CLEAR (R612). -/
  | countClear (offset : BitVec 17) (v : Word)
  /-- REGISTER_WRITE (R598). -/
  | registerWrite (doorbell : Bool) (offset : BitVec 17) (width : BitVec 8) (v : Word)
  /-- GET_REPORT (R565). -/
  | getReport (v : Word)
  /-- ACCEPT (R480). -/
  | accept (v : Word)
  /-- GET_CERTS (R562). -/
  | getCerts (v : Word)
  /-- GET_STATUS (R566). -/
  | getStatus (v : Word)
  /-- STAGE_IMAGE (R567). -/
  | stageImage (v : Word)
  /-- COMMIT_VERSION (R559). -/
  | commitVersion (v : Word)
  /-- SET_BOOT_SLOT (R562). -/
  | setBootSlot (v : Word)
  /-- REVOKE_KEY (R562). -/
  | revokeKey (v : Word)
  /-- UNKNOWN_MAILBOX_COMMAND (R615). -/
  | unknownMailboxCommand (v : Word)
  /-- SET_ENDPOINT_ID (R589). -/
  | setEndpointId (msg : List Byte)
  /-- GET_ENDPOINT_ID (R589). -/
  | getEndpointId (msg : List Byte)
  /-- GET_MCTP_VERSION_SUPPORT (R589). -/
  | getMctpVersionSupport (msg : List Byte)
  /-- GET_MESSAGE_TYPE_SUPPORT (R589). -/
  | getMessageTypeSupport (msg : List Byte)
  /-- GET_VENDOR_DEFINED_MESSAGE_SUPPORT (R589). -/
  | getVendorDefinedMessageSupport (msg : List Byte)
  /-- UNSUPPORTED_CONTROL_COMMAND (R589). -/
  | unsupportedControlCommand (msg : List Byte)
  /-- GET_STATE (R591). -/
  | getState (msg : List Byte)
  /-- POWER_ENABLE (R591). -/
  | powerEnable (msg : List Byte)
  /-- POWER_DISABLE (R591). -/
  | powerDisable (msg : List Byte)
  /-- READ_FRU (R594). -/
  | readFru (msg : List Byte)
  /-- READ_SENSORS (R591). -/
  | readSensors (msg : List Byte)
  /-- READ_INPUT (R591). -/
  | readInput (msg : List Byte)
  /-- READ_TRIP (R593). -/
  | readTrip (msg : List Byte)
  /-- CLEAR_TRIP (R591). -/
  | clearTrip (msg : List Byte)
  /-- SIDEBAND_CONTROLLER_START (R581). -/
  | sidebandControllerStart (ga : BitVec 6) (gap : Bool)
  /-- PCHG_BREAK (R589). -/
  | pchgBreak
  /-- STACK_FAULT (R502). -/
  | stackFault (m : BitVec 4) (reason : BitVec 4)
  /-- FIREWALLED_ACCESS (R548). -/
  | firewalledAccess (p : BitVec 2)
  /-- DESCRIPTOR_WORK_DONE (R459). -/
  | descriptorWorkDone (r : BitVec 4) (kind : BitVec 8)
  /-- MAILBOX_RESULT (R561). -/
  | mailboxResult
  /-- MDIE_WORD_FINISH (R325). -/
  | mdieWordFinish (m : BitVec 4)
  deriving DecidableEq, Repr

end Sys2Proof
end

