-- ==== Sys2Proof/Decode.lean ====
section
/-! DEFINITION. The opcode table gives no row any bits: the commands reach the module as register writes, descriptors, packets,
words of a plan and events, each with its own form. No table word spells a command. -/

namespace Sys2Proof

/-- The command that a word of the table's bits spells: none, for no row of the table has bits. -/
def decodeTableWord (_nbits _w : Nat) : Option Instr := none

end Sys2Proof
end

