-- ==== Sys2Proof/Config.lean ====
section
/-! DEFINITION. What the spec fixes for an implementation but does not give, and the free values: every one opaque, so that
no proof can rest on a value of it. The assumption log says why each is here. -/

namespace Sys2Proof.Config

/-- FREE VALUE. Which version of a page-table word a KVREAD walk uses when a look-aside entry differs from memory
(R304: not determined). Applied to the State counter `free`. -/
opaque staleHit : Nat → Bool

/-- FREE VALUE. The block scales that a paged KVREAD of an EMPTY block of an FP8 cache writes: no page entry is read, and R301
gives the page's scale only; it is below 0xFF, since the block contributes nothing (R292). Argument: the 1,024 bits of the descriptor,
so nothing that an output may not depend on (R75, R76). -/
opaque emptyScale : Nat → Fin 255

/-- FREE VALUE. The length before the append in a status entry whose sequence the table does not have (R307, R310). Arguments: the 512
bits of the descriptor, the entry's place in the list (R75, R76). -/
opaque noLength : Nat → Nat → BitVec 32

/-- FREE VALUE. The data bits of a withheld block that a FETCH delivers stained (R345). Arguments: the State counter `free`, the
byte's place in the block. -/
opaque withheldByte : Nat → Nat → Byte

/-- FREE VALUE. The element index (row · 131,072 + column) that DRAW uses in an M-die kernel, whose elements have no row and column
coordinate (R356, R379). Arguments: bucket tag, element of the bucket: nothing that a committed value may not depend on (R75, R76). -/
opaque mdieElement : Nat → Nat → BitVec 34

/-- FREE VALUE. A byte of a buddy's snapshot area with its stain, as a RESTORE reads it over the fabric (R512): another module's
memory. Arguments: the State counter `free`, the offset in the area. -/
opaque buddyByte : Nat → Nat → Byte × Bool

/-- FREE VALUE. The value of the module's own timebase, in ns, at its boundary nearest to a beacon (R429, R604): time is not modelled.
Applied to the State counter `free`. -/
opaque ownTime : Nat → BitVec 64

/-- The hash that spreads the packets of one destination over the ACTIVE ports (R422 gives no formula), by destination, transfer and
packet index. -/
opaque portHash : Nat → Nat → Nat → Nat

/-- FREE VALUE. A byte with its stain of another module's memory, as the data mover reads it through an aperture (R46). Arguments: the
State counter `free`, the offset in the aperture. -/
opaque remoteByte : Nat → Nat → Byte × Bool

/-- FREE VALUE. The order in which the data of a host-order reduce arrive at the L-die that sums it (R432): the ranks are taken by
ascending key. Arguments: collective, step, rank. -/
opaque arrivalKey : Nat → Nat → Nat → Nat

/-- FREE VALUE. The source's timebase value at a boundary, in ns (R412, R428). Applied to the State counter `free`. -/
opaque timebase : Nat → BitVec 64

/-- FREE VALUE. The correctly rounded result of a transcendental function whose two bounds the model cannot separate
at its largest working precision (R195 gives the exact rounding; the model's evaluation is bounded).
Arguments: operation code of R188, operand bits. -/
opaque unresolved : Nat → Nat → BitVec 32

/-- The bank of a stack row, by stack number and stack-view offset (R506 gives no map). -/
opaque repairBank : Nat → Nat → Nat

/-- Whether the stack itself refuses a repair, result 2 of event 0x24 (R502, R506), by stack and offset. -/
opaque stackRefusesRepair : Nat → Nat → Bool

/-- FREE VALUE. What sensor 61–64 of the carrier reads before its first sample since the module has had power (R591: always available, so
never 0x8000). -/
opaque boardReading : Nat → BitVec 15

/-- The serial number, 16 ASCII bytes (R594, R602). -/
opaque serialByte : Nat → Byte

/-- FRU bytes 42–59: carrier revision, manufacture date, mass, coolant volume, coupling type (R594). -/
opaque fruByte : Nat → Byte

/-- The Cairn ROM digest fused at test (R557), as a number of 384 bits. -/
opaque romDigest : BitVec 384

/-- The certificate area written at test (R556): its bytes, and how many there are. -/
opaque certByte : Nat → Byte
opaque certLength : BitVec 20

/-- The vendor public keys in the Cairn ROM (R553), by key slot and byte: 32 bytes of Ed25519, 1,952 bytes of ML-DSA-65. -/
opaque vendorEd25519Byte : Nat → Nat → Byte
opaque vendorMldsaByte : Nat → Nat → Byte

/-- The device secret fused at test (R556). -/
opaque deviceSecret : BitVec 256

/-- Ed25519 as RFC 8032 has it, whose text is no part of the spec: byte i of the public key of a secret key; verification of a signature
of a message under a public key; byte i of the signature of a message by a secret key. -/
opaque ed25519PublicByte : (secretKey : List Byte) → Nat → Byte
opaque ed25519Verify : (publicKey message signature : List Byte) → Bool
opaque ed25519SignByte : (secretKey message : List Byte) → Nat → Byte

/-- ML-DSA-65 as FIPS 204 has it, whose text is no part of the spec: byte i of the public and of the secret key that key generation gives
for a seed; verification under a public key, with a context string; byte i of a signature by a secret key, with a context string. -/
opaque mldsaPublicByte : (seed : List Byte) → Nat → Byte
opaque mldsaSecretByte : (seed : List Byte) → Nat → Byte
opaque mldsaVerify : (publicKey message context signature : List Byte) → Bool
opaque mldsaSignByte : (secretKey message context : List Byte) → Nat → Byte

/-- The service image with which a module is delivered, in slot A of its firmware store (R550, R551; the spec gives none). -/
opaque factoryImage : List Byte

/-- FREE VALUE. What a read of a firmware slot gives: none where it completes with an error (R552, R567). Arguments: the State counter
`free`, the bytes that the slot holds. -/
opaque slotRead : Nat → List Byte → Option (List Byte)

/-- FREE VALUE. How many of the fuses that an abandoned COMMIT_VERSION was to blow are blown (R569). Applied to the State counter `free`. -/
opaque blownFuses : Nat → BitVec 7

/-- FREE VALUE. How far an abandoned image staging has come (R567, R569): 0 nothing written, 1 the slot partly written, which is then
rejected at boot, 2 the slot written and the boot record not. Applied to the State counter `free`. -/
opaque stagedSoFar : Nat → Fin 3

/-- FREE VALUE. Whether an image is staged to slot B where neither slot runs (R567 names the slot that is not running). Applied to the
State counter `free`. -/
opaque stageToB : Nat → Bool

/-- FREE VALUE. The versions that Get MCTP Version Support reports, and how many there are (R589 names the command only): byte i of
the list of 4-byte versions. -/
opaque mctpVersionByte : Nat → Byte
opaque mctpVersions : BitVec 3

/-- FREE VALUE. The command-set version that Get Vendor Defined Message Support reports (R589 names the command only). -/
opaque commandSet : BitVec 16

/-- FREE VALUE. The L-die that an overrun event of a verdict wait names where no fabric schedule of the plan carries a verdict
collective (R62 names the L-die whose schedule carries it). -/
opaque verdictLdie : BitVec 2

/-- FREE VALUE. How long past its scheduled end a late crest is when an ABORT ends it, in ns (R62, R396). Applied to the State counter
`free`. -/
opaque lateness : Nat → BitVec 32

end Sys2Proof.Config
end

