-- ==== Sys2Proof/Machine/Bits.lean ====
section
/-! DEFINITION. Bit fields, sign extension, byte order and checksums, over natural numbers. -/

namespace Sys2Proof.Machine

/-- Bits [lo + w - 1 : lo] of x, in the numbering of R9. -/
def fld (x lo w : Nat) : Nat := (x >>> lo) % 2 ^ w

/-- Bit n of x. -/
def bit (x n : Nat) : Bool := (x >>> n) % 2 == 1

/-- x with bits [lo + w - 1 : lo] replaced by v. -/
def setFld (x lo w v : Nat) : Nat := x - (fld x lo w) <<< lo + (v % 2 ^ w) <<< lo

/-- The number that the low w bits of x stand for in two's complement. -/
def signed (w x : Nat) : Int := if x % 2 ^ w < 2 ^ (w - 1) then (x % 2 ^ w : Nat) else (x % 2 ^ w : Nat) - (2 ^ w : Nat)

/-- The w-bit two's complement pattern of an integer. -/
def unsigned (w : Nat) (x : Int) : Nat := (x % (2 ^ w : Nat)).toNat

/-- Bit of a Bool. -/
def b2n (b : Bool) : Nat := if b then 1 else 0

/-- The n little-endian bytes of x (R10). -/
def leBytes : Nat → Nat → List Byte
  | 0, _ => []
  | n + 1, x => BitVec.ofNat 8 x :: leBytes n (x / 256)

/-- The number that little-endian bytes hold (R10). -/
def leNat : List Byte → Nat
  | [] => 0
  | b :: bs => b.toNat + 256 * leNat bs

/-- Whether every bit of x outside the listed (lo, width) fields is zero. -/
def onlyFields (x : Nat) (fs : List (Nat × Nat)) : Bool := fs.foldl (fun y (lo, w) => setFld y lo w 0) x == 0

/-- The least multiple of k at or above x. -/
def roundUp (x k : Nat) : Nat := (x + k - 1) / k * k

/-- Ceiling of a division. -/
def cdiv (a b : Nat) : Nat := (a + b - 1) / b

/-- Ceiling of log2. -/
def clog2 (n : Nat) : Nat := if n ≤ 1 then 0 else Nat.log2 (n - 1) + 1

/-- Every second element, and so on: the list cut into pieces of k. -/
def chunks {α : Type} (k : Nat) : Nat → List α → List (List α)
  | 0, _ => []
  | _, [] => []
  | fuel + 1, l => l.take k :: chunks k fuel (l.drop k)

/-- Whether a list of numbers rises strictly. -/
def ascending : List Nat → Bool
  | a :: b :: rest => a < b && ascending (b :: rest)
  | _ => true

/-- One byte into a reflected CRC-32 (R409: IEEE 802.3 polynomial; R408: Castagnoli), by its reversed polynomial. -/
def crcByteReflected (poly crc : Nat) (b : Byte) : Nat :=
  (List.range 8).foldl (fun c _ => if c % 2 == 1 then (c / 2) ^^^ poly else c / 2) (crc ^^^ b.toNat)

/-- The CRC-32 of R409: IEEE 802.3, reflected, initial value and final exclusive-or all ones. -/
def crc32 (bs : List Byte) : Nat := (bs.foldl (crcByteReflected 0xEDB88320) 0xFFFFFFFF) ^^^ 0xFFFFFFFF

/-- The CRC-32C of R408 (Castagnoli), reflected, initial value and final exclusive-or all ones. -/
def crc32c (bs : List Byte) : Nat := (bs.foldl (crcByteReflected 0x82F63B78) 0xFFFFFFFF) ^^^ 0xFFFFFFFF

/-- The CRC-16 of R410: polynomial 0x1021, initial value 0xFFFF, most significant bit first. -/
def crc16 (bs : List Byte) : Nat :=
  bs.foldl (fun crc b =>
    (List.range 8).foldl (fun c _ => if bit c 15 then ((c * 2) % 65536) ^^^ 0x1021 else (c * 2) % 65536)
      (crc ^^^ (b.toNat * 256))) 0xFFFF

end Sys2Proof.Machine
end

