-- ==== Sys2Proof/Machine/SMap.lean ====
section
/-! DEFINITION. Finite maps as plain data: a list of (key, value) pairs in one canonical form, keys strictly rising and no
value equal to what an unlisted key reads as. -/

namespace Sys2Proof.Machine

/-- A sparse map from numbers, as its canonical list. -/
abbrev SMap (α : Type) := List (Nat × α)

/-- The value at a key; an unlisted key reads d. -/
def SMap.get {α : Type} (d : α) : SMap α → Nat → α
  | [], _ => d
  | (i, v) :: rest, k => if i = k then v else SMap.get d rest k

/-- The list with a key's pair put in its place, or left out where the value is d. -/
def SMap.set {α : Type} [DecidableEq α] (d : α) : SMap α → Nat → α → SMap α
  | [], k, v => if v = d then [] else [(k, v)]
  | (i, w) :: rest, k, v =>
    if k < i then (if v = d then (i, w) :: rest else (k, v) :: (i, w) :: rest)
    else if i = k then (if v = d then rest else (k, v) :: rest)
    else (i, w) :: SMap.set d rest k v

/-- The canonical form: keys strictly rising, no value equal to d. -/
def SMap.wf {α : Type} [DecidableEq α] (d : α) (m : SMap α) : Bool :=
  decide (m.Pairwise fun a b => a.1 < b.1) && m.all fun p => decide (p.2 ≠ d)

/-- The map with every value changed. -/
def SMap.mapVals {α : Type} [DecidableEq α] (d : α) (f : α → α) (m : SMap α) : SMap α :=
  (m.map fun p => (p.1, f p.2)).filter fun p => decide (p.2 ≠ d)

/-- The map without the keys of a range [lo, hi). -/
def SMap.dropRange {α : Type} (m : SMap α) (lo hi : Nat) : SMap α := m.filter fun p => decide (p.1 < lo) || decide (hi ≤ p.1)

end Sys2Proof.Machine
end

