-- ==== Sys2Proof/Machine/Memory.lean ====
section
/-! DEFINITION. Addressed memory with stain (R489–R495): bytes and marks in one canonical form. -/

namespace Sys2Proof.Machine

/-- What a stain granule holds beside its data bits (R490): a good codeword; a good codeword with a correctable error;
the carried poison of a stained write; a codeword read as uncorrectable; the sweep poison of R493 (unwritten). -/
inductive Mark where
  | clean
  | correctable
  | carried
  | uncorrectable
  | sweep
  deriving DecidableEq, Repr

/-- Whether a read of a granule with this mark delivers it stained (R490). -/
def Mark.stained : Mark → Bool
  | .clean => false
  | .correctable => false
  | _ => true

/-- One FILL of a range with a 64-bit pattern (R494), or one poisoning of a range (R493: data 0, sweep). -/
structure Layer where
  lo : Nat
  hi : Nat
  pattern : Word
  mark : Mark
  deriving DecidableEq, Repr

/-- A memory: the FILLs and poisonings that still show, the latest first; below them every byte is 0 and unwritten
(R493). Over them the bytes and the marks that differ, each list in its canonical form. -/
structure Memory where
  layers : List Layer := []
  cells : List Host.Cell := []
  marks : List (Nat × Mark) := []
  deriving DecidableEq, Repr

/-- The layer that shows at an address. -/
def Memory.layer (m : Memory) (a : Nat) : Option Layer := m.layers.find? fun l => decide (l.lo ≤ a) && decide (a < l.hi)

/-- What an address that cells does not list reads as: the fill pattern's byte, else 0 (R493, R494). -/
def Memory.baseByte (m : Memory) (a : Nat) : Byte :=
  match m.layer a with
  | some l => BitVec.ofNat 8 (l.pattern.toNat >>> (8 * (a % 8)))
  | none => 0

/-- What a granule that marks does not list is: as the layer says, else unwritten. -/
def Memory.baseMark (m : Memory) (a : Nat) : Mark :=
  match m.layer a with
  | some l => l.mark
  | none => .sweep

/-- The byte at an address. -/
def Memory.byte (m : Memory) (a : Nat) : Byte :=
  match m.cells.find? fun c => c.1 == a with
  | some c => c.2
  | none => m.baseByte a

/-- The mark of the granule that starts at an address. -/
def Memory.markAt (m : Memory) (a : Nat) : Mark :=
  match m.marks.find? fun c => c.1 == a with
  | some c => c.2
  | none => m.baseMark a

/-- The other lane of the 64-bit word in which a 32-bit lane lies (R154). -/
def otherLane (x : Nat) : Nat := if x % 8 < 4 then x + 4 else x - 4

/-- The mark that a read of a granule of size g sees: a 64-bit word of lanes that is uncorrectable is so for both its lanes
(R154, R182, R489). -/
def Memory.seen (m : Memory) (g x : Nat) : Mark :=
  if g = 4 ∧ m.markAt (otherLane x) = .uncorrectable then .uncorrectable else m.markAt x

/-- The mark of the 64-bit codeword at an address whose granules have size g: of two lanes, what the decoder reports first (R489, R490). -/
def Memory.codeword (m : Memory) (g x : Nat) : Mark :=
  if g = 4 then
    let l := [m.markAt x, m.markAt (x + 4)]
    ([Mark.uncorrectable, .sweep, .correctable, .carried].find? fun k => l.contains k).getD .clean
  else m.markAt x

/-- The mark of a lane whose word is recoded because the other lane is written: an error that the code corrects is gone, and the lane
keeps a stain bit where it was stained, never written or uncorrectable (R154). -/
def Mark.recoded : Mark → Mark
  | .clean => .clean
  | .correctable => .clean
  | _ => .carried

/-- Lanes outside a range that share a 64-bit word with a lane of it. -/
def sharedLanes (a n : Nat) : List Nat :=
  if n = 0 then []
  else (if a / 4 % 2 = 1 then [(a / 4 - 1) * 4] else []) ++ (if (a + n - 1) / 4 % 2 = 0 then [((a + n - 1) / 4 + 1) * 4] else [])

/-- The n bytes from an address. -/
def Memory.bytes (m : Memory) (a n : Nat) : List Byte := (List.range n).map fun i => m.byte (a + i)

/-- The little-endian number of n bytes from an address (R10). -/
def Memory.num (m : Memory) (a n : Nat) : Nat := leNat (m.bytes a n)

/-- Start addresses of the granules of size g that a range touches. -/
def granules (g a n : Nat) : List Nat :=
  if n = 0 then [] else (List.range ((a + n - 1) / g - a / g + 1)).map fun i => (a / g + i) * g

/-- Whether any granule that a range touches is stained. -/
def Memory.stained (m : Memory) (g a n : Nat) : Bool := (granules g a n).any fun x => (m.seen g x).stained

/-- The memory with the byte at an address replaced: an equal byte is left out of the list. -/
def Memory.setByte (m : Memory) (a : Nat) (b : Byte) : Memory :=
  { m with cells := m.cells.filter (fun c => decide (c.1 < a)) ++
      (if b = m.baseByte a then [] else [(a, b)]) ++ m.cells.filter (fun c => decide (a < c.1)) }

/-- The memory with a granule's mark replaced. -/
def Memory.setMark (m : Memory) (a : Nat) (k : Mark) : Memory :=
  { m with marks := m.marks.filter (fun c => decide (c.1 < a)) ++
      (if k = m.baseMark a then [] else [(a, k)]) ++ m.marks.filter (fun c => decide (a < c.1)) }

/-- The cells of consecutive bytes from an address that differ from what an unlisted address reads as. -/
def Memory.newCells (m : Memory) : Nat → List Byte → List Host.Cell
  | _, [] => []
  | a, b :: bs => if b = m.baseByte a then m.newCells (a + 1) bs else (a, b) :: m.newCells (a + 1) bs

/-- The memory with consecutive bytes from an address replaced. -/
def Memory.setBytes (m : Memory) (a : Nat) (bs : List Byte) : Memory :=
  { m with cells := m.cells.filter (fun c => decide (c.1 < a)) ++ m.newCells a bs ++
      m.cells.filter (fun c => decide (a + bs.length ≤ c.1)) }

/-- The mark of a granule after a write of stained or clean bytes (R495, R154): a write of the whole granule gives it the
written bytes' stain; a narrow write keeps an unwritten or stained granule stained. -/
def Memory.writtenMark (m : Memory) (g x a : Nat) (bs : List (Byte × Bool)) : Mark :=
  let stainedByte := (List.range g).any fun i =>
    decide (a ≤ x + i) && (match bs[x + i - a]? with
      | some (_, s) => s
      | none => false)
  let whole := decide (a ≤ x) && decide (x + g ≤ a + bs.length)
  if stainedByte || (!whole && (m.seen g x).stained) then .carried else .clean

/-- One operation's write of consecutive bytes, each with its stain, into a memory of stain granule g (R495, R154). Where the granule is
a lane, the words of the lanes written are recoded. -/
def Memory.write (m : Memory) (g a : Nat) (bs : List (Byte × Bool)) : Memory :=
  let beside := if g = 4 then sharedLanes a bs.length else []
  beside.foldl (fun m' x => m'.setMark x (m.seen g x).recoded)
    ((granules g a bs.length).foldl (fun m' x => m'.setMark x (m.writtenMark g x a bs)) (m.setBytes a (bs.map Prod.fst)))

/-- The byte that the pieces of one operation, in the order in which they were written, leave at an address; none where none writes it. -/
def pieceByte (ps : List (Nat × List (Byte × Bool))) (x : Nat) : Option (Byte × Bool) :=
  ps.reverse.findSome? fun (a, bs) => if a ≤ x then bs[x - a]? else none

/-- The lanes in which a piece begins and ends. -/
def pieceLanes (ps : List (Nat × List (Byte × Bool))) : List Nat :=
  (ps.flatMap fun (a, bs) => if bs.isEmpty then [] else [a - a % 4, (a + bs.length - 1) - (a + bs.length - 1) % 4]).dedup

/-- The memory after one operation that has written it in several pieces: a lane all of whose bytes it wrote keeps only the stain of what it
wrote there (R154, R182). -/
def Memory.closeLanes (m : Memory) (ps : List (Nat × List (Byte × Bool))) : Memory :=
  (pieceLanes ps).foldl (fun m x => match (List.range 4).mapM fun j => pieceByte ps (x + j) with
    | some bs => m.setMark x (if bs.any Prod.snd then .carried else .clean)
    | none => m) m

/-- A layer over [lo, hi): bytes, marks and layers below it no longer show. -/
def Memory.cover (m : Memory) (l : Layer) : Memory :=
  { layers := l :: m.layers.filter (fun k => !(decide (l.lo ≤ k.lo) && decide (k.hi ≤ l.hi)))
    cells := m.cells.filter (fun c => decide (c.1 < l.lo) || decide (l.hi ≤ c.1))
    marks := m.marks.filter (fun c => decide (c.1 < l.lo) || decide (l.hi ≤ c.1)) }

/-- FILL of [lo, hi) with a 64-bit pattern, unstained (R494). -/
def Memory.fill (m : Memory) (lo hi : Nat) (p : Word) : Memory := m.cover ⟨lo, hi, p, .clean⟩

/-- Poisoning of [lo, hi) by a reset: data bits 0, sweep pattern (R493). -/
def Memory.poison (m : Memory) (lo hi : Nat) : Memory := m.cover ⟨lo, hi, 0, .sweep⟩

/-- The canonical form: addresses strictly rising, and nothing listed that equals what an unlisted address reads as. -/
def Memory.wf (m : Memory) : Bool :=
  decide (m.cells.Pairwise fun a b => a.1 < b.1) && (m.cells.all fun c => decide (c.2 ≠ m.baseByte c.1)) &&
  decide (m.marks.Pairwise fun a b => a.1 < b.1) && (m.marks.all fun c => decide (c.2 ≠ m.baseMark c.1))

end Sys2Proof.Machine
end

