-- ==== Sys2Proof/Machine/CoreState.lean ====
section
/-! DEFINITION. What one core holds (R31): registers, slots, queue, tokens, flags, and the position of its sequencer. -/

namespace Sys2Proof.Machine

/-- The instructions of a core (R231, R234, R240, R242, R245), one name each. -/
inductive CoreOp where
  | nop | cbegin | cend | loop | twait | tsig | sli | salu | sld | sst | sid | sflag
  | loadset | pass | enq | flush | matvec
  | tclr | combine
  | vop | vcvt | vsplit | vperm | vsetvl | vmovs | vld | vst | kload | kapply
  | rreg | rtrow
  | wrun | wpool
  | copy | fill | dsplit
  | fsend | frecv | bsend
  | kvread | kvappend | kvflush
  deriving DecidableEq, Repr

/-- One element as a feeder delivers it to the cells (R126): its code, the E8M0 code of its block, its stain. -/
structure Elem where
  code : Nat
  scale : Nat
  stain : Bool
  deriving DecidableEq, Repr

/-- A stationary set (R120, R130): its format code and its columns, each a list of K elements, and the places (row, column) whose element
register has lost its parity since the feeder wrote it (R127, R492). -/
structure StatSet where
  fmt : Nat
  k : Nat
  n : Nat
  cols : List (List Elem)
  parity : List (Nat × Nat) := []
  deriving DecidableEq, Repr

/-- The columns as the cells use them: an element whose parity fails is as a stained one (R127). -/
def StatSet.used (t : StatSet) : List (List Elem) :=
  if t.parity.isEmpty then t.cols
  else t.cols.zipIdx.map fun (col, j) => col.zipIdx.map fun (e, i) => if t.parity.contains (i, j) then { e with stain := true } else e

/-- One entry of the batching queue (R147): where its streaming vector lies, its set, row, pass index, ledger selection,
accumulation mode, start bit and step. -/
structure BatchEntry where
  addr : Nat
  scaleAddr : Nat
  fmt : Nat
  orient : Nat
  pitch : Nat
  take : Bool
  row : Nat
  index : Nat
  ledger : Nat
  mode : Nat
  start : Bool
  step : Nat
  deriving DecidableEq, Repr

/-- One entry of the KV look-aside buffer (R303): its key, the header's low word, the sequence length, the page entry. -/
structure LookAside where
  base : Nat
  seq : Nat
  values : Bool
  slot : Nat
  header : Nat
  length : Nat
  page : Nat
  deriving DecidableEq, Repr

/-- One operation that a unit has begun and not completed (R57, R229): its unit, what it reads and writes as resource
numbers (see Sequencer), whether it is of the chain class (R176), whether it still waits in the batching queue, the word whose sig
its completion applies, whether a mesh transfer that has no path holds it (R38), the dies that its transfers reach and whether a mesh link on the
way to one of them has retried until it failed (R37, R227), and the fabric transfers that it sends: the first number, and the number after the
last (R57). `key` stands for its writes in the merge buffers (R496). -/
structure Pend where
  unit : Nat
  reads : List Nat
  writes : List Nat
  chain : Bool
  queued : Bool
  word : Nat
  stuck : Bool := false
  dies : List Nat := []
  retried : Bool := false
  sends : Nat × Nat := (0, 0)
  key : Nat := 0
  deriving DecidableEq, Repr

/-- A register lane or counter that carries one parity bit (R492): a scalar register, a lane of a vector register, a token, the flag bank
of even or of odd steps. -/
inductive ParityCell where
  | scalar (r : Nat)
  | lane (v j : Nat)
  | token (k : Nat)
  | bank (odd : Bool)
  deriving DecidableEq, Repr

/-- Why a sequencer holds (R38, R178, R226, R231): a token below n, an interlock, a block that has not finished, SFLAG, or an increment of
another core's token that has no path. -/
inductive Hold where
  | mesh
  | token (k n : Nat)
  | interlock
  | block
  | flags
  deriving DecidableEq, Repr

/-- One instruction word that waits at the sequencer, with the operation its row gives. -/
structure Waiting where
  op : CoreOp
  word : Nat
  deriving DecidableEq, Repr

/-- One open LOOP (R233): the index of its first and of its last body instruction, the iterations left, and the body's
instructions as far as the first iteration has issued them. -/
structure LoopFrame where
  first : Nat
  last : Nat
  left : Nat
  body : List Waiting
  deriving DecidableEq, Repr

/-- What one logical core holds. Registers that nothing has written are stained (R155, R183, R228) with bits 0
(R493; for registers the model's choice). -/
structure CoreState where
  /-- s0–s31 with their stain bits (R228). -/
  sregs : SMap (Word × Bool) := []
  /-- v0–v31: lane j of register v is entry 128·v + j, with its stain bit (R181). -/
  vregs : SMap (Lane × Bool) := []
  /-- Active vector length L (R184). -/
  vl : Nat := 128
  /-- Kernel slots: the image's 32-bit words, none where empty (R197). -/
  kslots : SMap (List Nat) := []
  /-- Tokens k0–k63 (R226). -/
  tokens : SMap Nat := []
  /-- Sticky flag banks of even and odd steps (R225). -/
  flags0 : Nat := 0
  flags1 : Nat := 0
  /-- The active set, and the set in the loading slot that no pass has taken (R130). -/
  active : Option StatSet := none
  loading : Option StatSet := none
  /-- The batching queue, oldest first (R147). -/
  batch : List BatchEntry := []
  /-- The row-live register of the KV fetch unit (R289). -/
  rowLive : Nat := 0
  /-- The look-aside buffer, most recently used first (R303). -/
  lookAside : List LookAside := []
  /-- Index in the block of the next instruction, and the open loops, innermost first (R233). -/
  index : Nat := 0
  loops : List LoopFrame := []
  /-- Why the sequencer holds, the held instruction first among those that wait behind it (R178). -/
  hold : Option Hold := none
  waiting : List Waiting := []
  /-- The first waiting instruction has been fetched: it is the held one (R503). -/
  fetched : Bool := false
  /-- Operations begun and not completed, oldest first. -/
  ops : List Pend := []
  /-- Registers and counters whose stored value has lost its parity since it was written (R492). -/
  parity : List ParityCell := []
  /-- Instruction memory (R31, R56, R489): 256 KiB by byte, codewords of 64 bits, unwritten after a reset (R493). The half in which the
  running block lies, and the plan crest whose block the other half holds. -/
  imem : Memory := {}
  half : Bool := false
  ahead : Option Nat := none
  deriving DecidableEq, Repr

/-- A core after device reset (R155, R183, R184, R226, R228). -/
def CoreState.init : CoreState := {}

/-- Bytes of half an instruction memory (R56), and the place of instruction i of the running block in it. -/
def halfMemory : Nat := 131072
def CoreState.fetchAt (c : CoreState) (i : Nat) : Nat := (if c.half then halfMemory else 0) + 16 * (i % 8192)

/-- The value of a scalar register. -/
def CoreState.sval (c : CoreState) (r : Nat) : Nat := (SMap.get (0, true) c.sregs r).1.toNat

/-- The stain bit of a scalar register; a parity failure sets it (R492). -/
def CoreState.sstain (c : CoreState) (r : Nat) : Bool := (SMap.get (0, true) c.sregs r).2 || c.parity.contains (.scalar r)

/-- The core with the parity of a register or counter good again: it has been written. -/
def CoreState.mendParity (c : CoreState) (x : ParityCell) : CoreState := { c with parity := c.parity.filter fun y => y != x }

/-- The core with a scalar register written (R228). -/
def CoreState.setS (c : CoreState) (r v : Nat) (stain : Bool) : CoreState :=
  { c.mendParity (.scalar r) with sregs := SMap.set (0, true) c.sregs r (BitVec.ofNat 64 v, stain) }

/-- Lane j of vector register v. -/
def CoreState.lane (c : CoreState) (v j : Nat) : Nat := (SMap.get (0, true) c.vregs (128 * v + j)).1.toNat

/-- Stain bit of lane j of vector register v; a parity failure sets it (R492). -/
def CoreState.laneStain (c : CoreState) (v j : Nat) : Bool :=
  (SMap.get (0, true) c.vregs (128 * v + j)).2 || c.parity.contains (.lane v j)

/-- The core with one lane of a vector register written. -/
def CoreState.setLane (c : CoreState) (v j x : Nat) (stain : Bool) : CoreState :=
  { c.mendParity (.lane v j) with vregs := SMap.set (0, true) c.vregs (128 * v + j) (BitVec.ofNat 32 x, stain) }

/-- The core with lanes of a vector register written from a list of (lane, value, stain). -/
def CoreState.setLanes (c : CoreState) (v : Nat) (xs : List (Nat × Nat × Bool)) : CoreState :=
  xs.foldl (fun c (j, x, t) => c.setLane v j x t) c

/-- Token k. -/
def CoreState.token (c : CoreState) (k : Nat) : Nat := SMap.get 0 c.tokens k

/-- The core with token k written. -/
def CoreState.setToken (c : CoreState) (k n : Nat) : CoreState := { c.mendParity (.token k) with tokens := SMap.set 0 c.tokens k n }

/-- Whether the flag bank of a step has lost its parity (R492). -/
def CoreState.bankParity (c : CoreState) (step : Nat) : Bool := c.parity.contains (.bank (step % 2 == 1))

/-- The flag bank of a step (R225). -/
def CoreState.bank (c : CoreState) (step : Nat) : Nat := if step % 2 == 0 then c.flags0 else c.flags1

/-- The core with flags ORed into the bank of a step (R225). -/
def CoreState.raise (c : CoreState) (step f : Nat) : CoreState :=
  if step % 2 == 0 then { c with flags0 := c.flags0 ||| f } else { c with flags1 := c.flags1 ||| f }

/-- The core with the bank of a step cleared (R225). -/
def CoreState.clearBank (c : CoreState) (step : Nat) : CoreState :=
  if step % 2 == 0 then { c.mendParity (.bank false) with flags0 := 0 } else { c.mendParity (.bank true) with flags1 := 0 }

/-- The parity failures that a plan load leaves: those of the registers that it does not write. -/
def ParityCell.keeps : ParityCell → Bool
  | .scalar _ => true
  | .lane _ _ => true
  | .token _ => false
  | .bank _ => false

/-- What a plan load does to a core (R197, R225, R226, R238, R289, R303): registers, tile buffers and memories keep. -/
def CoreState.planLoaded (c : CoreState) : CoreState :=
  { c with kslots := [], tokens := [], flags0 := 0, flags1 := 0, active := none, loading := none, batch := [], rowLive := 0,
           lookAside := [], index := 0, loops := [], hold := none, waiting := [], fetched := false, ops := [], parity := c.parity.filter ParityCell.keeps, ahead := none }

end Sys2Proof.Machine
end

