-- ==== Sys2Proof/Machine/Num.lean ====
section
/-! DEFINITION. Numbers: exact values, the formats of R86, rounding and conversion (R87–R106), the arithmetic of R166 and R189. -/

namespace Sys2Proof.Machine

/-! ### Exact values -/

/-- An exact value: a NaN with its sign, a signed infinity, a signed zero, or the nonzero value man · 2^exp. -/
inductive Val where
  | nan (neg : Bool)
  | inf (neg : Bool)
  | zero (neg : Bool)
  | fin (man : Int) (exp : Int)
  deriving DecidableEq, Repr

/-- man · 2^exp, or the given zero. -/
def Val.ofDyadic (man exp : Int) (negZero : Bool := false) : Val := if man = 0 then .zero negZero else .fin man exp

/-- The sign of a value (R124: zeros carry theirs). -/
def Val.neg : Val → Bool
  | .nan n => n
  | .inf n => n
  | .zero n => n
  | .fin m _ => decide (m < 0)

/-- Whether a value is NaN. -/
def Val.isNaN : Val → Bool
  | .nan _ => true
  | _ => false

/-- Whether a value is an infinity. -/
def Val.isInf : Val → Bool
  | .inf _ => true
  | _ => false

/-- Whether a value is neither NaN nor infinite. -/
def Val.isFinite (v : Val) : Bool := !v.isNaN && !v.isInf

/-- man · 2^(e - lo) as an integer, for lo at or below e. -/
def shiftInt (man : Int) (e lo : Int) : Int := man * (2 ^ (e - lo).toNat : Nat)

/-- Exact sum (R166, R189). The sign of an exact zero: +0 unless both addends are −0. A NaN result has sign 0. -/
def Val.add : Val → Val → Val
  | .nan _, _ => .nan false
  | _, .nan _ => .nan false
  | .inf a, .inf b => if a == b then .inf a else .nan false
  | .inf a, _ => .inf a
  | _, .inf b => .inf b
  | .zero a, .zero b => .zero (a && b)
  | .zero _, y => y
  | x, .zero _ => x
  | .fin m e, .fin n f =>
    let lo := min e f
    .ofDyadic (shiftInt m e lo + shiftInt n f lo) lo

/-- Exact product (R124): a NaN factor, or infinity times zero, gives NaN; the sign is the exclusive-or. -/
def Val.mul : Val → Val → Val
  | .nan _, _ => .nan false
  | _, .nan _ => .nan false
  | .inf a, y => match y with
    | .zero _ => .nan false
    | _ => .inf (a ^^ y.neg)
  | x, .inf b => match x with
    | .zero _ => .nan false
    | _ => .inf (x.neg ^^ b)
  | .fin m e, .fin n f => .fin (m * n) (e + f)
  | x, y => .zero (x.neg ^^ y.neg)

/-- Negation; a NaN keeps to the rule of R189 (sign 0). -/
def Val.negate : Val → Val
  | .nan _ => .nan false
  | .inf n => .inf (!n)
  | .zero n => .zero (!n)
  | .fin m e => .fin (-m) e

/-- Magnitude. -/
def Val.abs : Val → Val
  | .nan _ => .nan false
  | .inf _ => .inf false
  | .zero _ => .zero false
  | .fin m e => .fin m.natAbs e

/-- Exact scaling by 2^k. -/
def Val.scale (k : Int) : Val → Val
  | .fin m e => .fin m (e + k)
  | v => v

/-- floor(log2 |v|) of a nonzero finite value; 0 otherwise. -/
def Val.ilog2 : Val → Int
  | .fin m e => (Nat.log2 m.natAbs : Int) + e
  | _ => 0

/-- Order of two values that are not NaN, with −0 and +0 equal: −1, 0 or 1. -/
def Val.cmp (x y : Val) : Int :=
  let key : Val → Int × Int × Int := fun
    | .inf n => (if n then -1 else 1, 0, 0)
    | .fin m e => (0, m, e)
    | _ => (0, 0, 0)
  let (a, m, e) := key x
  let (b, n, f) := key y
  if a ≠ b then (if a < b then -1 else 1)
  else
    let lo := min e f
    let p := shiftInt m e lo
    let q := shiftInt n f lo
    if p < q then -1 else if q < p then 1 else 0

/-! ### Formats -/

/-- The special codes of a floating-point format (R87): IEEE 754 style, FP8 E4M3 style, or every code finite. -/
inductive FpStyle where
  | ieee
  | e4m3
  | allFinite
  deriving DecidableEq, Repr

/-- A binary floating-point element format (R86): exponent bits, mantissa bits, bias, special codes, canonical NaN
and largest finite magnitude code. -/
structure Fp where
  ebits : Nat
  mbits : Nat
  bias : Nat
  style : FpStyle
  nan : Nat
  maxFin : Nat
  deriving DecidableEq, Repr

/-- Bits of an element of the format. -/
def Fp.width (f : Fp) : Nat := 1 + f.ebits + f.mbits

/-- binary32 (R86 code 0x0). -/
def fpB32 : Fp := ⟨8, 23, 127, .ieee, 0x7FC00000, 0x7F7FFFFF⟩
/-- binary16 (R86 code 0x1). -/
def fpB16 : Fp := ⟨5, 10, 15, .ieee, 0x7E00, 0x7BFF⟩
/-- bfloat16 (R86 code 0x2). -/
def fpBF16 : Fp := ⟨8, 7, 127, .ieee, 0x7FC0, 0x7F7F⟩
/-- FP8 E4M3 (R86 code 0x3). -/
def fpE4M3 : Fp := ⟨4, 3, 7, .e4m3, 0x7F, 0x7E⟩
/-- FP8 E5M2 (R86 code 0x4). -/
def fpE5M2 : Fp := ⟨5, 2, 15, .ieee, 0x7E, 0x7B⟩
/-- Element of MXFP6 E3M2 (R86 code 0x7). -/
def fpE3M2 : Fp := ⟨3, 2, 3, .allFinite, 0, 0x1F⟩
/-- Element of MXFP6 E2M3 (R86 code 0x8). -/
def fpE2M3 : Fp := ⟨2, 3, 1, .allFinite, 0, 0x1F⟩
/-- Element of MXFP4 E2M1 (R86 code 0x9). -/
def fpE2M1 : Fp := ⟨2, 1, 1, .allFinite, 0, 0x7⟩

/-- The element format of a format code; binary32 where the code has no floating-point element (0xA, 0xB, reserved). -/
def fpOf : Nat → Fp
  | 0x1 => fpB16
  | 0x2 => fpBF16
  | 0x3 => fpE4M3
  | 0x4 => fpE5M2
  | 0x5 => fpE4M3
  | 0x6 => fpE5M2
  | 0x7 => fpE3M2
  | 0x8 => fpE2M3
  | 0x9 => fpE2M1
  | _ => fpB32

/-- Whether a format code is an MX format (R86: 0x5–0xA). -/
def isMX (c : Nat) : Bool := 5 ≤ c && c ≤ 10

/-- Bits of one stored element of a format code. -/
def elemBits : Nat → Nat
  | 0x0 => 32
  | 0x1 => 16
  | 0x2 => 16
  | 0x7 => 6
  | 0x8 => 6
  | 0x9 => 4
  | 0xB => 16
  | _ => 8

/-- Bytes of a 32-element MX block (R92). -/
def blockBytes (c : Nat) : Nat := elemBits c * 4

/-- The exact value of an element code (R87). -/
def Fp.decode (f : Fp) (code : Nat) : Val :=
  let s := bit code (f.ebits + f.mbits)
  let ex := fld code f.mbits f.ebits
  let m := fld code 0 f.mbits
  let special := match f.style with
    | .ieee => if ex == 2 ^ f.ebits - 1 then some (if m == 0 then Val.inf s else .nan s) else none
    | .e4m3 => if ex == 15 && m == 7 then some (Val.nan s) else none
    | .allFinite => none
  match special with
  | some v => v
  | none =>
    let man : Int := if ex == 0 then m else m + (2 ^ f.mbits : Nat)
    let e : Int := (max ex 1 : Nat) - (f.bias : Int) - f.mbits
    if man = 0 then .zero s else .fin (if s then -man else man) e

/-- The exact value of an MXINT8 element (R91). -/
def decodeInt8 (code : Nat) : Val := .ofDyadic (signed 8 code) (-6)

/-- The exact value of one element of a format code, before any block scale. -/
def decodeElem (c code : Nat) : Val := if c == 0xA then decodeInt8 code else (fpOf c).decode code

/-- The exact value of an element under an E8M0 scale code (R90): 0xFF makes it NaN. -/
def decodeScaled (c code scale : Nat) : Val :=
  if scale == 0xFF then .nan false else (decodeElem c code).scale ((scale : Int) - 127)

/-! ### Rounding -/

/-- A rounding mode (R100): nearest even, or stochastic with its 32-bit word u (R106). -/
inductive Rounding where
  | nearest
  | stochastic (u : Nat)
  deriving DecidableEq, Repr

/-- The integer that a nonnegative dyadic num · 2^e rounds to (R100, R106). -/
def roundNat (mode : Rounding) (num : Nat) (e : Int) : Nat :=
  if 0 ≤ e then num * 2 ^ e.toNat
  else
    let k := (-e).toNat
    let q := num >>> k
    let r := num - q <<< k
    match mode with
    | .nearest =>
      let half := 2 ^ (k - 1)
      if r < half then q else if half < r then q + 1 else q + q % 2
    | .stochastic u => if 2 ^ 32 ≤ (r * 2 ^ 32) >>> k + u then q + 1 else q

/-- The magnitude code that a positive dyadic num · 2^e rounds to in a format, were its exponent unbounded above. -/
def Fp.roundMag (f : Fp) (mode : Rounding) (num : Nat) (e : Int) : Nat :=
  let emin : Int := 1 - (f.bias : Int)
  let top := max ((Nat.log2 num : Int) + e) emin
  let q := roundNat mode num (e - (top - f.mbits))
  (top - emin).toNat * 2 ^ f.mbits + q

/-- What a conversion or an operation delivers: the code, and whether it sets NONFINITE and the overflow flag (R89). -/
structure Rounded where
  code : Nat
  nonfinite : Bool := false
  overflow : Bool := false
  deriving DecidableEq, Repr

/-- The sign bit of a format in place. -/
def Fp.sign (f : Fp) (neg : Bool) : Nat := if neg then 2 ^ (f.ebits + f.mbits) else 0

/-- Infinity of a format that has one. -/
def Fp.inf (f : Fp) : Nat := (2 ^ f.ebits - 1) * 2 ^ f.mbits

/-- Conversion of an exact value to a format (R88, R89, R100–R103, R106): the table of R102 with its saturation bit. Only an input
NaN gives its sign to a NaN result (R88); a NaN that an infinity or an overflow gives is the canonical one.
For element formats without NaN or infinity the result saturates (R93). -/
def Fp.convert (f : Fp) (mode : Rounding) (sat : Bool) (v : Val) : Rounded :=
  match v with
  | .nan n => { code := f.sign n + f.nan, nonfinite := true }
  | .inf n => match f.style with
    | .ieee => { code := f.sign n + f.inf, nonfinite := true }
    | .e4m3 => { code := f.nan, nonfinite := true }
    | .allFinite => { code := f.sign n + f.maxFin, nonfinite := true }
  | .zero n => { code := f.sign n }
  | .fin m e =>
    let s := f.sign (decide (m < 0))
    let mag := f.roundMag mode m.natAbs e
    if mag ≤ f.maxFin then { code := s + mag }
    else match f.style with
      | .allFinite => { code := s + f.maxFin }
      | .e4m3 => if sat then { code := s + f.maxFin, overflow := true }
        else { code := f.nan, nonfinite := true, overflow := true }
      | .ieee => if sat then { code := s + f.maxFin, overflow := true }
        else { code := s + f.inf, nonfinite := true, overflow := true }

/-- binary32 of an exact value, to nearest even (R166, R189). An arithmetic NaN is 0x7FC0_0000. -/
def toF32 (v : Val) : Rounded :=
  match v with
  | .nan _ => { code := 0x7FC00000, nonfinite := true }
  | v => fpB32.convert .nearest false v

/-- Value of a binary32 code. -/
def f32 (code : Nat) : Val := fpB32.decode code

/-- +1.0 in binary32. -/
def one32 : Nat := 0x3F800000

/-! ### Operations of R188 that are not transcendental -/

/-- Exact quotient kept to enough bits with a sticky bit below, for one rounding to nearest (R189). -/
def Val.div (x y : Val) : Val :=
  match x, y with
  | .nan _, _ => .nan false
  | _, .nan _ => .nan false
  | .inf _, .inf _ => .nan false
  | .inf a, y => .inf (a ^^ y.neg)
  | x, .inf b => .zero (x.neg ^^ b)
  | .zero _, .zero _ => .nan false
  | x, .zero b => .inf (x.neg ^^ b)
  | .zero a, y => .zero (a ^^ y.neg)
  | .fin m e, .fin n f =>
    let num := m.natAbs <<< (64 + Nat.log2 n.natAbs)
    let q := num / n.natAbs
    let sticky := if num % n.natAbs == 0 then 0 else 1
    let mag : Int := (2 * q + sticky : Nat)
    .fin (if (decide (m < 0)) ^^ (decide (n < 0)) then -mag else mag) (e - f - (64 + Nat.log2 n.natAbs : Nat) - 1)

/-- Square root with a sticky bit (R189, R195). -/
def Val.sqrt : Val → Val
  | .nan _ => .nan false
  | .inf n => if n then .nan false else .inf false
  | .zero n => .zero n
  | .fin m e =>
    if m < 0 then .nan false
    else
      let odd := e % 2
      let num := (m.natAbs <<< odd.toNat) <<< 128
      let q := Nat.sqrt num
      let sticky := if q * q == num then 0 else 1
      .fin (2 * q + sticky : Nat) ((e - odd - 128) / 2 - 1)

/-- Reciprocal square root: the root of the reciprocal, kept to enough bits with sticky bits below. -/
def Val.rsqrt : Val → Val
  | .nan _ => .nan false
  | .inf n => if n then .nan false else .zero false
  | .zero n => .inf n
  | .fin m e =>
    if m < 0 then .nan false
    else
      -- 1/√(m·2^e) with e made even: floor(2^w / m) under a root, sticky from both divisions
      let odd := e % 2
      let d := m.natAbs <<< odd.toNat
      let w := 2 * (100 + Nat.log2 d)
      let num := 2 ^ w / d
      let q := Nat.sqrt num
      let sticky := if q * q * d == 2 ^ w then 0 else 1
      .fin (2 * q + sticky : Nat) (-(((e - odd) + w) / 2) - 1)

/-- Largest integral value not above v (R190). -/
def Val.floor : Val → Val
  | .fin m e =>
    if 0 ≤ e then .fin m e
    else
      let q := m / (2 ^ (-e).toNat : Nat)
      .ofDyadic q 0
  | .nan _ => .nan false
  | v => v

/-- Integral value nearest v, ties to even (R190): a zero keeps the sign of v. -/
def Val.rint : Val → Val
  | .fin m e =>
    if 0 ≤ e then .fin m e
    else
      let q : Int := roundNat .nearest m.natAbs e
      .ofDyadic (if m < 0 then -q else q) 0 (decide (m < 0))
  | .nan _ => .nan false
  | v => v

/-- Whether a orders below b with −0 below +0 (R190); neither is NaN. -/
def Val.below (a b : Val) : Bool :=
  let c := a.cmp b
  if c < 0 then true
  else if 0 < c then false
  else match a, b with
    | .zero n, .zero k => n && !k
    | _, _ => false

/-- MIN of R190. -/
def Val.min' (a b : Val) : Val :=
  if a.isNaN || b.isNaN then .nan false else if b.below a then b else a

/-- MAX of R190. -/
def Val.max' (a b : Val) : Val :=
  if a.isNaN || b.isNaN then .nan false else if a.below b then b else a

/-- Value of 1.0. -/
def Val.one : Val := .fin 1 0

/-- The truth value of a comparison: 1.0 or +0 (R190). -/
def Val.ofBool (b : Bool) : Val := if b then .one else .zero false

/-! ### Binary32 helpers used by the accumulator, the fold and the update engine -/

/-- round(x + y) to binary32 (R166). -/
def addF32 (x y : Nat) : Rounded := toF32 ((f32 x).add (f32 y))
/-- MUL under R189. -/
def mulF32 (x y : Nat) : Rounded := toF32 ((f32 x).mul (f32 y))
/-- SUB under R189. -/
def subF32 (x y : Nat) : Rounded := toF32 ((f32 x).add (f32 y).negate)
/-- FMA under R189: x · y formed exactly, rounded once. -/
def fmaF32 (x y z : Nat) : Rounded := toF32 (((f32 x).mul (f32 y)).add (f32 z))
/-- DIV under R189. -/
def divF32 (x y : Nat) : Rounded := toF32 ((f32 x).div (f32 y))
/-- SQRT under R189. -/
def sqrtF32 (x : Nat) : Rounded := toF32 (f32 x).sqrt
/-- MIN under R190. -/
def minF32 (x y : Nat) : Nat := (toF32 ((f32 x).min' (f32 y))).code
/-- NEG under R189. -/
def negF32 (x : Nat) : Nat := (toF32 (f32 x).negate).code
/-- Whether a binary32 code is NaN or infinite. -/
def nonfiniteF32 (x : Nat) : Bool := !(f32 x).isFinite

/-! ### Residue pairs (R94–R99) -/

/-- ulp exponent of a finite bfloat16 code (R94). -/
def ulpExp (p : Nat) : Int := let ex := fld p 7 8; if ex == 0 then -133 else (ex : Int) - 134

/-- Exact value of a residue pair (R94). -/
def pairVal (p r : Nat) : Val :=
  match fpBF16.decode p with
  | .nan n => .nan n
  | .inf n => .inf n
  | v => match v.add (.ofDyadic (signed 16 r) (ulpExp p - 16)) with
    | .zero _ => if signed 16 r = 0 then v else .zero false
    | w => w

/-- The nearest bfloat16 to a finite value with ties toward +∞ (R96, first stage), as a code before the range check. -/
def nearestTiesUp (m e : Int) : Nat :=
  let neg := decide (m < 0)
  let num := m.natAbs
  let emin : Int := -126
  let top := max ((Nat.log2 num : Int) + e) emin
  let d := e - (top - 7)
  let q := if 0 ≤ d then num * 2 ^ d.toNat
    else
      let k := (-d).toNat
      let q := num >>> k
      let r := num - q <<< k
      let half := 2 ^ (k - 1)
      if r < half then q else if half < r then q + 1 else if neg then q else q + 1
  fpBF16.sign neg + ((top - emin).toNat * 128 + q)

/-- Rounding an exact value to a residue pair (R96): (p, r, NONFINITE). -/
def toPair (s : Val) : Nat × Nat × Bool :=
  match s with
  | .nan n => (fpBF16.sign n + 0x7FC0, 0, true)
  | .inf n => (fpBF16.sign n + 0x7F80, 0, true)
  | .zero n => (fpBF16.sign n, 0, false)
  | .fin m e =>
    let p := nearestTiesUp m e
    if 0x7F7F < p % 0x8000 then (fpBF16.sign (decide (m < 0)) + 0x7F80, 0, true)
    else
      match (Val.fin m e).add (fpBF16.decode p).negate with
      | .fin dm de =>
        let q : Int := roundNat .nearest dm.natAbs (de - (ulpExp p - 16))
        let r := if dm < 0 then -q else q
        (p, unsigned 16 (if r = 32768 then 32767 else r), false)
      | _ => (p, 0, false)

/-- binary32 of a residue pair: exact (R98). -/
def pairToF32 (p r : Nat) : Nat := (fpB32.convert .nearest false (pairVal p r)).code

/-! ### MX blocks (R93) -/

/-- Largest element exponent of an MX format (R93). -/
def emaxElem : Nat → Int
  | 0x5 => 8
  | 0x6 => 15
  | 0x7 => 4
  | 0x8 => 2
  | 0x9 => 2
  | _ => 0

/-- Conversion of one value into an MXINT8 element (R91, R93). -/
def convertInt8 (mode : Rounding) (v : Val) : Nat :=
  match v with
  | .fin m e =>
    let q := roundNat mode m.natAbs (e + 6)
    let q' := min q 127
    if m < 0 then unsigned 8 (-(q' : Int)) else q'
  | _ => 0

/-- Conversion of a 32-element block (R93): the scale code, the element codes. Each element has its own rounding word. -/
def convertBlock (c : Nat) (xs : List (Val × Rounding)) : Nat × List Nat :=
  if xs.any (fun (v, _) => !v.isFinite) then (0xFF, xs.map fun _ => 0)
  else
    let amax := xs.foldl (fun (a : Val) (v, _) => if a.cmp v.abs < 0 then v.abs else a) (.zero false)
    match amax with
    | .zero _ => (0x7F, xs.map fun (v, _) => if c == 0xA then 0 else (fpOf c).sign v.neg)
    | _ =>
      let e := max (-127) (min 127 (amax.ilog2 - emaxElem c))
      let el : Val × Rounding → Nat := fun (v, mode) =>
        if c == 0xA then convertInt8 mode (v.scale (-e))
        else ((fpOf c).convert mode true (v.scale (-e))).code
      ((e + 127).toNat, xs.map el)

/-- binary32 of a nonnegative integer that binary32 holds exactly. -/
def natF32 (n : Nat) : Nat := (toF32 (.ofDyadic n 0)).code

/-! ### Philox4x32-10 (R104) -/

/-- Ten rounds on the counter words under the key words. -/
def philoxRounds : Nat → Nat × Nat × Nat × Nat → Nat → Nat → Nat × Nat × Nat × Nat
  | 0, c, _, _ => c
  | n + 1, (c0, c1, c2, c3), k0, k1 =>
    let p0 := 0xD2511F53 * c0
    let p1 := 0xCD9E8D57 * c2
    philoxRounds n
      ((p1 >>> 32) ^^^ c1 ^^^ k0, p1 % 2 ^ 32, (p0 >>> 32) ^^^ c3 ^^^ k1, p0 % 2 ^ 32)
      ((k0 + 0x9E3779B9) % 2 ^ 32) ((k1 + 0xBB67AE85) % 2 ^ 32)

/-- Output word i of Philox4x32-10 under the plan seed (R104). -/
def philox (seed c0 c1 step i : Nat) : Nat :=
  let (x0, x1, x2, x3) := philoxRounds 10 (c0 % 2 ^ 32, c1 % 2 ^ 32, fld step 0 32, fld step 32 32) (fld seed 0 32) (fld seed 32 32)
  match i % 4 with
  | 0 => x0
  | 1 => x1
  | 2 => x2
  | _ => x3

/-- The word u of domains 0 and 1 (R105): logical core, row, lane, c0. -/
def philoxLane (seed domain core row lane c0 step : Nat) : Nat :=
  philox seed c0 (domain <<< 28 + (core % 256) <<< 20 + (row % 4096) <<< 8 + (lane / 4) % 32) step (lane % 4)

/-- The rounding of an instruction's mode field (R100): code 1 is stochastic with the given word. -/
def roundingOf (code : Nat) (u : Nat) : Rounding := if code == 1 then .stochastic u else .nearest

end Sys2Proof.Machine
end

