-- ==== Sys2Proof/Machine/Flags.lean ====
section
/-! DEFINITION. The sticky flags of R225: their bits, and which of them a delivered result raises. -/

namespace Sys2Proof.Machine

/-- EMPTY_WINDOW, ALL_MASKED, PERM_RANGE, NONFINITE and the overflow flag as bits of a flag bank (R225). -/
def fEmptyWindow : Nat := 1
def fAllMasked : Nat := 2
def fPermRange : Nat := 4
def fNonfinite : Nat := 8
def fOverflow : Nat := 16

/-- Flags of a delivered result: none where it is stained (R89). -/
def Rounded.flags (r : Rounded) (stain : Bool) : Nat :=
  if stain then 0 else (if r.nonfinite then fNonfinite else 0) ||| (if r.overflow then fOverflow else 0)

end Sys2Proof.Machine
end

