-- ==== Sys2Proof/Machine/Operands.lean ====
section
/-! DEFINITION. The 128-bit instruction word (R216–R248): its fields, and every check that depends on the word alone (R220). -/

namespace Sys2Proof.Machine

/-- Status codes of R475. -/
def stDone : Nat := 0x00
def stBadKind : Nat := 0x01
def stBadField : Nat := 0x02
def stOutOfRange : Nat := 0x03
def stMisaligned : Nat := 0x04
def stWrongState : Nat := 0x05
def stNoPlan : Nat := 0x06
def stKvExhausted : Nat := 0x07
def stDiscardNonfinite : Nat := 0x08
def stDiscardStain : Nat := 0x09
def stCrestOverrun : Nat := 0x0A
def stAuthFailed : Nat := 0x0B
def stPeerLost : Nat := 0x0C
def stAborted : Nat := 0x0D
def stDeterminismVoid : Nat := 0x0E

/-- The first check that holds gives its value. -/
def firstOf {α : Type} : List (Bool × α) → Option α
  | [] => none
  | (b, x) :: rest => if b then some x else firstOf rest

/-! ### The header (R217) -/

def Word.unit (w : Nat) : Nat := fld w 0 4
def Word.op (w : Nat) : Nat := fld w 4 6
def Word.sig (w : Nat) : Bool := bit w 10
def Word.sigToken (w : Nat) : Nat := fld w 11 6
def Word.sigCore (w : Nat) : Nat := fld w 17 8
def Word.stepBefore (w : Nat) : Bool := bit w 25
def Word.variant (w : Nat) : Nat := fld w 26 2
/-- Slots A to E (R216) are slot 0 to 4. -/
def Word.slot (w i : Nat) : Nat := fld w (32 + 5 * i) 5

/-- Unit and operation code of an instruction (R218, R231, R234, R240, R242, R245). -/
def CoreOp.codes : CoreOp → Nat × Nat
  | .nop => (0, 0x00) | .cbegin => (0, 0x01) | .cend => (0, 0x02) | .loop => (0, 0x03) | .twait => (0, 0x04)
  | .tsig => (0, 0x05) | .sli => (0, 0x08) | .salu => (0, 0x09) | .sld => (0, 0x0A) | .sst => (0, 0x0B)
  | .sid => (0, 0x0C) | .sflag => (0, 0x0D)
  | .loadset => (1, 0x00) | .pass => (1, 0x01) | .enq => (1, 0x02) | .flush => (1, 0x03) | .matvec => (1, 0x04)
  | .tclr => (2, 0x00) | .combine => (2, 0x01)
  | .vop => (3, 0x00) | .vcvt => (3, 0x01) | .vsplit => (3, 0x02) | .vperm => (3, 0x03) | .vsetvl => (3, 0x04)
  | .vmovs => (3, 0x05) | .vld => (3, 0x06) | .vst => (3, 0x07) | .kload => (3, 0x08) | .kapply => (3, 0x09)
  | .rreg => (4, 0x00) | .rtrow => (4, 0x01)
  | .wrun => (5, 0x00) | .wpool => (5, 0x01)
  | .copy => (6, 0x00) | .fill => (6, 0x01) | .dsplit => (6, 0x02)
  | .fsend => (7, 0x00) | .frecv => (7, 0x01) | .bsend => (7, 0x02)
  | .kvread => (8, 0x00) | .kvappend => (8, 0x01) | .kvflush => (8, 0x02)

/-- Every core instruction. -/
def allCoreOps : List CoreOp :=
  [.nop, .cbegin, .cend, .loop, .twait, .tsig, .sli, .salu, .sld, .sst, .sid, .sflag, .loadset, .pass, .enq, .flush, .matvec,
   .tclr, .combine, .vop, .vcvt, .vsplit, .vperm, .vsetvl, .vmovs, .vld, .vst, .kload, .kapply,
   .rreg, .rtrow, .wrun, .wpool, .copy, .fill, .dsplit, .fsend, .frecv, .bsend, .kvread, .kvappend, .kvflush]

/-- The instruction that a word's unit and op codes name; none where they are reserved (R220: BAD_KIND). -/
def decodeOp (w : Nat) : Option CoreOp := allCoreOps.find? fun o => o.codes == (Word.unit w, Word.op w)

/-- The unit that executes an instruction: the sequencer takes FRECV itself (R218). -/
def CoreOp.unit : CoreOp → Nat
  | .frecv => 0
  | o => o.codes.1

/-- How many of the slots A to E an instruction's Slots column lists. -/
def CoreOp.slots : CoreOp → Nat
  | .sli | .sid | .sflag | .combine | .vsetvl | .kload | .wpool => 1
  | .sld | .sst | .loadset | .vsplit | .vmovs | .vld | .vst | .rreg | .rtrow | .bsend | .kvread | .kvappend => 2
  | .salu | .vperm | .wrun | .fsend => 3
  | .pass | .enq | .vop | .copy | .fill | .dsplit => 4
  | .matvec | .vcvt | .kapply => 5
  | _ => 0

/-- The immediate fields that an instruction assigns (R232, R236, R240, R243, R245), as (low bit, width). -/
def CoreOp.immFields : CoreOp → List (Nat × Nat)
  | .cbegin => [(57, 13)]
  | .loop => [(57, 29)]
  | .twait => [(57, 22)]
  | .tsig => [(57, 30)]
  | .sli => [(64, 64)]
  | .salu => [(57, 5), (64, 32)]
  | .sld | .sst => [(64, 32)]
  | .sid => [(57, 2)]
  | .loadset => [(57, 26)]
  | .pass => [(57, 53)]
  | .enq => [(57, 27)]
  | .matvec => [(57, 23)]
  | .tclr => [(57, 5)]
  | .combine => [(57, 22)]
  | .vop => [(57, 7)]
  | .vcvt => [(57, 26)]
  | .vld | .vst => [(57, 20)]
  | .kload => [(57, 4)]
  | .kapply => [(57, 64)]
  | .rreg => [(57, 3)]
  | .rtrow => [(57, 14)]
  | .copy => [(57, 8)]
  | .fill => [(61, 4)]
  | .fsend => [(57, 21)]
  | .frecv => [(57, 22)]
  | .bsend => [(57, 28)]
  | _ => []

/-- Whether a format code is reserved (R86). -/
def fmtReserved (f : Nat) : Bool := decide (0xB < f)

/-- Whether accumulator rows [r, r + m) lie in one even-numbered handle (R167). -/
def rowsInEvenHandle (r m : Nat) : Bool := r / 128 % 2 == 0 && r / 128 == (r + m - 1) / 128

/-- A kernel input field (R243) that a load refuses. -/
def badKernelInput (f : Nat) : Bool :=
  let kind := fld f 0 2
  let id := fld f 2 5
  let fmt := fld f 8 4
  (kind == 0 && (decide (5 < id) || decide (4 < fmt))) || (kind != 0 && fmt != 0) || (kind == 2 && id % 2 == 1)

/-- A kernel output field (R243) that a load refuses. -/
def badKernelOutput (f : Nat) : Bool :=
  let fmt := fld f 6 4
  if bit f 0 then fmt != 0 else decide (5 < fld f 1 5) || decide (4 < fmt)

/-- Array format codes that LOADSET and PASS accept (R236). -/
def arrayFmt (f : Nat) : Bool := decide (f ≤ 9)

/-- LOADSET immediates that a load refuses (R236). -/
def badLoadset (w : Nat) : Bool :=
  let fmt := fld w 57 4
  !arrayFmt fmt || (isMX fmt && !bit w 61) || (isMX fmt && (fld w 68 7 + 1) % 32 != 0) || (fmt != 9 && decide (127 < fld w 75 8))

/-- PASS immediates that a load refuses (R236, R237, R167). -/
def badPass (w : Nat) : Bool :=
  let fmt := fld w 57 4
  let part := fld w 108 2
  !arrayFmt fmt || (isMX fmt && bit w 61) || fld w 105 2 == 3 ||
    (fld w 105 2 == 1 && !rowsInEvenHandle (fld w 80 12) (fld w 68 12 + 1)) ||
    ((fmt == 0) != (part != 0)) || (decide (1 < part) && bit w 107)

/-- ENQ immediates that a load refuses (R236, R237, R167). -/
def badEnq (w : Nat) : Bool :=
  let fmt := fld w 57 4
  !arrayFmt fmt || fmt == 0 || (isMX fmt && bit w 61) || fld w 81 2 == 3 || (fld w 81 2 == 1 && !rowsInEvenHandle (fld w 68 12) 1)

/-- MATVEC immediates that a load refuses (R236, R237, R239). -/
def badMatvec (w : Nat) : Bool :=
  !arrayFmt (fld w 57 4) || fld w 57 4 == 0 || !arrayFmt (fld w 61 4) || fld w 61 4 == 0 || fld w 77 2 == 3 ||
    (fld w 77 2 == 1 && !rowsInEvenHandle (fld w 65 12) 1) || decide (29 < Word.slot w 4)

/-- VCVT immediates that a load refuses (R243). -/
def badVcvt (w : Nat) : Bool :=
  let src := fld w 57 4
  let dst := fld w 61 4
  decide (0xA < src) || decide (0xA < dst) || (isMX src && isMX dst) || decide (1 < fld w 65 2) ||
    (bit w 67 && dst != 3 && dst != 4) || fld w 68 2 == 3 || (fld w 68 2 != 0 && (src != 0 || dst != 0))

/-- VLD and VST immediates that a load refuses (R243). -/
def badRowMove (store : Bool) (w : Nat) : Bool :=
  let place := fld w 57 2
  let row := fld w 62 12
  place == 3 || decide (5 < fld w 59 3) || (place == 0 && decide (127 < row)) || (place == 2 && row != 0) || fld w 74 2 == 3 ||
    (bit w 76 && (store || place != 1 || row / 128 % 2 == 1))

/-- KAPPLY immediates that a load refuses (R243, R244). -/
def badKapply (w : Nat) : Bool :=
  decide (1 < fld w 61 2) || badKernelInput (fld w 64 12) || badKernelInput (fld w 76 12) || badKernelInput (fld w 88 12) ||
    badKernelOutput (fld w 100 10) || badKernelOutput (fld w 110 10) || decide (24 < Word.slot w 2)

/-- RTROW immediates that a load refuses (R243, R244). -/
def badRtrow (w : Nat) : Bool :=
  let src := fld w 60 2
  decide (5 < fld w 57 3) || src == 3 || (src == 2 && fld w 62 5 % 2 == 1) ||
    (src == 0 && (decide (5 < fld w 62 5) || decide (4 < fld w 67 4))) ||
    (src != 0 && fld w 67 4 != 0) || (decide (3 < fld w 57 3) && Word.slot w 0 == 31)

/-- Checks on an instruction's own immediates and slots, in no order: all are BAD_FIELD (R232, R236, R237, R240, R243–R245). -/
def immBad (o : CoreOp) (w : Nat) : Bool :=
  match o with
  | .loop => fld w 57 16 == 0 || fld w 73 13 == 0 || decide (8190 < fld w 73 13)
  | .twait => fld w 63 16 == 0
  | .frecv => fld w 63 16 == 0
  | .tsig => fld w 71 16 == 0
  | .salu => decide (8 < fld w 57 4) || (bit w 61 && Word.slot w 2 != 0)
  | .loadset => badLoadset w
  | .pass => badPass w
  | .enq => badEnq w
  | .matvec => badMatvec w
  | .combine => fld w 57 8 == 0 || (bit w 78 && fld w 73 5 % 2 == 1)
  | .vop => decide (0x1C < fld w 57 6) || (bit w 63 && decide (0x0F < fld w 57 6))
  | .vcvt => badVcvt w
  | .vsplit => Word.slot w 0 == 31
  | .vld => badRowMove false w
  | .vst => badRowMove true w
  | .kapply => badKapply w
  | .rreg => decide (5 < fld w 57 3)
  | .rtrow => badRtrow w
  | .copy => decide (5 < fld w 58 3) || decide (5 < fld w 62 3)
  | .fill => decide (5 < fld w 62 3)
  | .fsend => !bit w 63 && fld w 64 14 != 0
  | .bsend => bit w 68 && fld w 63 5 % 2 == 1
  | _ => false

/-- Row ranges given by immediates alone that run beyond row 4,095 (R220, R236). -/
def immRange (o : CoreOp) (w : Nat) : Bool :=
  match o with
  | .pass => decide (4096 < fld w 80 12 + fld w 68 12 + 1)
  | _ => false

/-- The status with which a plan load refuses an instruction word by itself (R217, R220), in the order of R458; none
where the word is a legal instruction of this name. -/
def wordStatus (o : CoreOp) (w : Nat) : Option Nat :=
  firstOf [
    (o.codes != (Word.unit w, Word.op w), stBadKind),
    ((!Word.sig w && (Word.sigToken w != 0 || Word.sigCore w != 0)) || Word.variant w == 3 || fld w 28 4 != 0, stBadField),
    (!onlyFields (fld w 57 71) ((o.immFields.map fun p => (p.1 - 57, p.2))), stBadField),
    ((List.range 5).any (fun i => decide (o.slots ≤ i) && Word.slot w i != 0), stBadField),
    (immBad o w, stBadField),
    (immRange o w, stOutOfRange)]

end Sys2Proof.Machine
end

