-- ==== Sys2Proof/Machine/Sha3.lean ====
section
/-! DEFINITION. SHA3-384 of FIPS 202, as R511, R552, R557, R558 and the plan digest use it, and SHAKE256 (R556). The permutation's state is one
1,600-bit number, five planes of 320 bits, each plane five lanes of 64 bits. -/

namespace Sys2Proof.Machine

/-- A w-bit number turned left by n < w places. -/
def turn (w n x : Nat) : Nat := (x <<< n) % 2 ^ w + x >>> (w - n)

/-- Plane y of a state. -/
def sheet (a y : Nat) : Nat := fld a (320 * y) 320

/-- Lane (x, y) of a state. -/
def laneOf (a x y : Nat) : Nat := fld a (64 * x + 320 * y) 64

/-- Lowest bit of each lane of a plane. -/
def laneOnes : Nat := (2 ^ 320 - 1) / (2 ^ 64 - 1)

/-- Every lane of a plane turned left by one place. -/
def spin (p : Nat) : Nat := ((p <<< 1) &&& (2 ^ 320 - 1 - laneOnes)) ||| ((p >>> 63) &&& laneOnes)

/-- A number put in each of the five planes. -/
def allSheets (f : Nat → Nat) : Nat := (List.range 5).foldl (fun a y => a + f y <<< (320 * y)) 0

/-- θ: each lane takes the parities of the two columns beside its own. -/
def theta (a : Nat) : Nat :=
  let parity := (List.range 5).foldl (fun c y => c ^^^ sheet a y) 0
  let change := turn 320 64 parity ^^^ spin (turn 320 256 parity)
  a ^^^ allSheets fun _ => change

/-- ρ and π along the path of the lanes from (x, y): the t-th lane turns by t(t + 1)/2 and takes the next lane's place. -/
def rhoPi (a : Nat) : Nat → Nat → Nat → Nat → Nat
  | 0, _, _, out => out
  | left + 1, x, y, out =>
    let t := 24 - left
    rhoPi a left y ((2 * x + 3 * y) % 5) (out + turn 64 (t * (t + 1) / 2 % 64) (laneOf a x y) <<< (64 * y + 320 * ((2 * x + 3 * y) % 5)))

/-- χ, plane by plane. -/
def chi (a : Nat) : Nat := allSheets fun y =>
  let p := sheet a y
  p ^^^ ((2 ^ 320 - 1 - turn 320 256 p) &&& turn 320 192 p)

/-- Seven steps of the shift register behind ι: the register after them, and the round constant they give. -/
def iotaBits (reg : Nat) : Nat × Nat :=
  (List.range 7).foldl (fun (r, k) j =>
    (if bit r 7 then (2 * r) ^^^ 0x171 else 2 * r, if bit r 0 then k + 2 ^ (2 ^ j - 1) else k)) (reg, 0)

/-- The permutation: 24 rounds, the shift register carried along. -/
def permute : Nat → Nat → Nat → Nat
  | 0, _, a => a
  | left + 1, reg, a =>
    let b := theta a
    let (reg, k) := iotaBits reg
    permute left reg (chi (rhoPi b 24 1 0 (laneOf b 0 0)) ^^^ k)

/-- One block of 832 bits absorbed. -/
def absorb (a block : Nat) : Nat := permute 24 1 (a ^^^ block)

/-- SHA3-384: 48 bytes. The part of the message after its whole blocks takes the suffix 01 and the padding 10*1. -/
def sha3_384 (bs : List Byte) : List Byte :=
  let whole := bs.length / 104
  let rest := bs.drop (104 * whole)
  let a := (chunks 104 whole bs).foldl (fun a b => absorb a (leNat b)) 0
  leBytes 48 (absorb a ((leNat rest + 6 <<< (8 * rest.length)) ^^^ 1 <<< 831))

/-- SHAKE256 to 32 bytes, as R556 derives keys. The part of the message after its whole blocks of 136 bytes takes the suffix 1111 and the
padding 10*1. -/
def shake256 (bs : List Byte) : List Byte :=
  let whole := bs.length / 136
  let rest := bs.drop (136 * whole)
  let a := (chunks 136 whole bs).foldl (fun a b => absorb a (leNat b)) 0
  leBytes 32 (absorb a ((leNat rest + 31 <<< (8 * rest.length)) ^^^ 1 <<< 1087))

end Sys2Proof.Machine
end

