-- ==== Sys2Proof/Machine/PlanData.lean ====
section
/-! DEFINITION. A crest plan as the module holds it after a load (R462–R469): the declarations, and which unit has work in
which plan crest. The instruction words themselves lie in the plan store, from which the instruction memories are loaded. -/

namespace Sys2Proof.Machine

/-- One activation-ledger entry (R319). -/
structure ActEntry where
  policy : Nat
  codec : Nat
  talus : Bool
  fmt : Nat
  target : Nat
  beta : Nat
  kf : Nat
  mdie : Nat
  layer : Nat
  home : Nat
  bytes : Nat
  frames : Nat
  copyBase : Nat
  capacity : Nat
  indexBase : Nat
  produce : Nat
  homeCrest : Nat
  release : Nat
  segment : Nat
  scaleAddr : Nat
  deriving DecidableEq, Repr

/-- One destination of a distribution list (R433). -/
structure Dest where
  rank : Nat
  addr : Nat
  token : Nat
  core : Nat
  signal : Bool
  deriving DecidableEq, Repr

/-- One bucket entry (R360) with its contributor and distribution lists. -/
structure Bucket where
  tag : Nat
  group : Nat
  mdie : Nat
  len : Nat
  tensor : Nat
  contributors : List Nat
  dist : List Dest
  offset : Nat
  deriving DecidableEq, Repr

/-- One group entry (R377): k holds k0–k9 as binary32 codes. -/
structure Group where
  optimizer : Nat
  software : Bool
  pairMoments : Bool
  kernelA : Nat
  kernelB : Nat
  kernelBOn : Bool
  k : List Nat
  deriving DecidableEq, Repr

/-- One collective record of a fabric schedule (R465) with its members. -/
structure Collective where
  kind : Nat
  order : Nat
  fmt : Nat
  before : Bool
  members : List Nat
  root : Nat
  source : Nat
  dest : Nat
  bytes : Nat
  token : Nat
  core : Nat
  signal : Bool
  deriving DecidableEq, Repr

/-- Work of one unit in one crest (R464): the plan crest, the unit and how many words. `before` says whether any of
its words names the step before (R217, R381), `now` whether any names the step itself. -/
structure Work where
  crest : Nat
  unit : Nat
  words : Nat
  before : Bool
  now : Bool
  /-- Where its words lie in the plan image, and so in the plan store. -/
  at' : Nat := 0
  deriving DecidableEq, Repr

/-- One fallback segment (R466). -/
structure Segment where
  number : Nat
  crests : Nat
  blocks : List Work
  programs : List Work
  deriving DecidableEq, Repr

/-- The areas of one M-die (R467). -/
structure Area where
  engineStart : Nat
  foldPool : Nat
  codecBytes : Nat
  storeBase : Nat
  bankSize : Nat
  spillBase : Nat
  spillSize : Nat
  deriving DecidableEq, Repr

/-- What an aperture is bound to (R46, R348, R468). -/
inductive Aperture where
  | unbound
  | rank (r : Nat)
  | talus
  deriving DecidableEq, Repr

/-- Declarations of a plan, first part: header, areas and lists of work. -/
structure PlanWork where
  period : Nat
  length : Nat
  commit : Nat
  commitNext : Bool
  blocks : List Work
  programs : List Work
  schedules : List (Work × List Collective)
  segments : List Segment
  areas : List Area
  holdAreas : List Nat
  snapAreas : List Nat
  snapSizes : List Nat
  storeBase : Nat
  storeSize : Nat
  deriving DecidableEq, Repr

/-- A loaded crest plan (R462–R469). -/
structure Plan where
  seed : Nat
  digest : Nat
  work : PlanWork
  acts : List ActEntry
  buckets : List Bucket
  groups : List Group
  /-- margin and tensor id of each scale-ledger entry (R111). -/
  scales : List (Nat × Nat)
  apertures : List Aperture
  /-- (bucket tag, aperture) of every BSEND of the plan (R460, SHARD_MAP). -/
  sends : List (Nat × Nat)
  /-- The scale-ledger entries that conversions of the plan name (R626, R118). -/
  named : List Nat
  /-- The activation-ledger entry of every FETCH word of the plan crests (R349). -/
  fetches : List Nat
  deriving DecidableEq, Repr

end Sys2Proof.Machine
end

