-- ==== Sys2Proof/Machine/DeviceState.lean ====
section
/-! DEFINITION. The parts of the module's state outside the cores: M-dies, fold, steps, crest, host link, rings, error log. -/

namespace Sys2Proof.Machine

/-! ### M-dies -/

/-- The words of an M-die program (R324, R381). -/
inductive MOp where
  | pack | unpack | ship | fetch | fwait | update | vcontrib | rerun | ostage | gather | cwait
  deriving DecidableEq, Repr

/-- One M-die program word with the operation its row gives, and the step of a word that the crest of an ABORT left unfinished (R396). -/
structure MWord where
  op : MOp
  word : Nat
  carried : Option Nat := none
  deriving DecidableEq, Repr

/-- The position of one M-die's program: the word whose last write is not complete, whether the first of the words in
`queue` waits for its condition (R381), the words behind it, and how many words of the crest have finished. The 16
kernel slots (R379) and the codec's frame buffers (R338; key entry · 2^16 + block of the frame) stand here too. `stuck`: the running
word has a mesh transfer with no path (R38). -/
structure MDie where
  busy : Option MWord := none
  held : Bool := false
  stuck : Bool := false
  /-- The transfers that the running word sends (R57): the first number, and the number after the last. -/
  sends : Nat × Nat := (0, 0)
  queue : List MWord := []
  finished : Nat := 0
  kslots : SMap (List Nat) := []
  frames : SMap (List (Byte × Bool)) := []
  deriving DecidableEq, Repr

/-- An M-die after a reset. -/
def MDie.init : MDie := {}

/-- One activation entry in one step (R331, R349): the next block to pack and its payload offset, unavailability, and how many FETCH words
have completed. -/
structure ActRun where
  entry : Nat
  step : Nat
  nextBlock : Nat
  offset : Nat
  unavailable : Bool
  fetches : Nat
  deriving DecidableEq, Repr

/-- One scale-ledger entry (R111): history, pending and their stain, k of even and of odd steps, head, margin, tensor id,
and the bits primed and floor reached, and the back-off count. -/
structure ScaleEntry where
  history : List Nat
  pending : Nat
  pendStain : Bool
  kEven : Int
  kOdd : Int
  head : Nat
  margin : Nat
  primed : Bool
  floor : Bool
  backoffs : Nat
  tensor : Nat
  deriving DecidableEq, Repr

/-- One fold slot (R366): the contributor position, the elements written so far, and how many writes they are. -/
structure FoldSlot where
  pos : Nat
  count : Nat
  elems : SMap (Lane × Bool)
  deriving DecidableEq, Repr

/-- One value of the fold tree (R367): its level and index, and its elements with their stain. -/
structure FoldNode where
  level : Nat
  index : Nat
  elems : List (Nat × Bool)
  deriving DecidableEq, Repr

/-- The fold of one bucket for one step (R366–R369): open slots, nodes whose sibling is missing, the retained root, and
the flush and zero-chunk counts (R372). -/
structure Fold where
  tag : Nat
  step : Nat
  slots : List FoldSlot
  nodes : List FoldNode
  root : Option (List (Nat × Bool))
  flushes : Nat
  zeros : Nat
  deriving DecidableEq, Repr

/-- Zero-streak counter and flush count of one tensor on one M-die (R398), and whether its event was written (R399). -/
structure Streak where
  mdie : Nat
  tensor : Nat
  zeros : Nat
  flushes : Nat
  silent : Bool
  deriving DecidableEq, Repr

/-- An entry of an M-die's merge buffer (R496): the M-die, the word's canonical address, the mark that its read-modify-write finds, and
whose writes it holds (State.writerKey). -/
structure MergeEntry where
  mdie : Nat
  word : Nat
  mark : Mark
  owners : List Nat
  deriving DecidableEq, Repr

/-- A word of the device's own tables (R500): an entry of an L-die's copy of the rank table, a bucket, group, scale-ledger or
activation-ledger entry, a bucket's distribution list, its entry of the shard map, a kernel slot or the program of an M-die, the schedule of
an L-die. -/
inductive TableWord where
  | rank (ldie rank : Nat)
  | bucket (tag : Nat)
  | group (number : Nat)
  | scale (entry : Nat)
  | act (entry : Nat)
  | dist (tag : Nat)
  | shard (tag : Nat)
  | kernel (mdie slot : Nat)
  | program (mdie : Nat)
  | schedule (ldie : Nat)
  deriving DecidableEq, Repr

/-- What a read of a table word meets, with the M-die whose staging SRAM holds it and its offset there (R500). -/
structure TableMark where
  word : TableWord
  mdie : Nat
  offset : Nat
  mark : Mark
  deriving DecidableEq, Repr

/-! ### Steps -/

/-- A descriptor in progress (R455, R456): its submission ring, completion ring, kind, tag, and the 512 bits. -/
structure DescRef where
  ring : Nat
  cring : Nat
  kind : Nat
  tag : Nat
  bits : Nat
  deriving DecidableEq, Repr

/-- A verdict (R388): epoch, round, code, the 64 factors and the 64 sums. -/
structure Verdict where
  epoch : Nat
  round : Nat
  code : Nat
  factors : List Nat
  sums : List Nat
  deriving DecidableEq, Repr

/-- Where a submitted step stands (R69): in flight, committed with its GATHER still to finish, or ended by a discard or an
abort with its status. -/
inductive StepPhase where
  | inFlight
  | committed
  | ended (status : Nat)
  deriving DecidableEq, Repr

/-- The marks of one contribution (R386): stain and non-finite bit, the M-dies whose VCONTRIB has finished, and whether it
was handed over (R385). -/
structure Contribution where
  stain : Bool := false
  nonfinite : Bool := false
  done : List Nat := []
  handed : Bool := false
  deriving DecidableEq, Repr

/-- A host clip factor accepted for a group (R391, R392). -/
structure ClipFactor where
  group : Nat
  factor : Nat
  deriving DecidableEq, Repr

/-- One accepted step that is not yet completed (R69, R73). -/
structure StepRec where
  number : Nat
  desc : DescRef
  lam : Nat
  prime : Bool
  area : Nat
  begun : Bool := false
  phase : StepPhase := .inFlight
  /-- An ABORT was accepted while the step was in flight (R396). -/
  aborting : Bool := false
  overruns : Nat := 0
  voids : Nat := 0
  flags : Nat := 0
  peerLost : Bool := false
  superseded : Bool := false
  first : Contribution := {}
  second : Contribution := {}
  verdict : Option Verdict := none
  again : Option Verdict := none
  clips : List ClipFactor := []
  /-- Buckets whose UPDATE in the step has finished (R383). -/
  updated : List Nat := []
  /-- Software-class groups whose norm-partial completion has been written (R472). -/
  partials : List Nat := []
  /-- Whether the step's last plan crest has ended (its GATHER has finished, R73). -/
  gathered : Bool := false
  deriving DecidableEq, Repr

/-! ### Crest -/

/-- A unit with work in the running crest (R54): 0 core, 2 M-die, 3 L-die, as the source classes of R474. -/
structure CrestUnit where
  cls : Nat
  num : Nat
  deriving DecidableEq, Repr

/-- The plan crest now running: its step, its number, whether it is an inserted crest of a segment (segment, segment
crest), and the tail of the step before that it runs beside (R223). -/
structure Running where
  step : Nat
  crest : Nat
  inserted : Option (Nat × Nat)
  /-- Only the tail of the step before has work: no step of this number has begun. -/
  tail : Bool
  deriving DecidableEq, Repr

/-- A host command that waits for order 4 of a boundary (R54), in submission order. -/
inductive BoundaryCmd where
  | realign (target : Nat) (d : DescRef)
  | power (target : Nat) (d : DescRef)
  | unload (d : DescRef)
  | ringAdvance (ring producer step : Nat) (d : DescRef)
  | talusBind (lender : Nat) (d : DescRef)
  | talusRevoke (d : DescRef)
  | talusLost
  | peerLost (rank : Nat) (d : DescRef)
  | rankEntry (rank entry initiator number : Nat)
  | restore (d : DescRef)
  deriving DecidableEq, Repr

/-- A boundary that an overrun defers (R60–R63): the unit it names, the cause. -/
structure Deferred where
  cls : Nat
  num : Nat
  cause : Nat
  deriving DecidableEq, Repr

/-- The crest timebase (R51–R65, R604) and the crest now running. -/
structure CrestState where
  counter : Nat := 0
  period : Nat := 8000
  periodNext : Nat := 8000
  control : Nat := 0
  controlNext : Nat := 0
  aligned : Bool := false
  beacons : Bool := false
  offset : Nat := 0x80000000
  good : Nat := 0
  /-- Number of the first boundary of the beacon grid after the module's last boundary, and that of the latest beacon of the source; none
  before its first beacon (R53, R65). -/
  grid : Option Nat := none
  seen : Option Nat := none
  /-- By how many ns the module's last boundary lay behind the grid's boundary before it, and the grid's period, as beacons give them
  (R429, R430). -/
  phase : Nat := 0
  gridPeriod : Option Nat := none
  /-- The first locked boundary is still to come (R53). -/
  locking : Bool := false
  /-- A slip has taken the module off the grid, and no realign has brought it back (R60). -/
  slipped : Bool := false
  running : Option Running := none
  units : List CrestUnit := []
  deferred : Option Deferred := none
  cmds : List BoundaryCmd := []
  /-- A realign applied and waiting for its grid boundary: the target (R65). -/
  waiting : Option Nat := none
  waitDesc : Option DescRef := none
  /-- Inserted crests still to run before the next plan crest (R352): (segment, segment crest). -/
  inserts : List (Nat × Nat) := []
  /-- The running crest ends without its finish check (R396). -/
  aborted : Bool := false
  aborts : List DescRef := []
  /-- No plan crest advances: the module is not in RUN (R518). -/
  idle : Bool := false
  log : SMap Byte := []
  deriving DecidableEq, Repr

/-! ### Host attachment -/

/-- One ring (R449, R607). -/
structure Ring where
  base : Word := 0
  size : Nat := 6
  enable : Bool := false
  holdoff : Nat := 0
  irqAddr : Word := 0
  irqData : BitVec 32 := 0
  prod : Nat := 0
  cons : Nat := 0
  halted : Bool := false
  /-- Records reserved by fetched descriptors (R456), completion rings. -/
  reserved : Nat := 0
  /-- An interrupt word was written and the holdoff interval runs; a further one is due at its end (R457). -/
  holding : Bool := false
  due : Bool := false
  /-- The ring was enabled when the link went down: enabling the module again resets its indices (R488). -/
  relinked : Bool := false
  deriving DecidableEq, Repr

/-- A ring after device reset (R607). -/
def Ring.init : Ring := {}

/-- A norm-partial completion that waits for a free record (R456, R472), or any record not yet placed. -/
structure Waits where
  cring : Nat
  words : List Nat
  deriving DecidableEq, Repr

/-- The host's side of the link: what the adapter answers reads with and what the device has written (R447), ranges that
answer with an error, and the link (R444, R603). -/
structure HostLink where
  revision : Nat := 0
  reversed : Bool := false
  cap : Nat := 3
  windowOffset : Word := 0
  bytes : List Host.Cell := []
  errors : List (Nat × Nat) := []
  deriving DecidableEq, Repr

/-- Counts of one memory class of one die (R612). -/
structure MemCount where
  corrected : Nat
  uncorrectable : Nat
  unwritten : Nat
  deriving DecidableEq, Repr

/-- The reads of one kind of one instance in the running crest (R502, R503): source class, source, memory code, the address of the first
of them, and how many they are. -/
structure CrestReads where
  cls : Nat
  src : Nat
  kind : Nat
  addr : Nat
  count : Nat
  deriving DecidableEq, Repr

/-- The error-log block (R612) and the counts behind the memory events (R503). -/
structure ErrorLog where
  illegal : Bool := false
  losses : Bool := false
  illegalInfo : Nat := 0
  refusal : Nat := 0
  stale : Nat := 0
  holdDrops : Nat := 0
  linkWrites : Nat := 0
  linkErrors : Nat := 0
  dips : Nat := 0
  overVolts : Nat := 0
  eventsLost : Nat := 0
  /-- Events not written and not yet reported by an events-lost record (R474). -/
  lostUnreported : Nat := 0
  /-- Key 8 · die + class. -/
  mem : SMap MemCount := []
  /-- Key of an instance: corrections counted in it (R503). -/
  corrections : SMap Nat := []
  /-- Instances with uncorrectable and with unwritten reads in this crest, whose events 0x21 and 0x22 go out at its boundary with the
  crest's counts (R502, R503). -/
  told21 : List CrestReads := []
  told22 : List CrestReads := []
  /-- Key port: frame retries, fabric-CRC events. -/
  retries : SMap Nat := []
  crcs : SMap Nat := []
  deriving DecidableEq, Repr

/-- Array current control and batching wait (R146): the accepted values, and those in force since the last boundary. -/
structure ArrayControl where
  current : Nat
  batchWait : Nat
  currentInForce : Nat
  batchWaitInForce : Nat
  threshold : Nat
  thresholdInForce : Nat
  deriving DecidableEq, Repr

end Sys2Proof.Machine
end

