-- ==== Sys2Proof/Machine/SystemState.lean ====
section
/-! DEFINITION. The parts of the module's state at its edges: fabric, talus, snapshots, power, monitors, Cairn, sideband. -/

namespace Sys2Proof.Machine

/-! ### Fabric -/

/-- States of a port (R402), coded as PORT_STATUS codes them (R610). -/
inductive PortState where
  | disabled | detect | equalise | measure | active | fault
  deriving DecidableEq, Repr

/-- One fabric port (R402–R408, R610). -/
structure Port where
  state : PortState := .disabled
  /-- The cap as written, and as the last entry to DETECT took it (R403, R610). -/
  cap : Nat := 3
  capUsed : Nat := 3
  generation : Nat := 0
  /-- The partner advertised generation 2 as its highest. -/
  partner2 : Bool := false
  rtt : Nat := 0
  delay : Nat := 0
  /-- Sequence number of the next frame received good and in order (R408), whether a retry is asked for, and how many retries of that
  frame have failed one after another (R405). -/
  rxSeq : Nat := 0
  retrying : Bool := false
  fails : Nat := 0
  /-- Sequence of the last frame the partner acknowledged, and of the first it asked to be sent again. -/
  acked : Option Nat := none
  resend : Option Nat := none
  /-- Sequence number of the next new frame sent; the frames sent and not acknowledged, each with its packet data (the replay buffer of
  R405 and R408); the frames put on the line, resends among them, oldest first. -/
  txSeq : Nat := 0
  replay : List (Nat × List Byte) := []
  line : List Nat := []
  /-- Packets whose frames are not all acknowledged, each with the sequence number of its last frame. -/
  flying : List (Nat × Packet) := []
  /-- Credits of the partner's receive buffer in use, and credits returned to the partner, per VC (R415). -/
  inUse : List Nat := [0, 0, 0]
  returned : List Nat := [0, 0, 0]
  /-- Packet bytes received, not yet a whole packet (R408, R409). -/
  stream : List Byte := []
  /-- What a read of each 64-bit word of the packet that the L-die takes next from the receive buffer meets (unlisted: good, R489). -/
  marks : SMap Mark := []
  deriving DecidableEq, Repr

/-- A port after device reset. -/
def Port.init : Port := {}

/-- A control packet sent and not yet acknowledged (R407). -/
structure Unacked where
  seq : Nat
  dest : Nat
  sends : Nat
  packet : Packet
  deriving DecidableEq, Repr

/-- A packet held under R365 (R419): its L-die, whether it lies in the hold overflow area, the packet, and what a read of each of
its 64-bit words from its store meets (unlisted: good, R489). -/
structure Held where
  ldie : Nat
  overflow : Bool
  packet : Packet
  marks : SMap Mark := []
  deriving DecidableEq, Repr

/-- A received packet whose access waits: for a stack that is being poisoned (R493), or for a mesh path (R38). `all`: every payload
word is stained. It stands in the receive buffer of its port until its access is made, and its credits with it (R415); `marks` is what
reads of its words meet (R489). -/
structure Blocked where
  ldie : Nat
  packet : Packet
  all : Bool
  port : Option Nat := none
  marks : SMap Mark := []
  deriving DecidableEq, Repr

/-- A packet on its way out of an L-die that waits for an ACTIVE port or for credits (R415, R422). -/
structure Sending where
  ldie : Nat
  packet : Packet
  deriving DecidableEq, Repr

/-- Bytes of a transfer that have landed (R422), by sender and transfer id. -/
structure Landed where
  source : Nat
  transfer : Nat
  bytes : Nat
  deriving DecidableEq, Repr

/-- A value of the verdict tree that waits for its sibling (R386, R412). -/
structure VerdictNode where
  step : Nat
  epoch : Nat
  round : Nat
  level : Nat
  index : Nat
  stain : Bool
  nonfinite : Bool
  sums : List Nat
  deriving DecidableEq, Repr

/-- One packet of a collective's data (R431), of this module or received: collective, step, sending rank, position in the
sender's transfer, its bytes with stain. -/
structure CollPart where
  number : Nat
  step : Nat
  rank : Nat
  index : Nat
  bytes : List (Byte × Bool)
  deriving DecidableEq, Repr

/-- A barrier that is not released (R412): whether this module has arrived at it, and the arrivals counted here. The barrier of a
rank move has step all ones and the initiator's move number. -/
structure BarrierWait where
  number : Nat
  step : Nat
  arrived : Bool
  count : Nat
  /-- OR of the flag words of the arrivals counted. -/
  flags : Nat
  deriving DecidableEq, Repr

/-- A rank move that this module initiated (R438, R439): the descriptor, the rank, the address, the query number, and whether
the entry has been broadcast. -/
structure RankMoveRun where
  desc : DescRef
  rank : Nat
  addr : Nat
  query : Nat
  sent : Bool
  /-- The broadcast entry, the move number, and the crest counter at which this module applied it. -/
  entry : Nat
  number : Nat
  applied : Nat
  deriving DecidableEq, Repr

/-- The fabric side of the module (ch. 12). -/
structure Fabric where
  ports : SMap Port := []
  /-- Rank tables of L0–L3: 64-bit entries by rank, unlisted 0 (R421). -/
  ranks : List (SMap Nat) := [[], [], [], []]
  /-- A copy was cleared and no RANK_TABLE has been accepted since (R545, R611). -/
  stale : Bool := false
  pod : Nat := 0
  rack : Nat := 0
  resetAuthority : Nat := 0
  nextSeq : Nat := 0
  nextTransfer : Nat := 0
  unacked : List Unacked := []
  /-- (sender, sequence number) of acknowledged packets already acted on (R407). -/
  seen : List (Nat × Nat) := []
  held : List Held := []
  landed : List Landed := []
  /-- Packets to send that wait for an ACTIVE port or for credits, oldest first (R415, R422), and received packets whose access waits. -/
  waits : List Sending := []
  blocked : List Blocked := []
  nodes : List VerdictNode := []
  parts : List CollPart := []
  barriers : List BarrierWait := []
  /-- Verdicts whose epoch is newer than the module's (R387). -/
  verdicts : List Packet := []
  moves : List RankMoveRun := []
  moveNumber : Nat := 0
  queryNumber : Nat := 0
  deriving DecidableEq, Repr

/-- Collectives of the running crest that are not complete on this module: L-die, collective number (R431). -/
structure OpenCollective where
  ldie : Nat
  number : Nat
  step : Nat
  /-- This module has begun its part: its own data, where it sends any, has been handed to the L-die. -/
  begun : Bool := true
  /-- The transfers of its own data (R57): the first number, and the number after the last. -/
  sends : Nat × Nat := (0, 0)
  deriving DecidableEq, Repr

/-! ### Talus and snapshots -/

/-- A lend window (R347). -/
structure LendWindow where
  window : Nat
  base : Nat
  size : Nat
  borrower : Nat
  deriving DecidableEq, Repr

/-- A talus read of a FETCH whose reply has not arrived: M-die, entry, step, block, bytes, transfer. -/
structure TalusRead where
  mdie : Nat
  entry : Nat
  step : Nat
  block : Nat
  bytes : Nat
  transfer : Nat
  deriving DecidableEq, Repr

/-- A payload that a talus read has delivered to a FETCH. -/
structure TalusData where
  mdie : Nat
  block : Nat
  bytes : List (Byte × Bool)
  deriving DecidableEq, Repr

/-- Lending and borrowing (R347–R350). -/
structure Talus where
  windows : List LendWindow := []
  bound : Option Nat := none
  /-- Reads in progress as a borrower, and what they have delivered. -/
  reads : List TalusRead := []
  data : List TalusData := []
  deriving DecidableEq, Repr

/-- A SNAPSHOT (R510): its descriptor, the step, the target rank, the area, the bytes captured (none before the capture),
and whether the copy has gone out. -/
structure SnapRun where
  desc : DescRef
  step : Nat
  rank : Nat
  area : Nat
  image : Option (List (Byte × Bool))
  /-- The members' barrier for its boundary is released (R436). -/
  agreed : Bool := false
  /-- The copy has gone to the target, which it does once it can reach it (R38, R493). -/
  copied : Bool := false
  deriving DecidableEq, Repr

/-- A snapshot copy arriving into an area of this module (R511): sender, area base, data bytes landed, and the header that waits
for the last of them. -/
structure SnapArrive where
  source : Nat
  area : Nat
  landed : Nat
  header : Option (List (Byte × Bool))
  deriving DecidableEq, Repr

/-- The data sections that a RESTORE has staged for its boundary (R512). -/
structure Staged where
  desc : DescRef
  data : List (Byte × Bool)
  deriving DecidableEq, Repr

/-- Snapshots and restores in progress. -/
structure Snapshots where
  runs : List SnapRun := []
  arrivals : List SnapArrive := []
  staged : List Staged := []
  deriving DecidableEq, Repr

/-! ### Committed state beside the banks -/

/-- Committed and ochre bookkeeping (R375, R393, R394). Powers: key 64 · bank + group, value p1 + 2^32 · p2. -/
structure Store where
  bank : Nat := 0
  committed : Nat := 0
  epoch : Nat := 0
  powers : SMap Nat := []
  /-- Whether a shard map is loaded, and its entries of R460 by bucket tag (unlisted 0). -/
  shardMap : Bool := false
  shard : SMap Nat := []
  /-- A stain mark held for the next step submitted (R385). -/
  heldStain : Bool := false
  deriving DecidableEq, Repr

/-! ### Core map -/

/-- The core map (R22–R29): physical index of each logical core as written (key logical core; unlisted: the fuse default), the spares of
each C-die (key 2 · die + class), the indices marked failed (key die, a 34-bit set); the fuse record, the physical index left over by the
fuse default (key 2 · die + class; unlisted: every core good, R26, R27); the map in force since the last plan load (as `index`), and the
logical cores exchanged since then, in order (R28). -/
structure CoreMap where
  index : SMap (Option Nat) := []
  spare : SMap (Option Nat) := []
  failed : SMap Nat := []
  fuse : SMap (Option Nat) := []
  force : SMap (Option Nat) := []
  moved : List Nat := []
  deriving DecidableEq, Repr

/-! ### Hot plug, power, monitors -/

/-- Hot-plug states (R476), in the order of their codes. -/
inductive HotPlug where
  | absent | present | powered | linked | attested | ready | quiescing | released
  deriving DecidableEq, Repr

/-- Power states (R517), in the order of their codes (R460). -/
inductive PowerState where
  | run | ready | hold | rest | dormant
  deriving DecidableEq, Repr

/-- A supply dip in progress (R526): lowest sample, and the crests that it has overlapped, oldest first. -/
structure Dip where
  lowest : Nat
  crests : List Nat
  deriving DecidableEq, Repr

/-- Power and hot-plug (R476, R517–R531, R543). -/
structure Power where
  hot : HotPlug := .powered
  state : PowerState := .ready
  /-- A transition in progress: the target, and the POWER_STATE descriptor (R519). -/
  target : Option PowerState := none
  desc : Option DescRef := none
  quiesce : Option DescRef := none
  /-- Soft start runs; Cairn stage 5 has ended since the last power enable or device reset (R554). -/
  softStart : Bool := false
  booted : Bool := true
  /-- MODULE_ENABLE as last accepted (R607), and the supply and thermal control register (R538). -/
  enable : Bool := false
  supply : Nat := 0x55640230
  dip : Option Dip := none
  /-- Dies in reset, numbered as in the error log (R543, R612). -/
  resetting : List Nat := []
  /-- Stacks being poisoned (R493). -/
  poisoning : List Nat := []
  /-- Soft repairs (R506): (stack, bank) pairs whose spare row is in use. -/
  repairs : List (Nat × Nat) := []
  deriving DecidableEq, Repr

/-- What no 16-bit reading is: the value that a sensor of the carrier without a sample has in its map. -/
def unsampled : Nat := 2 ^ 16

/-- Sensors and warnings (R533, R534, R609). Readings by sensor: value and stamp; unlisted: not available. -/
structure Monitor where
  readings : SMap (Nat × Nat) := []
  junctionWarn : Bool := false
  junctionPeak : Nat := 0
  stackWarn : Bool := false
  stackPeak : Nat := 0
  /-- The coolant inlet and the flow have been out of range for 100 ms, and the samples out of range of each, one after another (R534). -/
  inletOut : Bool := false
  flowOut : Bool := false
  inletBad : Nat := 0
  flowBad : Nat := 0
  powerHigh : Bool := false
  /-- Junction sensors whose latest sample is at the trip level (R528). -/
  hot : List Nat := []
  /-- What the carrier measures of itself (R591, R609): input voltage, current and power, and sensors 61–64 (unlisted: not sampled yet). -/
  input : Nat := 0
  board : SMap Nat := []
  deriving DecidableEq, Repr

/-! ### Cairn and sideband -/

/-- An image in a firmware slot (R550, R551): its 4,096-byte header and its body. -/
structure Image where
  bytes : List Byte
  deriving DecidableEq, Repr

/-- The identity secret keys in Cairn SRAM (R556). -/
structure Identity where
  ed25519 : List Byte
  mldsa : List Byte
  deriving DecidableEq, Repr

/-- Work in Cairn's queue (R561): a mailbox command with its arguments, or a FIRMWARE descriptor. -/
inductive CairnWork where
  | mailbox (code : Nat) (args : List Nat)
  | firmware (d : DescRef)
  deriving DecidableEq, Repr

/-- Cairn (ch. 16) and its mailbox (R615). -/
structure Cairn where
  slotA : Option Image := none
  slotB : Option Image := none
  nextSlot : Nat := 0
  running : Option Nat := none
  runVersion : Nat := 0
  runTag : Nat := 0
  runKey : Nat := 0
  runBody : Nat := 0
  rollback : Nat := 0
  revoked : Nat := 0
  /-- Log entries as 512-bit numbers, the total count, the accumulator (R557, R558). -/
  log : List Nat := []
  logTotal : Nat := 0
  accumulator : Nat := 0
  lastReason : Nat := 0
  firewall : Nat := 0
  restarts : List Nat := [0, 0, 0, 0]
  queue : List CairnWork := []
  /-- The numerics control store of the C-dies and M-dies, and the write-locked code of the service control processors (R547, R554); none
  where this boot has installed none. -/
  numerics : Option (List Byte) := none
  code : Option (List Byte) := none
  /-- The keys that this boot has derived (R556). -/
  keys : Option Identity := none
  deriving DecidableEq, Repr

/-- The Cairn-mailbox block (R615). -/
structure Mailbox where
  code : Nat := 0
  args : SMap Nat := []
  busy : Bool := false
  result : Nat := 0
  count : Nat := 0
  deriving DecidableEq, Repr

/-- The trip record (R593). -/
structure TripRecord where
  valid : Bool := false
  cause : Nat := 0
  sensor : Nat := 0
  count : Nat := 0
  value : Nat := 0
  crest : Nat := 0
  dipStart : Nat := 0
  deriving DecidableEq, Repr

/-- The sideband controller (R577–R593). -/
structure Sideband where
  started : Bool := true
  silent : Bool := false
  slot : Nat := 0
  endpoint : Nat := 0
  alert : Bool := false
  /-- The response last sent, its bytes (R588). -/
  response : Option (List Byte) := none
  trip : TripRecord := {}
  /-- The pre-charge contact is made (R581). -/
  pchg : Bool := true
  deriving DecidableEq, Repr

/-- Ordering codes (R2). -/
inductive OrderingCode where
  | l576
  | l384
  deriving DecidableEq, Repr

end Sys2Proof.Machine
end

