-- ==== Sys2Proof/Machine/CairnLog.lean ====
section
/-! DEFINITION. Firmware images with their checks, the slots, what Cairn makes of an image that runs, and its measurement log (R550–R559). -/

namespace Sys2Proof.Machine

/-- A field of an image's header (R551). -/
def Image.field (i : Image) (lo w : Nat) : Nat := fld (leNat (i.bytes.take 256)) lo w

/-- Security version, numerics tag and key slot of an image (R551). -/
def Image.version (i : Image) : Nat := i.field 40 8
def Image.tag (i : Image) : Nat := i.field 64 16
def Image.key (i : Image) : Nat := i.field 48 8

/-- The body of an image and its numerics section, and their digests as the header gives them (R551). -/
def Image.body (i : Image) : List Byte := (i.bytes.drop 4096).take (i.field 96 32)
def Image.section (i : Image) : List Byte := (i.body.drop (i.field 128 32)).take (i.field 160 32)
def Image.bodyDigest (i : Image) : Nat := i.field 192 384
def Image.numericsDigest (i : Image) : Nat := i.field 576 384

/-- The vendor public keys of a key slot in the Cairn ROM (R553). -/
def vendorEd25519 (key : Nat) : List Byte := (List.range 32).map (Config.vendorEd25519Byte key)
def vendorMldsa (key : Nat) : List Byte := (List.range 1952).map (Config.vendorMldsaByte key)

/-- Whether a digest of an image's bytes is not the one in its header (R551, R552). -/
def badDigests (i : Image) : Bool := leNat (sha3_384 i.body) != i.bodyDigest || leNat (sha3_384 i.section) != i.numericsDigest

/-- Why an image is rejected by its header and bytes (R551, R552): reason 1 to 6; none where it passes. The header comes first. -/
def imageReason (revoked length : Nat) (bytes : List Byte) : Option Nat :=
  let h := leNat (bytes.take 4096)
  let i : Image := ⟨bytes⟩
  let n := i.field 96 32
  let off := i.field 128 32
  let len := i.field 160 32
  let signedPart := bytes.take 256
  firstOf [
    (fld h 0 32 != 0x57464E4B || fld h 32 8 != 1 || fld h 80 16 != 0xB0 || fld h 56 8 != 0 || fld h 960 1088 != 0 ||
      fld h (8 * 3629) (8 * 467) != 0, 1),
    (decide (64 < i.version) || i.tag == 0 || n % 4096 != 0 || n == 0 || decide (16773120 < n) || 4096 + n != length ||
      off % 4096 != 0 || len == 0 || decide (65536 < len) || decide (n < off + len), 2),
    (decide (3 < i.key) || bit revoked i.key, 3),
    (!Config.ed25519Verify (vendorEd25519 i.key) signedPart ((bytes.drop 256).take 64), 4),
    (!Config.mldsaVerify (vendorMldsa i.key) signedPart [] ((bytes.drop 320).take 3309), 5),
    (badDigests i, 6)]

/-- Every check of an image (R552): its own, and the anti-rollback counter. -/
def imageCheck (revoked rollback length : Nat) (bytes : List Byte) : Option Nat :=
  match imageReason revoked length bytes with
  | some r => some r
  | none => if (Image.mk bytes).version < rollback then some 7 else none

/-- The image of a slot. -/
def Cairn.slot (k : Cairn) (n : Nat) : Option Image := if n = 0 then k.slotA else k.slotB

/-- A slot replaced. -/
def Cairn.setSlot (k : Cairn) (n : Nat) (i : Option Image) : Cairn := if n = 0 then { k with slotA := i } else { k with slotB := i }

/-- Why the image of a slot is rejected when it is checked again (R552). `read` is what a read of a slot's bytes gives; an invalid slot has no
header. -/
def Cairn.slotReason (k : Cairn) (n : Nat) (read : List Byte → Option (List Byte)) : Option Nat :=
  match k.slot n with
  | none => some (if (read []).isNone then 8 else 1)
  | some i => match read i.bytes with
    | none => some 8
    | some bytes => imageCheck k.revoked k.rollback i.bytes.length bytes

/-- A log entry as a 512-bit number (R557): type, security version, numerics tag, sequence, extra, and the digest as a 384-bit number. -/
def logEntry (type version tag seq extra digest : Nat) : Nat :=
  type + (version % 256) <<< 8 + (tag % 65536) <<< 16 + (seq % 2 ^ 32) <<< 32 + (extra % 2 ^ 64) <<< 64 + (digest % 2 ^ 384) <<< 128

/-- An entry appended: it extends the accumulator, and the first 1,024 are stored (R558). -/
def Cairn.append (k : Cairn) (type version tag extra digest : Nat) : Cairn :=
  let e := logEntry type version tag k.logTotal extra digest
  { k with log := if k.log.length < 1024 then k.log ++ [e] else k.log,
           logTotal := k.logTotal + 1,
           accumulator := leNat (sha3_384 (leBytes 48 k.accumulator ++ leBytes 64 e)) }

/-- The bytes of an ASCII text. -/
def ascii (t : String) : List Byte := t.toList.map fun c => BitVec.ofNat 8 c.toNat

/-- A seed derived from the device secret and a label (R556). -/
def secretSeed (label : String) : List Byte := shake256 (leBytes 32 Config.deviceSecret.toNat ++ ascii label)

/-- The Ed25519 secret key and the seed of the ML-DSA-65 key pair (R556). -/
def ed25519Secret : List Byte := secretSeed "KN9250 identity Ed25519"
def mldsaSeed : List Byte := secretSeed "KN9250 identity ML-DSA-65"

/-- Stage 2 of a boot (R554, R556): the identity keys are derived, and entry 0 opens the log. -/
def Cairn.start (k : Cairn) : Cairn :=
  { k.append 0 0 0 0 Config.romDigest.toNat with
    keys := some ⟨ed25519Secret, (List.range 4032).map (Config.mldsaSecretByte mldsaSeed)⟩ }

/-- Stage 5 of a boot (R554): the log entries of the image that runs, its numerics section installed, its code write-locked. -/
def Cairn.run (k : Cairn) (slot : Nat) (i : Image) : Cairn :=
  let k := (k.append 1 i.version i.tag 0 i.bodyDigest).append 2 i.version i.tag 0 i.numericsDigest
  { k with running := some slot, runVersion := i.version, runTag := i.tag, runKey := i.key, runBody := i.bodyDigest, nextSlot := slot,
           numerics := some i.section, code := some i.body }

/-- Cairn after the boot of a module as delivered: the service image of slot A runs (R550, R554). -/
def Cairn.delivered : Cairn := ({ slotA := some ⟨Config.factoryImage⟩ } : Cairn).start.run 0 ⟨Config.factoryImage⟩

end Sys2Proof.Machine
end

