-- ==== Sys2Proof/Machine/State.lean ====
section
/-! DEFINITION. The module's state as plain data, why a command may stop, and the state right after a device reset. -/

namespace Sys2Proof.Machine

/-- Why a step faults. Nothing in the spec makes the block stop in an error: every error the spec names is a completion, an
event or a bit, which are next states. -/
inductive Fault where
  /-- Raised by nothing: no rule stops the block. Safe. -/
  | none
  deriving DecidableEq, Repr

/-- Why a command has no next state. -/
inductive Refusal where
  /-- The row has no meaning yet. Safe. -/
  | notModelled (mnemonic : String)
  /-- Raised by the core and M-die rows for a word that the plan load refuses (R220, R381): no unit ever receives it. Safe. -/
  | refusedAtLoad (status : Nat)
  /-- Raised for an ill-formed command (Instr.wf): an M-die, ring, die or sensor that the module does not have, or a packet, descriptor
  or request of another row. The module never receives it under this row. Safe. -/
  | illFormed
  deriving DecidableEq, Repr

/-- The state of one KN9250 module. -/
structure State where
  /-- Commands that wait, first in, first out. -/
  pending : List Instr := []
  /-- The model's own: the next index of a free value (Config.staleHit). -/
  free : Nat := 0
  /-- The model's own: the number of the next operation that a core's unit begins (R496). -/
  serial : Nat := 0
  code : OrderingCode := .l576
  cores : SMap CoreState := []
  /-- What the physical core left over in each class holds (key 2 · C-die + class); its memories stand in mem and tiles beyond the logical
  cores' (R18, R26). -/
  spares : SMap CoreState := []
  coreMap : CoreMap := {}
  /-- Device memory by canonical device address: HBM3 by its stack view (R41, R42). -/
  mem : Memory := {}
  /-- Tile buffers: key (8 · core + buffer) · 65536 + offset (R182). -/
  tiles : Memory := {}
  mdies : SMap MDie := []
  /-- The merge buffers of the M-dies, oldest entry first (R496). The bytes and the stain stand in mem at once. -/
  merge : List MergeEntry := []
  /-- Words of the device's own tables whose codeword does not read as good (R500). -/
  tables : List TableMark := []
  plan : Option Plan := none
  scales : List ScaleEntry := []
  acts : List ActRun := []
  folds : List Fold := []
  streaks : List Streak := []
  store : Store := {}
  steps : List StepRec := []
  crest : CrestState := {}
  collectives : List OpenCollective := []
  arrays : ArrayControl := ⟨0x0004000400201000, 1500, 0x0004000400201000, 1500, 256, 256⟩
  rings : SMap Ring := []
  /-- Descriptors fetched and not yet checked, and accepted and not yet completed, oldest first (R455, R456). -/
  fetched : List DescRef := []
  descs : List DescRef := []
  /-- Completions of no descriptor's place that wait for a free record (R456). -/
  waits : List Waits := []
  /-- Hot-plug and trip events held before the event ring is enabled (R622), as 32-byte records without phase. -/
  heldEvents : List Nat := []
  /-- The event ring has been enabled since the last device reset (R622). -/
  eventsOpen : Bool := false
  /-- The next submission ring in round-robin order (R454). -/
  nextRing : Nat := 0
  link : HostLink := {}
  err : ErrorLog := {}
  fabric : Fabric := {}
  /-- Packets handed to the L-dies to send, oldest first, whatever has become of them on their links. -/
  sent : List Packet := []
  talus : Talus := {}
  snaps : Snapshots := {}
  /-- Mesh links out of service, each as its two die numbers (R37), and whether the mesh is partitioned (R38). -/
  meshDown : List (Nat × Nat) := []
  partitioned : Bool := false
  power : Power := {}
  monitor : Monitor := {}
  cairn : Cairn := {}
  mailbox : Mailbox := {}
  side : Sideband := {}
  deriving DecidableEq, Repr

/-- The held record of the hot-plug event of an entry to POWERED from PRESENT (R474, R476, R622): code 0x19, H-die, no step. -/
def poweredEvent : Nat := 0x19 + 4 <<< 16 + (2 ^ 64 - 1) <<< 96 + (2 + 1 <<< 4) <<< 160

/-- The module right after the device reset of an entry to POWERED from PRESENT (R543, R545, R601): hot-plug POWERED, power READY,
every register at its reset value, memory poisoned, the stacks still being swept. The service image in slot A runs, as Cairn's boot
leaves it (R554; its bytes are open), SB_ALERT_N is low since the result of GET_STATE has changed (R592), and every rank-table copy waits for
a RANK_TABLE (R545). -/
def State.reset : State :=
  { cairn := Cairn.delivered,
    power := { poisoning := List.range 12 },
    side := { alert := true },
    fabric := { stale := true },
    heldEvents := [poweredEvent] }

end Sys2Proof.Machine
end

