-- ==== Sys2Proof/Machine/Ops.lean ====
section
/-! DEFINITION. The named operations over the state that every command's meaning is built from: cores, host memory, records and
events, device memory by device address, the verdict contribution. -/

namespace Sys2Proof.Machine

/-! ### Cores and M-dies -/

/-- A logical core. -/
def State.core (s : State) (c : Nat) : CoreState := SMap.get CoreState.init s.cores c

/-- The state with one core replaced. -/
def State.setCore (s : State) (c : Nat) (k : CoreState) : State := { s with cores := SMap.set CoreState.init s.cores c k }

/-- The state with one core changed. -/
def State.onCore (s : State) (c : Nat) (f : CoreState → CoreState) : State := s.setCore c (f (s.core c))

/-- An M-die. -/
def State.mdie (s : State) (m : Nat) : MDie := SMap.get MDie.init s.mdies m

/-- The state with one M-die replaced. -/
def State.setMdie (s : State) (m : Nat) (k : MDie) : State := { s with mdies := SMap.set MDie.init s.mdies m k }

/-- A ring of the ring block: 0–15 submission, 16–19 completion, 20 event (R607). -/
def State.ring (s : State) (i : Nat) : Ring := SMap.get Ring.init s.rings i

/-- The state with one ring replaced. -/
def State.setRing (s : State) (i : Nat) (r : Ring) : State := { s with rings := SMap.set Ring.init s.rings i r }

/-- A fabric port. -/
def State.port (s : State) (p : Nat) : Port := SMap.get Port.init s.fabric.ports p

/-- The state with one port replaced. -/
def State.setPort (s : State) (p : Nat) (k : Port) : State :=
  { s with fabric := { s.fabric with ports := SMap.set Port.init s.fabric.ports p k } }

/-- Code of a hot-plug state (R476, R602). -/
def HotPlug.code : HotPlug → Nat
  | .absent => 0 | .present => 1 | .powered => 2 | .linked => 3 | .attested => 4 | .ready => 5 | .quiescing => 6 | .released => 7

/-- Code of a power state (R460). -/
def PowerState.code : PowerState → Nat
  | .run => 0 | .ready => 1 | .hold => 2 | .rest => 3 | .dormant => 4

/-- The Bexfold link is up from LINKED on (R476). -/
def State.linkUp (s : State) : Bool := decide (3 ≤ s.power.hot.code)

/-- A fabric address is illegal where its slot is 34–63 (R420). -/
def badAddress (a : Nat) : Bool := decide (33 < a % 64)

/-- Saturating increment of a count of w bits (R597). -/
def satAdd (w a b : Nat) : Nat := min (a + b) (2 ^ w - 1)

/-! ### Host memory (R447) -/

/-- A byte of host memory as the adapter answers a read: unlisted bytes read 0 (model's choice, see the assumption log). -/
def State.hostByte (s : State) (a : Nat) : Byte :=
  match s.link.bytes.find? fun c => c.1 == a % 2 ^ 64 with
  | some c => c.2
  | none => 0

/-- Whether a read of host bytes [a, a + n) completes with an error: the link is down (R487) or the adapter answers so. -/
def State.hostError (s : State) (a n : Nat) : Bool :=
  !s.linkUp || s.link.errors.any fun (lo, hi) => decide (lo < a + n) && decide (a < hi)

/-- Bytes of host memory. -/
def State.hostBytes (s : State) (a n : Nat) : List Byte := (List.range n).map fun i => s.hostByte (a + i)

/-- A little-endian number in host memory. -/
def State.hostNum (s : State) (a n : Nat) : Nat := leNat (s.hostBytes a n)

/-- Consecutive bytes put into a canonical cell list whose unlisted bytes read 0. -/
def putCells (cells : List Host.Cell) (a : Nat) (bs : List Byte) : List Host.Cell :=
  cells.filter (fun c => decide (c.1 < a)) ++ ((List.range bs.length).map fun i => (a + i, bs.getD i 0)).filter (fun c => c.2 != 0) ++
    cells.filter (fun c => decide (a + bs.length ≤ c.1))

/-- A host-bound write, completion or event that is not made because the link is down (R487). -/
def State.lostWrite (s : State) : State :=
  { s with err := { s.err with linkWrites := satAdd 32 s.err.linkWrites 1, losses := true } }

/-- A write of host-bound bytes (R447); while the link is down it is not made and is counted (R487). -/
def State.hostWrite (s : State) (a : Nat) (bs : List Byte) : State :=
  if s.linkUp then { s with link := { s.link with bytes := putCells s.link.bytes (a % 2 ^ 64) bs } } else s.lostWrite

/-! ### Records and events (R457, R470, R474) -/

/-- Whether a ring of records has no free record. -/
def Ring.full (r : Ring) : Bool := decide (2 ^ r.size ≤ (r.prod + 2 ^ 32 - r.cons) % 2 ^ 32)

/-- The interrupt of a completion or event ring after a record (R457). -/
def State.interrupt (s : State) (i : Nat) : State :=
  let r := s.ring i
  if r.holding then s.setRing i { r with due := true }
  else (s.setRing i { r with holding := decide (r.holdoff ≠ 0) }).hostWrite r.irqAddr.toNat (leBytes 4 r.irqData.toNat)

/-- One 32-byte record with its phase bit at the producer index of ring i, and the interrupt (R457). -/
def State.putRecord (s : State) (i body : Nat) : State :=
  if !s.linkUp then s.lostWrite
  else
    let r := s.ring i
    let phase := if bit r.prod r.size then 0 else 1
    let at' := r.base.toNat + r.prod % 2 ^ r.size * 32
    ((s.hostWrite at' (leBytes 32 (setFld body 8 1 phase))).setRing i { r with prod := (r.prod + 1) % 2 ^ 32 }).interrupt i

/-- An event not written (R474). -/
def State.loseEvent (s : State) : State :=
  { s with err := { s.err with eventsLost := satAdd 32 s.err.eventsLost 1, lostUnreported := satAdd 32 s.err.lostUnreported 1 } }

/-- The event ring is ring 20. -/
def eventRing : Nat := 20

/-- Header of an event record (R474): code, source class, source, crest counter and step. -/
def eventRecord (s : State) (code cls src step detail : Nat) : Nat :=
  code + cls <<< 16 + (src % 4096) <<< 20 + (s.crest.counter % 2 ^ 64) <<< 32 + (step % 2 ^ 64) <<< 96 + (detail % 2 ^ 96) <<< 160

/-- A record put on the event ring where it has room, else lost (R474). -/
def State.putEvent (s : State) (body : Nat) : State :=
  if !(s.ring eventRing).enable || (s.ring eventRing).full || s.power.hot == .released then s.loseEvent
  else s.putRecord eventRing body

/-- The events-lost record that goes before the next event written (R474). -/
def State.reportLost (s : State) : State :=
  if s.err.lostUnreported == 0 || !(s.ring eventRing).enable || (s.ring eventRing).full || !s.linkUp || s.power.hot == .released then s
  else { s.putRecord eventRing (eventRecord s 0x18 7 eventRing (2 ^ 64 - 1) s.err.lostUnreported) with
    err := { s.err with lostUnreported := 0 } }

/-- All ones: no step is concerned (R474). -/
def noStep : Nat := 2 ^ 64 - 1

/-- An event: code, source class, source, step and detail (bits from 160 on) (R474). Hot-plug and trip events wait for the event
ring and the link, at most 8 of them (R476, R622). -/
def State.event (s : State) (code cls src step detail : Nat) : State :=
  let rec' := eventRecord s code cls src step detail
  if (code == 0x19 || code == 0x38) && (!s.eventsOpen || !s.linkUp || s.power.hot == .released) then
    if s.heldEvents.length < 8 then { s with heldEvents := s.heldEvents ++ [rec'] } else s.loseEvent
  else s.reportLost.putEvent rec'

/-- A device read that the adapter completes with an error (R447): the link event with the host address, and the count. -/
def State.linkError (s : State) (cls src step a : Nat) : State :=
  State.event { s with err := { s.err with linkErrors := satAdd 32 s.err.linkErrors 1 } } 0x0B cls src step (a % 2 ^ 64)

/-- The held events written in the order in which they arose, after an events-lost record where events were lost, each with the crest
counter when it is written (R474, R622). -/
def State.flushHeld (s : State) : State :=
  if !(s.ring eventRing).enable || !s.linkUp then s
  else
    let s' := s.heldEvents.foldl (fun s e => s.putEvent (setFld e 32 64 s.crest.counter)) s.reportLost
    { s' with heldEvents := [] }

/-- A 32-byte completion record of a descriptor (R470), without its phase. -/
def completionRecord (s : State) (d : DescRef) (status extra detail : Nat) : Nat :=
  status + (d.ring % 16) <<< 9 + extra + d.kind <<< 24 + d.tag <<< 32 + (s.ring d.ring).cons <<< 64 + (detail % 2 ^ 160) <<< 96

/-- Bits [23:13] of a completion record (R470): supersede, void causes, flags, transfer. -/
def completionExtra (supersede : Bool) (voids flags : Nat) (transfer : Bool) : Nat :=
  b2n supersede <<< 13 + (voids % 16) <<< 14 + (flags % 32) <<< 18 + b2n transfer <<< 23

/-- The completion of a descriptor: its reserved record is written, and it is no longer in progress (R456, R459). -/
def State.completeWith (s : State) (d : DescRef) (status extra detail : Nat) : State :=
  let i := 16 + d.cring % 4
  let r := s.ring i
  let s := { (s.setRing i { r with reserved := r.reserved - 1 }) with descs := s.descs.erase d, fetched := s.fetched.erase d }
  if (s.ring i).enable then s.putRecord i (completionRecord s d status extra detail) else s

/-- A completion that carries a status only. -/
def State.complete (s : State) (d : DescRef) (status : Nat) : State := s.completeWith d status 0 0

/-- The illegal-write bit with its first record (R598, R613, R616). -/
def State.illegalWrite (s : State) (doorbell : Bool) (offset cause : Nat) : State :=
  if s.err.illegal then s
  else { s with err := { s.err with illegal := true, illegalInfo := offset % 2 ^ 17 + b2n doorbell <<< 17 + cause <<< 18 } }

/-! ### The verdict contribution (R385) -/

/-- Whether a step is in flight (R69). -/
def StepRec.flying (r : StepRec) : Bool := decide (r.phase = .inFlight)

/-- A submitted step by its number: a resubmitted step goes before the discarded one of its number. -/
def State.step? (s : State) (n : Nat) : Option StepRec :=
  match s.steps.find? fun r => r.number == n && r.flying with
  | some r => some r
  | none => s.steps.find? fun r => r.number == n

/-- The steps with one changed. -/
def onStep (n : Nat) (f : StepRec → StepRec) (l : List StepRec) : List StepRec :=
  if l.any fun r => r.number == n && r.flying then l.map fun r => if r.number == n && r.flying then f r else r
  else l.map fun r => if r.number == n then f r else r

/-- The state with one submitted step changed. -/
def State.updStep (s : State) (n : Nat) (f : StepRec → StepRec) : State := { s with steps := onStep n f s.steps }

/-- Whether a step was stopped by an ABORT and has not yet been discarded (R396). -/
def State.stopped (s : State) (n : Nat) : Bool := match s.step? n with
  | some r => r.flying && r.aborting
  | none => false

/-- The steps in flight, oldest first. -/
def State.flight (s : State) : List StepRec := s.steps.filter StepRec.flying

/-- A stain mark on the contribution of step n: after its hand-over on the step after it, and where that is not
submitted on the next step that is (R385). -/
def State.markStain (s : State) (n : Nat) : State :=
  let m := match s.step? n with
    | some r => if r.flying && !r.first.handed then n else n + 1
    | none => n + 1
  match s.step? m with
  | some r => if r.flying then s.updStep m fun r => { r with first := { r.first with stain := true } }
    else { s with store := { s.store with heldStain := true } }
  | none => { s with store := { s.store with heldStain := true } }

/-- A stain mark on the oldest step in flight (R385). -/
def State.markOldest (s : State) : State :=
  match s.flight with
  | r :: _ => s.markStain r.number
  | [] => { s with store := { s.store with heldStain := true } }

/-- A non-finite mark on the first contribution of step n (R112, R371, R380). -/
def State.markNonfinite (s : State) (n : Nat) : State :=
  s.updStep n fun r => { r with first := { r.first with nonfinite := true } }

/-- Flags of an M-die or L-die engine for step n (R225). -/
def State.raiseStep (s : State) (n f : Nat) : State := s.updStep n fun r => { r with flags := r.flags ||| f }

/-! ### The device address map (R40–R48) -/

/-- Bytes of one HBM3 stack (R2, R40). -/
def OrderingCode.stackBytes : OrderingCode → Nat
  | .l576 => 48 * 2 ^ 30
  | .l384 => 32 * 2 ^ 30

/-- The regions of the address map, each with its instance (R40). -/
inductive Region where
  | hbm
  | stack (m : Nat)
  | staging (m : Nat)
  | store (c : Nat)
  | acc (c : Nat)
  | fabric (i : Nat)
  | host
  deriving DecidableEq, Repr

/-- Base addresses of the address map (R40). -/
def stackView : Nat := 0x010000000000
def stagingBase : Nat := 0x020000000000
def storeBase : Nat := 0x030000000000
def accBase : Nat := 0x031000000000
def fabricBase : Nat := 0x400000000000
def hostBase : Nat := 0x800000000000

/-- The region of one address; none where it is reserved or unpopulated (R40, R48). -/
def regionOf (code : OrderingCode) (a : Nat) : Option Region :=
  if a < stackView then (if a < 12 * code.stackBytes then some .hbm else none)
  else if a < 0x01C000000000 then
    let o := a - stackView
    if o % 2 ^ 36 < code.stackBytes then some (.stack (o / 2 ^ 36)) else none
  else if a < stagingBase then none
  else if a < 0x020030000000 then some (.staging ((a - stagingBase) / 2 ^ 26))
  else if a < storeBase then none
  else if a < 0x030080000000 then some (.store ((a - storeBase) / 2 ^ 23))
  else if a < accBase then none
  else if a < 0x031020000000 then some (.acc ((a - accBase) / 2 ^ 21))
  else if a < fabricBase then none
  else if a < hostBase then some (.fabric ((a - fabricBase) / 2 ^ 40))
  else if a < 2 ^ 48 then some .host
  else none

/-- The canonical address of a byte: an interleaved address becomes its stack-view address (R41, R42). -/
def canon (a : Nat) : Nat :=
  if a < stackView then stackView + (a / 4096 % 12) * 2 ^ 36 + a / 4096 / 12 * 4096 + a % 4096 else a

/-- The unit of stain at an address: 4 bytes in accumulator memory, 8 elsewhere (R489). -/
def granuleAt (a : Nat) : Nat := if decide (accBase ≤ a) && decide (a < 0x031020000000) then 4 else 8

/-- The part of an interleaved range that lies in stack m, as stack offsets [lo, hi); empty where lo = hi. -/
def interleavedSpan (a n m : Nat) : Nat × Nat :=
  let b0 := a / 4096
  let b1 := (a + n - 1) / 4096
  let first := b0 + (m + 12 - b0 % 12) % 12
  let last := b1 - (b1 % 12 + 12 - m) % 12
  if n = 0 ∨ b1 < first ∨ b1 < (b1 % 12 + 12 - m) % 12 ∨ last < first then (0, 0)
  else ((first / 12) * 4096 + (if first = b0 then a % 4096 else 0),
        (last / 12) * 4096 + (if last = b1 then (a + n - 1) % 4096 + 1 else 4096))

/-- The stack offsets that a range of either HBM3 view touches, as (stack, lo, hi). -/
def hbmSpans (a n : Nat) : List (Nat × Nat × Nat) :=
  if a < stackView then
    ((List.range 12).map fun m => (m, interleavedSpan a n m)).filter fun (_, lo, hi) => decide (lo < hi)
  else [((a - stackView) / 2 ^ 36, (a - stackView) % 2 ^ 36, (a - stackView) % 2 ^ 36 + n)]

/-- The shadow regions, the plan store included, as (stack, lo, hi) (R45, R374, R419, R467). -/
def shadowSpans (p : Plan) : List (Nat × Nat × Nat) :=
  let perDie := (p.work.areas.zipIdx).flatMap fun (ar, m) =>
    [(m, ar.storeBase % 2 ^ 36, ar.storeBase % 2 ^ 36 + 3 * ar.bankSize), (m, ar.spillBase % 2 ^ 36, ar.spillBase % 2 ^ 36 + ar.spillSize)]
  perDie ++ p.work.holdAreas.flatMap (fun a => hbmSpans a (64 * 2 ^ 20)) ++ hbmSpans p.work.storeBase p.work.storeSize

/-- Whether two lists of spans meet. -/
def spansMeet (xs ys : List (Nat × Nat × Nat)) : Bool :=
  xs.any fun (m, lo, hi) => ys.any fun (k, lo', hi') => m == k && decide (lo < hi') && decide (lo' < hi)

/-- Start of the engine area of an M-die's staging SRAM; the whole SRAM is program area while no plan is loaded (R45, R373). -/
def State.engineStart (s : State) (m : Nat) : Nat :=
  match s.plan with
  | some p => match p.work.areas[m]? with
    | some ar => ar.engineStart
    | none => 2 ^ 26
  | none => 2 ^ 26

/-- Whether a range of device memory may be reached by a core, by COPY or FILL, or by the fabric (R45, R48, R467): it lies in one
populated region and touches neither an engine area nor a shadow region. The spec does not say whether a range that runs from one instance to
the next inside one row of R40 (core store n to n + 1, accumulator n to n + 1, staging m to m + 1) spans two regions: here it does, and is
refused with OUT_OF_RANGE (DESIGN CHOICE, log 70). -/
def State.reachable (s : State) (a n : Nat) : Bool :=
  match regionOf s.code a, regionOf s.code (a + n - 1) with
  | some r, some r' =>
    r == r' && (match r with
      | .staging m => decide ((a - stagingBase) % 2 ^ 26 + n ≤ s.engineStart m)
      | .hbm => (match s.plan with
        | some p => !spansMeet (hbmSpans a n) (shadowSpans p)
        | none => true)
      | .stack _ => (match s.plan with
        | some p => !spansMeet (hbmSpans a n) (shadowSpans p)
        | none => true)
      | .fabric _ => false
      | _ => true)
  | _, _ => false

/-! ### Device memory by device address -/

/-- A byte of device memory with the stain of its granule. -/
def State.loadByte (s : State) (a : Nat) : Byte × Bool :=
  let c := canon a
  (s.mem.byte c, (s.mem.seen (granuleAt c) (c - c % granuleAt c)).stained)

/-- Bytes of device memory with their stain. -/
def State.load (s : State) (a n : Nat) : List (Byte × Bool) := (List.range n).map fun i => s.loadByte (a + i)

/-- A little-endian number of device memory. -/
def State.num (s : State) (a n : Nat) : Nat := leNat ((s.load a n).map Prod.fst)

/-- Whether any byte of a range reads stained. -/
def State.stainedAt (s : State) (a n : Nat) : Bool := (s.load a n).any Prod.snd

/-- Pieces of an interleaved write at 4 KiB boundaries: (canonical address, bytes). -/
def pieces : Nat → Nat → List (Byte × Bool) → List (Nat × List (Byte × Bool))
  | 0, _, _ => []
  | _, _, [] => []
  | fuel + 1, a, bs =>
    let k := 4096 - a % 4096
    (canon a, bs.take k) :: pieces fuel (a + k) (bs.drop k)

/-- One operation's write of consecutive bytes of device memory, each with its stain (R154, R495). -/
def State.save (s : State) (a : Nat) (bs : List (Byte × Bool)) : State :=
  let parts := if a < stackView then pieces (bs.length / 4096 + 2) a bs else [(a, bs)]
  { s with mem := parts.foldl (fun m (c, part) => m.write (granuleAt c) c part) s.mem }

/-- A little-endian number written to n bytes with one stain. -/
def State.saveNum (s : State) (a n x : Nat) (stain : Bool) : State := s.save a ((leBytes n x).map fun b => (b, stain))

/-- The bytes and marks of a FILL of a range with a pattern (R494). -/
def State.fillBytes (s : State) (a n : Nat) (pat : Word) : State :=
  if a < 0x01C000000000 then
    let put (m : Memory) (sp : Nat × Nat × Nat) : Memory :=
      m.fill (stackView + sp.1 * 2 ^ 36 + sp.2.1) (stackView + sp.1 * 2 ^ 36 + sp.2.2) pat
    { s with mem := (hbmSpans a n).foldl put s.mem }
  else { s with mem := s.mem.fill a (a + n) pat }

/-- Core-store byte address of an offset. -/
def storeAddr (c o : Nat) : Nat := storeBase + c * 2 ^ 23 + o

/-- Address of lane j of accumulator row r (R43). -/
def accAddr (c r j : Nat) : Nat := accBase + c * 2 ^ 21 + r * 512 + j * 4

/-- Bytes of a core store (R31). -/
def storeBytes : Nat := 2 ^ 23

/-- An accumulator lane: its bits and stain (R153). -/
def State.acc (s : State) (c r j : Nat) : Nat × Bool := (s.num (accAddr c r j) 4, s.stainedAt (accAddr c r j) 4)

/-- An accumulator lane written whole (R154). -/
def State.setAcc (s : State) (c r j x : Nat) (stain : Bool) : State := s.saveNum (accAddr c r j) 4 x stain

/-- Where the memories of the spare k of R26 (2 · C-die + class) stand: beyond every device address. Its tile buffers have the keys of a
core 256 + k. -/
def spareStore (k : Nat) : Nat := 2 ^ 48 + k * 2 ^ 23
def spareAcc (k : Nat) : Nat := 2 ^ 49 + k * 2 ^ 21

/-- Key of a byte of a tile buffer (R182). -/
def tileAddr (c t o : Nat) : Nat := (8 * c + t) * 65536 + o

/-- Bytes of a tile buffer with their stain (R182: one stain bit per 32-bit word). -/
def State.tileLoad (s : State) (c t o n : Nat) : List (Byte × Bool) :=
  (List.range n).map fun i =>
    let a := tileAddr c t (o + i)
    (s.tiles.byte a, (s.tiles.seen 4 (a - a % 4)).stained)

/-- One operation's write into a tile buffer (R182). -/
def State.tileSave (s : State) (c t o : Nat) (bs : List (Byte × Bool)) : State :=
  { s with tiles := s.tiles.write 4 (tileAddr c t o) bs }

/-- The number that bytes with stain hold, and whether any is stained. -/
def numOf (bs : List (Byte × Bool)) : Nat × Bool := (leNat (bs.map Prod.fst), bs.any Prod.snd)

/-! ### Memory-error counts and events (R490, R502, R503) -/

/-- The class of a logical core's position: 0 general, 1 matrix-vector (R22). -/
def coreClass (n : Nat) : Nat := if n % 32 < 30 then 0 else 1

/-- The physical index that the fuse default leaves over in a class of a C-die (R26): the last of the class where every core is good. -/
def State.fuseSpare (s : State) (die cls : Nat) : Nat := (SMap.get none s.coreMap.fuse (2 * die + cls)).getD (if cls = 0 then 30 else 33)

/-- The fuse default of a logical core (R26): the good cores of its class in ascending physical index. -/
def State.fuseIndex (s : State) (n : Nat) : Nat :=
  let p := if coreClass n = 0 then n % 32 else n % 32 + 1
  if p < s.fuseSpare (n / 32) (coreClass n) then p else p + 1

/-- Physical index of a logical core in the map as written (R28). -/
def State.coreIndex (s : State) (n : Nat) : Nat := (SMap.get none s.coreMap.index n).getD (s.fuseIndex n)

/-- Physical index of a spare in the map as written: of the general or the matrix-vector class of a C-die. -/
def State.spareIndex (s : State) (die cls : Nat) : Nat := (SMap.get none s.coreMap.spare (2 * die + cls)).getD (s.fuseSpare die cls)

/-- Number of the physical core that a logical core runs on: the map in force since the last plan load (R24, R28). -/
def State.physicalCore (s : State) (n : Nat) : Nat := 34 * (n / 32) + (SMap.get none s.coreMap.force n).getD (s.fuseIndex n)

/-- Die number of the error log (R612), memory class of R502, source class and source of the event, and the address within the
memory, of a canonical device address. -/
def instanceOf (s : State) (a : Nat) : Nat × Nat × Nat × Nat × Nat :=
  let physical := s.physicalCore
  match regionOf s.code a with
  | some (.stack m) => (8 + m, 0, 6, m, (a - stackView) % 2 ^ 36)
  | some (.staging m) => (8 + m, 1, 2, m, (a - stagingBase) % 2 ^ 26)
  | some (.store c) => (c / 32, 2, 1, physical c, (a - storeBase) % 2 ^ 23)
  | some (.acc c) => (c / 32, 3, 1, physical c, (a - accBase) % 2 ^ 21)
  | _ => (24, 0, 4, 0, 0)

/-- Number of an instance: one memory of one core, die or stack (R503). -/
def instanceKey (cls src k : Nat) : Nat := (cls * 4096 + src) * 8 + k

/-- One more read of an instance in the running crest. -/
def tally (l : List CrestReads) (cls src k addr : Nat) : List CrestReads :=
  if l.any fun x => x.cls == cls && x.src == src && x.kind == k
  then l.map fun x => if x.cls == cls && x.src == src && x.kind == k then { x with count := x.count + 1 } else x
  else l ++ [⟨cls, src, k, addr, 1⟩]

/-- Events 0x21 and 0x22 of the crest that ends, one for each instance with such a read, with the crest's count (R502, R503). -/
def State.tellReads (s : State) : State :=
  let say (code : Nat) (s : State) (x : CrestReads) : State :=
    s.event code x.cls x.src noStep (x.kind + x.addr <<< 4 + (x.count % 2 ^ 32) <<< 52)
  let s1 := s.err.told22.foldl (say 0x22) (s.err.told21.foldl (say 0x21) s)
  { s1 with err := { s1.err with told21 := [], told22 := [] } }

/-- Whether the service control processors run (R554): released at stage 5 of a boot that has accepted an image, in soft start too. -/
def State.processors (s : State) : Bool :=
  s.cairn.running.isSome && s.power.booted && (decide (2 ≤ s.power.hot.code) || (s.power.hot == .present && s.power.softStart))

/-- The count of one read of a codeword with a mark (R503), and the event of a correction: duties of processor 3 (R570). -/
def State.countRead (s : State) (die k cls src addr : Nat) (mark : Mark) : State :=
  if !s.processors then s else
  let key := instanceKey cls src k
  let c := SMap.get ⟨0, 0, 0⟩ s.err.mem (8 * die + k)
  let put (c' : MemCount) : State := { s with err := { s.err with mem := SMap.set ⟨0, 0, 0⟩ s.err.mem (8 * die + k) c' } }
  let detail (n : Nat) : Nat := k + (addr % 2 ^ 48) <<< 4 + (n % 2 ^ 32) <<< 52
  match mark with
  | .correctable =>
    let n := SMap.get 0 s.err.corrections key + 1
    let s := put { c with corrected := satAdd 22 c.corrected 1 }
    let s := { s with err := { s.err with corrections := SMap.set 0 s.err.corrections key n } }
    if n == 2 ^ Nat.log2 n then s.event 0x20 cls src noStep (detail n) else s
  | .uncorrectable =>
    let s := put { c with uncorrectable := satAdd 21 c.uncorrectable 1 }
    { s with err := { s.err with told21 := tally s.err.told21 cls src k (addr % 2 ^ 48) } }
  | .sweep =>
    let s := put { c with unwritten := satAdd 21 c.unwritten 1 }
    { s with err := { s.err with told22 := tally s.err.told22 cls src k (addr % 2 ^ 48) } }
  | _ => s

/-- The count and the event of one read of a codeword of device memory with a mark: nothing for a good or a carried one (R490). -/
def State.noteCodeword (s : State) (w : Nat) (mark : Mark) : State :=
  match mark with
  | .clean => s
  | .carried => s
  | mark => let (die, k, cls, src, addr) := instanceOf s w
            s.countRead die k cls src addr mark

/-- An entry leaves the merge buffer: the one read-modify-write of its word (R496). -/
def State.retireEntry (s : State) (e : MergeEntry) : State := ({ s with merge := s.merge.erase e } : State).noteCodeword e.word e.mark

/-- The entries of a kind leave the merge buffers, oldest first. -/
def State.retireWhere (s : State) (p : MergeEntry → Bool) : State := (s.merge.filter p).foldl State.retireEntry s

/-- Whether a canonical address lies in a range of either HBM3 view or of another region. -/
def inRange (a n c : Nat) : Bool :=
  let x := if a < stackView then ((c - stackView) % 2 ^ 36 / 4096 * 12 + (c - stackView) / 2 ^ 36) * 4096 + c % 4096 else c
  decide (a ≤ x) && decide (x < a + n) && (decide (stackView ≤ a) || decide (stackView ≤ c ∧ c < stackView + 12 * 2 ^ 36))

/-- The counts and events of one read of a device range (R490, R503): each codeword once, after the merge entries of its words (R496). -/
def State.noteRead (s : State) (a n : Nat) : State :=
  let s := s.retireWhere fun e => inRange (a - a % 8) (n + a % 8) e.word
  ((granules 8 a n).map canon).foldl (fun s w => s.noteCodeword w (s.mem.codeword (granuleAt w) w)) s

/-- The counts and events of one read of a tile buffer. -/
def State.noteTile (s : State) (c t o n : Nat) : State :=
  let (die, _, cls, src, _) := instanceOf s (storeAddr c 0)
  (granules 8 (tileAddr c t o) n).foldl (fun s g =>
    match s.tiles.codeword 4 g with
    | .clean => s
    | .carried => s
    | mark => s.countRead die 4 cls src (g % (8 * 65536)) mark) s

/-- The counts of one fetch from a core's instruction memory (R489, R503): the two words of instruction i of its block. -/
def State.noteFetch (s : State) (c i : Nat) : State :=
  let k := s.core c
  [k.fetchAt i, k.fetchAt i + 8].foldl (fun s w => match k.imem.markAt w with
    | .clean => s
    | .carried => s
    | mark => s.countRead (c / 32) 5 1 (s.physicalCore c) w mark) s

/-- An entry appended to the measurement log of the module (R558). -/
def State.appendLog (s : State) (type version tag extra digest : Nat) : State :=
  { s with cairn := s.cairn.append type version tag extra digest }

/-! ### The device's own tables (R500) -/

/-- The marks of the table words in a list. -/
def State.tableMarks (s : State) (ws : List TableWord) : List TableMark := s.tables.filter fun t => ws.contains t.word

/-- Whether one of the table words of a list reads as uncorrectable. -/
def State.tableBad (s : State) (ws : List TableWord) : Bool := (s.tableMarks ws).any fun t => t.mark.stained

/-- The counts and events of one use of table words: memory class 1 of their M-die (R502, R503). -/
def State.noteTables (s : State) (ws : List TableWord) : State :=
  (s.tableMarks ws).foldl (fun s t => s.countRead (8 + t.mdie) 1 2 t.mdie t.offset t.mark) s

/-- An operation that uses table words: where one reads as uncorrectable it is not performed, and the contribution of the oldest step in
flight is marked (R500). The word stays poisoned. -/
def State.useTables (s : State) (ws : List TableWord) (f : State → State) : State :=
  if s.tableBad ws then (s.noteTables ws).markOldest else f (s.noteTables ws)

/-- Table words written anew. -/
def State.rewriteTables (s : State) (p : TableWord → Bool) : State := { s with tables := s.tables.filter fun t => !p t.word }

def TableWord.isRank : TableWord → Bool
  | .rank _ _ => true
  | _ => false

def TableWord.isScale : TableWord → Bool
  | .scale _ => true
  | _ => false

def TableWord.isShard : TableWord → Bool
  | .shard _ => true
  | _ => false

/-- The ledger entries that a ledger-selection register names (R235), as table words. -/
def ledgerWords (sel : Nat) : List TableWord :=
  (if bit sel 12 then [.scale (fld sel 0 12)] else []) ++ (if bit sel 28 then [.scale (fld sel 16 12)] else [])

/-- The 64-bit words that a range covers in part. -/
def edgeWords (a n : Nat) : List Nat :=
  if n = 0 then []
  else ((if a % 8 ≠ 0 then [a - a % 8] else []) ++ (if (a + n) % 8 ≠ 0 then [a + n - (a + n) % 8] else [])).dedup

/-- Entries of an M-die's merge buffer (R496). -/
def mergeEntries : Nat := 64

/-- Who writes, as a merge entry notes it: 0 a command that is over with it, 1 to 256 the operation that a core now begins, by its number;
257 + m the word that M-die m runs; from 2 ^ 80 on a fabric transfer. -/
def State.writerKey (s : State) (owner : Nat) : Nat := if 0 < owner ∧ owner ≤ 256 then owner + 512 * (s.serial + 1) else owner

/-- Writer of a program word of an M-die, and of a transfer from a module. -/
def mdieWriter (m : Nat) : Nat := 257 + m
def transferWriter (source transfer : Nat) : Nat := 2 ^ 80 + source * 2 ^ 32 + transfer

/-- The merge entries of a writer that has completed retire (R496). -/
def State.retireOwned (s : State) (key : Nat) : State := s.retireWhere fun e => e.owners.contains key

/-- A narrow write of a word by an owner (R154, R495, R496): an HBM3 or staging word joins the merge buffer, where a full buffer's oldest
entry makes room; a word of a core store or of accumulator memory is read at once. -/
def State.narrowWord (s : State) (owner w : Nat) : State :=
  let c := canon w
  let join (m : Nat) : State :=
    let key := s.writerKey owner
    if s.merge.any fun e => e.word == c then
      { s with merge := s.merge.map fun e => if e.word == c then { e with owners := e.owners.filter (fun o => o != key) ++ [key] } else e }
    else
      let mine := s.merge.filter fun e => e.mdie == m
      let s := match mine with
        | e :: _ => if mergeEntries ≤ mine.length then s.retireEntry e else s
        | [] => s
      { s with merge := s.merge ++ [⟨m, c, s.mem.codeword (granuleAt c) c, [key]⟩] }
  match regionOf s.code c with
  | some (.stack m) => join m
  | some (.staging m) => join m
  | some (.store _) => s.noteCodeword c (s.mem.codeword (granuleAt c) c)
  | some (.acc _) => s.noteCodeword c (s.mem.codeword (granuleAt c) c)
  | _ => s

/-- What a write of a range reads and retires before it: the merge entries of the words it covers whole, and the words it covers in part. -/
def State.noteWrite (s : State) (owner a n : Nat) : State :=
  let lo := (a + 7) / 8 * 8
  let s := s.retireWhere fun e => inRange lo ((a + n) / 8 * 8 - lo) e.word
  (edgeWords a n).foldl (fun s w => s.narrowWord owner w) s

/-- FILL of a range with a pattern (R494): a full write of its words, before which their merge entries retire (R496). -/
def State.fillRange (s : State) (a n : Nat) (pat : Word) : State := (s.noteWrite 0 a n).fillBytes a n pat

/-- One operation's write of device memory with the reads that its narrow parts make (R154, R495, R496, R503). What no instruction in
progress owns retires at once, since its transfer is over. -/
def State.put (s : State) (owner a : Nat) (bs : List (Byte × Bool)) : State :=
  let s := (s.noteWrite owner a bs.length).save a bs
  if owner = 0 then s.retireOwned 0 else s

/-- A little-endian number written so to n bytes with one stain. -/
def State.putNum (s : State) (owner a n x : Nat) (stain : Bool) : State := s.put owner a ((leBytes n x).map fun b => (b, stain))

/-- One operation's write of a tile buffer with the reads of the words that it covers in part (R154, R182). -/
def State.putTile (s : State) (c t o : Nat) (bs : List (Byte × Bool)) : State :=
  let s := (edgeWords (tileAddr c t o) bs.length).foldl (fun s w => s.noteTile c t (w - tileAddr c t 0) 8) s
  s.tileSave c t o bs

/-! ### Instructions at issue -/

/-- One instruction as its core issues it: the logical core, the word, the step of R224, the plan crest and the index that a
refusal reports (R221). -/
structure Issue where
  core : Nat
  word : Nat
  step : Nat
  crest : Nat
  index : Nat
  deriving DecidableEq, Repr

/-- Why an instruction is refused at issue: the status of R222, and whether a stained operand caused it (R221). -/
structure IssueRefusal where
  status : Nat
  stain : Bool
  deriving DecidableEq, Repr

/-- BAD_FIELD marked as caused by a stain (R222). -/
def byStain : IssueRefusal := ⟨stBadField, true⟩
def badField : IssueRefusal := ⟨stBadField, false⟩
def outOfRange : IssueRefusal := ⟨stOutOfRange, false⟩
def misaligned : IssueRefusal := ⟨stMisaligned, false⟩
def wrongState : IssueRefusal := ⟨stWrongState, false⟩

/-- Slot register of an instruction: the value and the stain of the scalar register that slot i names. -/
def Issue.reg (x : Issue) (s : State) (i : Nat) : Nat := (s.core x.core).sval (Word.slot x.word i)
def Issue.regStain (x : Issue) (s : State) (i : Nat) : Bool := (s.core x.core).sstain (Word.slot x.word i)

/-- What a refusal at issue does (R221): the event, the first refusal's record, the step's contribution stained. -/
def State.refuseIssue (s : State) (x : Issue) (r : IssueRefusal) : State :=
  let s := s.event 0x03 0 x.core x.step ((x.crest % 2 ^ 32) + (x.index % 2 ^ 13) <<< 32 + r.status <<< 48 + b2n r.stain <<< 56)
  let s := if bit s.err.refusal 30 then s
    else { s with err := { s.err with refusal := x.core + r.status <<< 8 + b2n r.stain <<< 16 + (x.index % 2 ^ 13) <<< 17 +
      1 <<< 30 + (x.crest % 2 ^ 32) <<< 32 } }
  s.markStain x.step

/-- Flags raised by an instruction into the bank of its step (R225). -/
def State.raise (s : State) (x : Issue) (f : Nat) : State := if f = 0 then s else s.onCore x.core fun c => c.raise x.step f

/-- An increment of token k of core c, saturating with its event (R226). -/
def State.addToken (s : State) (c k n : Nat) : State :=
  let t := (s.core c).token k + n
  if 65535 < t then (s.onCore c fun c' => c'.setToken k 65535).event 0x05 0 c noStep k
  else s.onCore c fun c' => c'.setToken k t

/-- The sig increment of an instruction word (R217, R229). -/
def State.signal (s : State) (w : Nat) : State := if Word.sig w then s.addToken (Word.sigCore w) (Word.sigToken w) 1 else s

/-! ### The plan at run time -/

/-- The plan seed; 0 while no plan is loaded. -/
def State.seed (s : State) : Nat := match s.plan with
  | some p => p.seed
  | none => 0

/-- Whether a step is a priming step (R626). -/
def State.priming (s : State) (n : Nat) : Bool := match s.step? n with
  | some r => r.prime
  | none => false

/-- The step of the block a core runs (R224); 0 while no plan crest runs. -/
def State.blockStep (s : State) : Nat := match s.crest.running with
  | some r => r.step
  | none => 0

/-- Whether the crest that runs carries only the tail of the step before. -/
def State.tailOnly (s : State) : Bool := match s.crest.running with
  | some r => r.tail
  | none => false

/-- The plan crest that a refusal reports: all ones while none runs (R604). -/
def State.planCrest (s : State) : Nat := match s.crest.running with
  | some r => if s.crest.idle then 2 ^ 32 - 1 else r.crest
  | none => 2 ^ 32 - 1

/-- The step before, modulo 2⁶⁴. -/
def stepBefore (n : Nat) : Nat := (n + 2 ^ 64 - 1) % 2 ^ 64

/-- Whether the step before a step is submitted and neither committed nor ended (R363, R384). -/
def State.predecessorOpen (s : State) (n : Nat) : Bool := s.flight.any fun r => r.number == stepBefore n

/-- Exponent k of a scale-ledger entry for a step (R112, R159): an unprimed entry in a priming step contributes 0. -/
def State.ledgerK (s : State) (entry step : Nat) : Int :=
  match s.scales[entry]? with
  | some e => if !e.primed && s.priming step then 0 else if step % 2 == 0 then e.kEven else e.kOdd
  | none => 0

/-- The adjustment q of a ledger-selection register for a pass (R159, R235). -/
def State.ledgerQ (s : State) (sel step : Nat) : Int :=
  -((if bit sel 12 then s.ledgerK (fld sel 0 12) step else 0) + (if bit sel 28 then s.ledgerK (fld sel 16 12) step else 0))

/-- Whether a ledger selection names an undeclared entry (R235). -/
def State.badLedger (s : State) (sel : Nat) : Bool :=
  (bit sel 12 && decide (s.scales.length ≤ fld sel 0 12)) || (bit sel 28 && decide (s.scales.length ≤ fld sel 16 12))

/-- A contribution to the pending amax of an entry (R112). -/
def State.amax (s : State) (entry : Nat) (mag : Nat) (stain : Bool) : State :=
  { s with scales := s.scales.modify entry fun e =>
    let worse := match f32 mag, f32 e.pending with
      | .nan _, _ => true
      | _, .nan _ => false
      | a, b => decide (b.cmp a < 0)
    { e with pending := if worse then mag else e.pending, pendStain := e.pendStain || stain } }

end Sys2Proof.Machine
end

