-- ==== Sys2Proof/Machine/ArrayUnit.lean ====
section
/-! DEFINITION. The cell array, its batching queue and the matrix-vector path (R120–R171, R234–R239): what LOADSET, PASS, ENQ,
FLUSH and MATVEC check at issue and do. -/

namespace Sys2Proof.Machine

/-! ### Operands in the core store -/

/-- Bits of one stored element of an array operand; format 0 names one bfloat16 half of a split pair (R237). -/
def arrayBits (fmt : Nat) : Nat := if fmt == 0 then 16 else elemBits fmt

/-- Bytes of n consecutive elements. -/
def arrayBytes (fmt n : Nat) : Nat := (arrayBits fmt * n + 7) / 8

/-- Elements packed from bit 0 of a run of bytes (R92), each stained where any of its bytes is. -/
def unpackElems (bits n : Nat) (bs : List (Byte × Bool)) : List (Nat × Bool) :=
  let v := leNat (bs.map Prod.fst)
  (List.range n).map fun i =>
    (fld v (bits * i) bits, (bs.getD (bits * i / 8) (0, false)).2 || (bs.getD ((bits * i + bits - 1) / 8) (0, false)).2)

/-- One stored row of n elements of a core's store, with the E8M0 code of each element's block; a stained scale stains its
elements, a plain operand has code 0x7F (R126). -/
def State.storeRow (s : State) (c addr fmt n : Nat) (scales : Option Nat) : List Elem :=
  let es := unpackElems (arrayBits fmt) n (s.load (storeAddr c addr) (arrayBytes fmt n))
  let ss := match scales with
    | some a => s.load (storeAddr c a) ((n + 31) / 32)
    | none => []
  es.zipIdx.map fun ((e, t), i) =>
    let sc := ss.getD (i / 32) (0x7F, false)
    ⟨e, sc.1.toNat, t || sc.2⟩

/-- Rows of an operand at a pitch; the scales of row r begin at r · stride of the scale array (R234, R239). -/
def State.storeRows (s : State) (c addr pitch rows fmt n : Nat) (scales : Option Nat) (stride : Nat) : List (List Elem) :=
  (List.range rows).map fun r => s.storeRow c (addr + r * pitch) fmt n (scales.map fun a => a + r * stride)

/-- The counts of the reads that those rows make (R503). -/
def State.noteRows (s : State) (c addr pitch rows fmt n : Nat) (scales : Option Nat) (stride : Nat) : State :=
  (List.range rows).foldl (fun s r =>
    let s := s.noteRead (storeAddr c (addr + r * pitch)) (arrayBytes fmt n)
    match scales with
    | some a => s.noteRead (storeAddr c (a + r * stride)) ((n + 31) / 32)
    | none => s) s

/-- The transpose of rows of n elements. -/
def transposeElems (n : Nat) (rows : List (List Elem)) : List (List Elem) :=
  (List.range n).map fun j => rows.map fun r => r.getD j ⟨0, 0x7F, true⟩

/-- Whether a row-major operand runs beyond the core store (R238). -/
def rowsBeyond (addr pitch rows fmt n : Nat) : Bool := decide (storeBytes < addr + (rows - 1) * pitch + arrayBytes fmt n)

/-- Whether a scale array of 4 bytes per row runs beyond the core store (R238). -/
def scalesBeyond (addr rows : Nat) : Bool := decide (storeBytes < addr + 4 * rows)

/-! ### The column sum and the accumulating add -/

/-- The exact value of an element delivered to a cell (R87, R90, R237). -/
def Elem.val (fmt : Nat) (e : Elem) : Val := decodeScaled (if fmt == 0 then 2 else fmt) e.code e.scale

/-- Whether a value is a zero. -/
def Val.isZero : Val → Bool
  | .zero _ => true
  | _ => false

/-- The product of one cell (R124); in parts 1 and 2 of a binary32 split a zero lo factor gives +0 (R125). -/
def cellProduct (part sf tf : Nat) (a b : Elem) : Val :=
  let x := a.val sf
  let y := b.val tf
  if (part == 1 && x.isZero) || (part == 2 && y.isZero) then .zero false else x.mul y

/-- The block result of one column for one vector (R158–R162): its rounding to binary32 and its stain (R127). -/
def columnResult (part : Nat) (q : Int) (sf tf : Nat) (as bs : List Elem) : Rounded × Bool :=
  let sum : Val := match List.zipWith (cellProduct part sf tf) as bs with
    | [] => Val.zero false
    | p :: ps => ps.foldl Val.add p
  (toF32 (sum.scale q), (List.zipWith (fun a b => a.stain || b.stain) as bs).any id)

/-- What an accumulating add leaves in one lane. -/
structure AddResult where
  hi : Nat
  lo : Nat
  stain : Bool
  flags : Nat
  deriving DecidableEq, Repr

/-- The sum of R166 in binary32, rounded by a mode. -/
def sumF32 (mode : Rounding) (v : Val) : Rounded := match v with
  | .nan _ => toF32 v
  | v => fpB32.convert mode false v

/-- Compensated add (R168): the new high and low words. -/
def compensated (hi lo : Nat) (b : Val) : Rounded × Rounded :=
  let t := (f32 hi).add b
  let s := sumF32 .nearest t
  if nonfiniteF32 s.code then (s, { code := 0 })
  else (s, sumF32 .nearest ((f32 lo).add (t.add (f32 s.code).negate)))

/-- One block result into one lane (R163–R170): the mode, the start bit, the 32-bit word of stochastic rounding, the stored
words with their stain. No flag where the word written is stained (R89). -/
def accumulate (mode : Nat) (start : Bool) (u : Nat) (hi lo : Nat × Bool) (b : Rounded) (bStain : Bool) : AddResult :=
  if start then ⟨b.code, 0, bStain, b.flags bStain⟩
  else if mode == 1 then
    let (h, l) := compensated hi.1 lo.1 (f32 b.code)
    let t := hi.2 || lo.2 || bStain
    ⟨h.code, l.code, t, h.flags t ||| l.flags t ||| b.flags t⟩
  else
    let r := sumF32 (if mode == 2 then .stochastic u else .nearest) ((f32 hi.1).add (f32 b.code))
    let t := hi.2 || bStain
    ⟨r.code, 0, t, r.flags t ||| b.flags t⟩

/-- A row of binary32 words with their stain as bytes. -/
def laneBytes (xs : List (Nat × Bool)) : List (Byte × Bool) := xs.flatMap fun (x, t) => (leBytes 4 x).map fun b => (b, t)

/-- Block results added into lanes 0, 1, … of one accumulator row: mode, start bit, pass index, step (R163–R171). -/
def State.addRow (s : State) (c step row mode : Nat) (start : Bool) (index : Nat) (bs : List (Rounded × Bool)) : State :=
  let s := if start then s else s.noteRead (accAddr c row 0) (4 * bs.length)
  let s := if start || mode != 1 then s else s.noteRead (accAddr c (row + 128) 0) (4 * bs.length)
  let rs := bs.zipIdx.map fun ((b, t), j) =>
    let lo := if mode == 1 then s.acc c (row + 128) j else (0, false)
    accumulate mode start (philoxLane s.seed 0 c row j index step) (s.acc c row j) lo b t
  let s := s.put (c + 1) (accAddr c row 0) (laneBytes (rs.map fun r => (r.hi, r.stain)))
  let s := if mode == 1 then s.put (c + 1) (accAddr c (row + 128) 0) (laneBytes (rs.map fun r => (r.lo, !start && r.stain))) else s
  let f := rs.foldl (fun f r => f ||| r.flags) 0
  if f = 0 then s else s.onCore c fun k => k.raise step f

/-- One streaming vector through a set into its accumulator row; columns from 128 on go to the second row (R120, R123). -/
def State.streamVector (s : State) (c step part : Nat) (q : Int) (fmt : Nat) (set : StatSet) (v : List Elem)
    (row second mode : Nat) (start : Bool) (index : Nat) : State :=
  let bs := set.used.map fun col => columnResult part q fmt set.fmt v col
  let s := s.addRow c step row mode start index (bs.take 128)
  if bs.length ≤ 128 then s else s.addRow c step second mode start index (bs.drop 128)

/-! ### Sets and the batching queue -/

/-- Streaming vectors of K elements from the core store (R234): orientation 0 keeps a vector's elements together. -/
def State.streamRows (s : State) (c addr : Nat) (scales : Option Nat) (fmt orient pitch m k : Nat) : List (List Elem) :=
  if orient == 0 then s.storeRows c addr pitch m fmt k scales 4
  else transposeElems m (s.storeRows c addr pitch k fmt m none 4)

/-- The counts of those reads. -/
def State.noteStream (s : State) (c addr : Nat) (scales : Option Nat) (fmt orient pitch m k : Nat) : State :=
  if orient == 0 then s.noteRows c addr pitch m fmt k scales 4 else s.noteRows c addr pitch k fmt m none 4

/-- The scale address of an operand, where its format is MX. -/
def scaleOf (fmt addr : Nat) : Option Nat := if isMX fmt then some addr else none

/-- The array-parity events of a set that a pass uses (R127): one for each element whose parity fails, by its cell. -/
def State.tellParity (s : State) (c : Nat) (set : StatSet) : State :=
  set.parity.foldl (fun s (i, j) => s.event 0x06 1 (s.physicalCore c) noStep (i % 128 + (j % 128) <<< 8)) s

/-- One batched entry as its pass streams it (R147, R149). -/
def State.streamEntry (s : State) (c : Nat) (set : StatSet) (e : BatchEntry) : State :=
  let s := s.noteStream c e.addr (scaleOf e.fmt e.scaleAddr) e.fmt e.orient e.pitch 1 set.k
  (s.streamRows c e.addr (scaleOf e.fmt e.scaleAddr) e.fmt e.orient e.pitch 1 set.k).foldl
    (fun s v => s.streamVector c e.step 0 (s.ledgerQ e.ledger e.step) e.fmt set v e.row 0 e.mode e.start e.index) s

/-- The active and the loaded set as they stand once the queued batch has issued (R130, R148). -/
def CoreState.afterBatch (k : CoreState) : Option StatSet × Option StatSet :=
  if k.batch.any BatchEntry.take then (k.loading, none) else (k.active, k.loading)

/-- The batching queue issues as one pass (R148): entries in enqueue order; their ENQs are no longer queued. -/
def State.issueBatch (s : State) (c : Nat) : State :=
  let k := s.core c
  if k.batch.isEmpty then s
  else
    let (act, load) := k.afterBatch
    let s := s.setCore c { k with active := act, loading := load, batch := [], ops := k.ops.map fun p => { p with queued := false } }
    match act with
    | some set => k.batch.foldl (fun s e => s.streamEntry c set e) (s.tellParity c set)
    | none => s

/-! ### LOADSET -/

def Word.fmt (w : Nat) : Nat := fld w 57 4
def Word.orient (w : Nat) : Nat := fld w 61 1
def Word.pitch (w : Nat) : Nat := 64 * (fld w 62 6 + 1)

/-- Whether the slot registers i of a list are stained. -/
def Issue.anyStain (x : Issue) (s : State) (slots : List Nat) : Bool := slots.any fun i => x.regStain s i

/-- Slots that an array operand reads: the scale register only where the format is MX (R220). -/
def operandSlots (fmt addr scale : Nat) : List Nat := if isMX fmt then [addr, scale] else [addr]

/-- Issue checks of LOADSET (R222, R238). -/
def checkLoadset (x : Issue) (s : State) : Option IssueRefusal :=
  let w := x.word
  let k := fld w 68 7 + 1
  let n := fld w 75 8 + 1
  let rows := if Word.orient w == 0 then k else n
  let cols := if Word.orient w == 0 then n else k
  let mx := isMX (Word.fmt w)
  firstOf [
    (x.anyStain s (operandSlots (Word.fmt w) 0 1), byStain),
    (rowsBeyond (x.reg s 0) (Word.pitch w) rows (Word.fmt w) cols || (mx && scalesBeyond (x.reg s 1) rows), outOfRange),
    (x.reg s 0 % 64 != 0 || (mx && x.reg s 1 % 4 != 0), misaligned)]

/-- LOADSET (R130): the loading slot takes the set; a batch whose entries name the loaded set issues first (R148). -/
def applyLoadset (x : Issue) (s : State) : State :=
  let w := x.word
  let c := x.core
  let fmt := Word.fmt w
  let k := fld w 68 7 + 1
  let n := fld w 75 8 + 1
  let s := if (s.core c).batch.any BatchEntry.take then s.issueBatch c else s
  let addr := x.reg s 0
  let sc := scaleOf fmt (x.reg s 1)
  let rows := if Word.orient w == 0 then k else n
  let cols := if Word.orient w == 0 then n else k
  let stored := s.storeRows c addr (Word.pitch w) rows fmt cols sc 4
  let s := s.noteRows c addr (Word.pitch w) rows fmt cols sc 4
  s.onCore c fun kc => { kc with loading := some { fmt := fmt, k := k, n := n, cols := if Word.orient w == 0 then transposeElems n stored else stored } }

/-! ### PASS and ENQ -/

/-- What a streaming format and a set refuse together with BAD_FIELD (R120, R122, R237): split halves only with each other; an
MX stream needs K a multiple of 32; N above 128 needs both MXFP4. -/
def badPair (fmt : Nat) (set : StatSet) : Bool :=
  ((fmt == 0) != (set.fmt == 0)) || (isMX fmt && set.k % 32 != 0) || (decide (128 < set.n) && !(fmt == 9 && set.fmt == 9))

/-- Whether two row ranges of m rows overlap (R123). -/
def rowsOverlap (a b m : Nat) : Bool := decide (a < b + m) && decide (b < a + m)

/-- Whether the streaming operand, or its scales, runs beyond the core store. -/
def streamBeyond (x : Issue) (s : State) (m k : Nat) : Bool :=
  let w := x.word
  let rows := if Word.orient w == 0 then m else k
  rowsBeyond (x.reg s 0) (Word.pitch w) rows (Word.fmt w) (if Word.orient w == 0 then k else m) ||
    (isMX (Word.fmt w) && scalesBeyond (x.reg s 1) rows)

/-- Whether the streaming operand or its scales begin off their boundary (R238). -/
def streamMisaligned (x : Issue) (s : State) : Bool :=
  x.reg s 0 % 64 != 0 || (isMX (Word.fmt x.word) && x.reg s 1 % 4 != 0)

/-- The set that a PASS takes, as it stands after the queued batch (R148, R238). -/
def passSet (x : Issue) (s : State) : Option StatSet :=
  let (act, load) := (s.core x.core).afterBatch
  if bit x.word 104 then load else act

/-- The second row range of a pair-mode PASS refuses with BAD_FIELD (R123, R167). -/
def badSecond (w : Nat) (set : StatSet) : Bool :=
  let m := fld w 68 12 + 1
  decide (128 < set.n) && (rowsOverlap (fld w 80 12) (fld w 92 12) m || (fld w 105 2 == 1 && !rowsInEvenHandle (fld w 92 12) m))

/-- Issue checks of PASS (R121–R123, R222, R235–R238). -/
def checkPass (x : Issue) (s : State) : Option IssueRefusal :=
  let w := x.word
  let m := fld w 68 12 + 1
  let set := passSet x s
  let k := match set with
    | some t => t.k
    | none => 1
  firstOf [
    (x.anyStain s (operandSlots (Word.fmt w) 0 1 ++ [2, 3]), byStain),
    (s.badLedger (x.reg s 3) || (match set with
      | some t => badPair (Word.fmt w) t || badSecond w t
      | none => false), badField),
    (streamBeyond x s m k || (match set with
      | some t => decide (128 < t.n) && decide (4096 < fld w 92 12 + m)
      | none => false), outOfRange),
    (streamMisaligned x s, misaligned),
    (set.isNone, wrongState)]

/-- PASS (R120): the queued batch issues, the set is taken, and every vector streams into its row. Part p of a binary32 split
uses pass index C + p − 1 (R237). -/
def applyPass (x : Issue) (s : State) : State :=
  let w := x.word
  let c := x.core
  let s := s.issueBatch c
  let kc := s.core c
  let part := fld w 108 2
  let m := fld w 68 12 + 1
  let index := (x.reg s 2 + (part - 1)) % 2 ^ 32
  let q := s.ledgerQ (x.reg s 3) x.step
  let sc := scaleOf (Word.fmt w) (x.reg s 1)
  match (if bit w 104 then kc.loading else kc.active) with
  | none => s
  | some set =>
    let s := if bit w 104 then s.setCore c { kc with active := some set, loading := none } else s
    let vs := s.streamRows c (x.reg s 0) sc (Word.fmt w) (Word.orient w) (Word.pitch w) m set.k
    let s := (s.noteStream c (x.reg s 0) sc (Word.fmt w) (Word.orient w) (Word.pitch w) m set.k).tellParity c set
    vs.zipIdx.foldl (fun s (v, i) =>
      s.streamVector c x.step part q (Word.fmt w) set v (fld w 80 12 + i) (fld w 92 12 + i) (fld w 105 2) (bit w 107) index) s

/-- Whether an ENQ's set or format differs from that of the queued entries (R148). -/
def enqDiffers (w : Nat) (k : CoreState) : Bool :=
  k.batch.any fun e => e.take != bit w 80 || e.fmt != Word.fmt w

/-- The set that an ENQ names. -/
def enqSet (x : Issue) (s : State) : Option StatSet :=
  let k := s.core x.core
  let (act, load) := if enqDiffers x.word k then k.afterBatch else (k.active, k.loading)
  if bit x.word 80 then load else act

/-- Issue checks of ENQ (R147, R222, R235–R238): a pair-mode set is refused. -/
def checkEnq (x : Issue) (s : State) : Option IssueRefusal :=
  let w := x.word
  let set := enqSet x s
  let k := match set with
    | some t => t.k
    | none => 1
  firstOf [
    (x.anyStain s (operandSlots (Word.fmt w) 0 1 ++ [2, 3]), byStain),
    (s.badLedger (x.reg s 3) || (match set with
      | some t => badPair (Word.fmt w) t || decide (128 < t.n)
      | none => false), badField),
    (streamBeyond x s 1 k, outOfRange),
    (streamMisaligned x s, misaligned),
    (set.isNone, wrongState)]

/-- ENQ (R147): the entry joins the queue, which issues first where the set or the format differs, and after it where the queue
is full or batch_wait is 0 (R146, R148). -/
def applyEnq (x : Issue) (s : State) : State :=
  let w := x.word
  let c := x.core
  let s := if enqDiffers w (s.core c) then s.issueBatch c else s
  let e : BatchEntry := {
    addr := x.reg s 0, scaleAddr := x.reg s 1, fmt := Word.fmt w, orient := Word.orient w, pitch := Word.pitch w,
    take := bit w 80, row := fld w 68 12, index := x.reg s 2 % 2 ^ 32, ledger := x.reg s 3, mode := fld w 81 2,
    start := bit w 83, step := x.step }
  let s := s.onCore c fun k => { k with batch := k.batch ++ [e] }
  if (s.core c).batch.length ≥ 128 || s.arrays.batchWaitInForce == 0 then s.issueBatch c else s

/-! ### FLUSH and MATVEC -/

/-- FLUSH (R148). -/
def applyFlush (x : Issue) (s : State) : State := s.issueBatch x.core

/-- Register e + i of a MATVEC (R239). -/
def matvecReg (x : Issue) (s : State) (i : Nat) : Nat := (s.core x.core).sval (Word.slot x.word 4 + i)

/-- Byte length of one row of W, rounded up to 64 (R239). -/
def weightPitch (fmt k : Nat) : Nat := roundUp (arrayBytes fmt k) 64

/-- Issue checks of MATVEC (R150, R222, R236, R239). -/
def checkMatvec (x : Issue) (s : State) : Option IssueRefusal :=
  let w := x.word
  let c := s.core x.core
  let wf := Word.fmt w
  let xf := fld w 61 4
  let k := fld (matvecReg x s 0) 0 15
  let n := fld (matvecReg x s 0) 32 20
  let rows := (n + 127) / 128
  let first := fld w 65 12
  firstOf [
    (x.anyStain s (operandSlots wf 0 1 ++ operandSlots xf 2 3) || (List.range 3).any fun i => c.sstain (Word.slot w 4 + i), byStain),
    (k == 0 || decide (16384 < k) || n == 0 || ((isMX wf || isMX xf) && k % 32 != 0) || s.badLedger (matvecReg x s 2) ||
      (fld w 77 2 == 1 && !rowsInEvenHandle first rows), badField),
    (decide (4096 < first + rows) || rowsBeyond (x.reg s 0) (weightPitch wf k) n wf k || rowsBeyond (x.reg s 2) 0 1 xf k ||
      (isMX wf && decide (storeBytes < x.reg s 1 + n * k / 32)) || (isMX xf && decide (storeBytes < x.reg s 3 + k / 32)), outOfRange),
    (x.reg s 0 % 64 != 0 || x.reg s 2 % 64 != 0 || (isMX wf && x.reg s 1 % 4 != 0) || (isMX xf && x.reg s 3 % 4 != 0), misaligned)]

/-- One K block of a MATVEC: x streams past every row of W, whose results go to lanes of consecutive rows (R150, R151). -/
def State.matvecBlock (s : State) (x : Issue) (q : Int) (ws : List (List Elem)) (v : List Elem) (p0 b : Nat) : State :=
  let w := x.word
  let part (es : List Elem) : List Elem := (es.drop (128 * b)).take 128
  let rs := ws.map fun row => columnResult 0 q (fld w 61 4) (Word.fmt w) (part v) (part row)
  (chunks 128 (rs.length / 128 + 1) rs).zipIdx.foldl (fun s (lanes, i) =>
    s.addRow x.core x.step (fld w 65 12 + i) (fld w 77 2) (bit w 79 && b == 0) ((p0 + b) % 2 ^ 32) lanes) s

/-- MATVEC (R150, R151): the queued batch issues, then one pass per block of 128 elements of K. -/
def applyMatvec (x : Issue) (s : State) : State :=
  let w := x.word
  let c := x.core
  let s := s.issueBatch c
  let wf := Word.fmt w
  let xf := fld w 61 4
  let k := fld (matvecReg x s 0) 0 15
  let n := fld (matvecReg x s 0) 32 20
  let ws := s.storeRows c (x.reg s 0) (weightPitch wf k) n wf k (scaleOf wf (x.reg s 1)) (k / 32)
  let v := s.storeRow c (x.reg s 2) xf k (scaleOf xf (x.reg s 3))
  let q := s.ledgerQ (matvecReg x s 2) x.step
  let p0 := matvecReg x s 1
  let s := s.noteRows c (x.reg s 0) (weightPitch wf k) n wf k (scaleOf wf (x.reg s 1)) (k / 32)
  let s := s.noteRows c (x.reg s 2) 0 1 xf k (scaleOf xf (x.reg s 3)) 0
  (List.range ((k + 127) / 128)).foldl (fun s b => s.matvecBlock x q ws v p0 b) s

end Sys2Proof.Machine
end

