-- ==== Sys2Proof/Machine/AccumUnit.lean ====
section
/-! DEFINITION. The accumulator unit (R156, R169, R173–R175, R240, R241): TCLR and COMBINE, and the collapsed read. -/

namespace Sys2Proof.Machine

/-- TCLR (R156): +0 to every lane of one tile handle, unstained. -/
def applyTclr (x : Issue) (s : State) : State :=
  s.fillRange (accAddr x.core (128 * fld x.word 57 5) 0) 65536 0

/-- Lane j of row r as an operation reads it: plain, or collapsed with its low word (R169). -/
def State.accRead (s : State) (c r j : Nat) (collapsed : Bool) : Nat × Bool :=
  let h := s.acc c r j
  if !collapsed then h
  else
    let l := s.acc c (r + 128) j
    ((sumF32 .nearest ((f32 h.1).add (f32 l.1))).code, h.2 || l.2)

/-- One node of the split-K tree (R174): words, stain, flags of it and of what lies below. -/
structure KNode where
  hi : Nat
  lo : Nat
  stain : Bool
  flags : Nat
  deriving DecidableEq, Repr

/-- The sum of two nodes, plain or compensated (R174): a node that is not stained raises its flags, whatever becomes of the root: R174 has
the flag rules of R166 at each node, and R89 speaks of a stained result element (DEDUCED, log 25). -/
def KNode.sum (form : Bool) (x y : KNode) : KNode :=
  let t := x.stain || y.stain
  let exact := (f32 x.hi).add (f32 y.hi)
  let h := sumF32 .nearest exact
  let below := x.flags ||| y.flags
  if !form then ⟨h.code, 0, t, below ||| h.flags t⟩
  else if nonfiniteF32 h.code then ⟨h.code, 0, t, below ||| h.flags t⟩
  else
    let e := exact.add (f32 h.code).negate
    let l := sumF32 .nearest (((f32 x.lo).add (f32 y.lo)).add e)
    ⟨h.code, l.code, t, below ||| h.flags t ||| l.flags t⟩

/-- One level of a balanced pairwise tree: an odd last element is carried up unchanged. -/
def pairUp {α : Type} (node : α → α → α) : List α → List α
  | a :: b :: rest => node a b :: pairUp node rest
  | l => l

/-- The root of the tree of R174 over list positions. -/
def treeRoot {α : Type} (node : α → α → α) : Nat → List α → Option α
  | 0, l => l.head?
  | fuel + 1, l => match l with
    | [] => none
    | [a] => some a
    | l => treeRoot node fuel (pairUp node l)

/-- The combine list of an instruction (R241): entries of 16 bits with their stain. -/
def combineList (x : Issue) (s : State) : List (Nat × Bool) :=
  (List.range (fld x.word 57 8 + 1)).map fun i => numOf (s.load (storeAddr x.core (x.reg s 0 + 2 * i)) 2)

/-- Whether the combine list lies in the core store, so that it can be read. -/
def listReadable (x : Issue) (s : State) : Bool :=
  decide (x.reg s 0 + 2 * (fld x.word 57 8 + 1) ≤ storeBytes)

/-- Issue checks of COMBINE (R173, R222, R241). -/
def checkCombine (x : Issue) (s : State) : Option IssueRefusal :=
  let es := if listReadable x s then combineList x s else []
  firstOf [
    (x.anyStain s [0] || es.any Prod.snd, byStain),
    (es.any (fun e => decide (0x1FFF < e.1) || (bit x.word 78 && fld e.1 8 5 % 2 == 1)) ||
      !ascending (es.map fun e => fld e.1 0 8), badField),
    (decide (storeBytes < x.reg s 0 + 2 * (fld x.word 57 8 + 1)), outOfRange),
    (x.reg s 0 % 8 != 0, misaligned)]

/-- One lane of the combination: the root over the partials in list order (R174, R175). -/
def State.combineLane (s : State) (form : Bool) (es : List Nat) (i j : Nat) : KNode :=
  let leaf (e : Nat) : KNode :=
    let h := s.acc (fld e 0 8) (128 * fld e 8 5 + i) j
    let l := if form then s.acc (fld e 0 8) (128 * fld e 8 5 + 128 + i) j else (0, false)
    ⟨h.1, l.1, h.2 || l.2, 0⟩
  (treeRoot (KNode.sum form) es.length (es.map leaf)).getD ⟨0, 0, true, 0⟩

/-- COMBINE (R173–R175): every lane of the destination tile, and of its low tile in compensated form. -/
def applyCombine (x : Issue) (s : State) : State :=
  let w := x.word
  let form := bit w 78
  let es := (combineList x s).map Prod.fst
  let s := s.noteRead (storeAddr x.core (x.reg s 0)) (2 * es.length)
  let s := es.foldl (fun s e => s.noteRead (accAddr (fld e 0 8) (128 * fld e 8 5) 0) (if form then 131072 else 65536)) s
  let rows := (List.range 128).map fun i => (List.range 128).map fun j => s.combineLane form es i j
  let lanes := rows.flatten
  let dst := accAddr (fld w 65 8) (128 * fld w 73 5) 0
  let s := s.put (x.core + 1) dst (laneBytes (lanes.map fun n => (n.hi, n.stain)))
  let s := if form then s.put (x.core + 1) (dst + 65536) (laneBytes (lanes.map fun n => (n.lo, n.stain))) else s
  s.raise x (lanes.foldl (fun f n => f ||| n.flags) 0)

end Sys2Proof.Machine
end

