-- ==== Sys2Proof/Machine/Fold.lean ====
section
/-! DEFINITION. The gradient fold (R359–R372): fold slots, the fold tree, the folded gradient, norm partials. -/

namespace Sys2Proof.Machine

/-- The bucket entry of a tag that this module owns. -/
def Plan.bucket? (p : Plan) (tag : Nat) : Option Bucket := p.buckets.find? fun b => b.tag == tag

/-- The bucket entry of a tag under the loaded plan. -/
def State.bucket? (s : State) (tag : Nat) : Option Bucket := s.plan.bind fun p => p.bucket? tag

/-- The group entry of a number. -/
def State.group? (s : State) (g : Nat) : Option Group := s.plan.bind fun p => p.groups[g]?

/-- The fold of a bucket for a step. -/
def State.fold? (s : State) (tag step : Nat) : Option Fold := s.folds.find? fun f => f.tag == tag && f.step == step

/-- The state with the fold of a bucket and step put in place of the one before. -/
def State.setFold (s : State) (f : Fold) : State :=
  { s with folds := s.folds.filter (fun g => !(g.tag == f.tag && g.step == f.step)) ++ [f] }

/-- The folded gradient of a bucket for a step, where its fold is complete (R367, R369). -/
def State.folded (s : State) (tag step : Nat) : Option (List (Nat × Bool)) := (s.fold? tag step).bind Fold.root

/-- Nodes of level L of a tree over G leaves: an odd element is carried up. -/
def levelWidth (g : Nat) : Nat → Nat
  | 0 => g
  | n + 1 => (levelWidth g n + 1) / 2

/-- Elementwise sum of two children, with the flags of its unstained results (R166, R367). -/
def sumElems (a b : List (Nat × Bool)) : List (Nat × Bool) × Nat :=
  let rs := List.zipWith (fun x y => let t := x.2 || y.2; (addF32 x.1 y.1, t)) a b
  (rs.map fun r => (r.1.code, r.2), rs.foldl (fun f r => f ||| r.1.flags r.2) 0)

/-- A value of the tree at a level and index joins the fold: with its sibling it makes their parent, without it waits, an odd
last one is carried up, and the one node of the top level is the root (R367). The flags of the sums made come with it. -/
def Fold.join (g : Nat) : Nat → Fold → Nat → Nat → List (Nat × Bool) → Nat → Fold × Nat
  | 0, f, _, _, _, fl => (f, fl)
  | fuel + 1, f, level, i, v, fl =>
    let n := levelWidth g level
    if n ≤ 1 then ({ f with root := some v }, fl)
    else if i % 2 == 0 && i + 1 == n then f.join g fuel (level + 1) (i / 2) v fl
    else
      let sib := if i % 2 == 0 then i + 1 else i - 1
      match f.nodes.find? fun d => d.level == level && d.index == sib with
      | none => ({ f with nodes := f.nodes ++ [⟨level, i, v⟩] }, fl)
      | some d =>
        let r := if i % 2 == 0 then sumElems v d.elems else sumElems d.elems v
        ({ f with nodes := f.nodes.erase d } : Fold).join g fuel (level + 1) (i / 2) r.1 (fl ||| r.2)

/-- Elements of a zero chunk (R372). -/
def chunkElems : Nat := 16384

/-- The zero chunks of a folded gradient: runs of 16,384 elements, or the shorter last one, in which every element is ±0 (R372). -/
def zeroChunks (v : List (Nat × Bool)) : Nat :=
  ((List.range (cdiv v.length chunkElems)).filter fun i => ((v.drop (chunkElems * i)).take chunkElems).all fun e => e.1 % 2 ^ 31 == 0).length

/-- What a complete fold marks on its step (R371). -/
def State.markRoot (s : State) (step : Nat) (root : Option (List (Nat × Bool))) : State :=
  match root with
  | none => s
  | some v =>
    let s := if v.any Prod.snd then s.markStain step else s
    if v.any fun e => nonfiniteF32 e.1 then s.markNonfinite step else s

/-- The position of a rank among a bucket's contributors (R361). -/
def Bucket.position (b : Bucket) (rank : Nat) : Option Nat := b.contributors.findIdx? fun r => r == rank

/-- A delivered packet's elements written into the slot of a contributor (R366); none where they would take the slot's count past
the bucket's length, which makes the packet corrupt. -/
def State.deliver (s : State) (b : Bucket) (step pos off flushes : Nat) (es : List (Nat × Bool)) : Option State :=
  let f := (s.fold? b.tag step).getD ⟨b.tag, step, [], [], none, 0, 0⟩
  let slot := (f.slots.find? fun x => x.pos == pos).getD ⟨pos, 0, []⟩
  let count := slot.count + es.length
  if b.len < count then none
  else
    let elems := es.zipIdx.foldl (fun m (e, i) => SMap.set (0, true) m (off + i) (BitVec.ofNat 32 e.1, e.2)) slot.elems
    let leaf := (List.range b.len).map fun i => let e := SMap.get (0, true) elems i; (e.1.toNat, e.2)
    let slot' : FoldSlot := ⟨pos, count, if count = b.len then [] else elems⟩
    let f : Fold := { f with slots := f.slots.filter (fun x => x.pos != pos) ++ [slot'], flushes := f.flushes + flushes }
    let (f, fl) := if count = b.len then f.join b.contributors.length 40 0 pos leaf 0 else (f, 0)
    let f := { f with zeros := (f.root.map zeroChunks).getD 0 }
    some (((s.setFold f).raiseStep step fl).markRoot step (if count = b.len then f.root else none))

/-- A code with the flags raised on its way (R89). -/
structure Flagged where
  code : Nat
  flags : Nat
  deriving DecidableEq, Repr

/-- A rounding's code and flags. -/
def Rounded.flagged (r : Rounded) : Flagged := ⟨r.code, r.flags false⟩

/-- One value of a sum of squares (R370): its code, its stain, and the flags of the unstained results on its way (R89). -/
structure SumNode where
  code : Nat
  stain : Bool
  flags : Nat
  deriving DecidableEq, Repr

/-- The square of a folded element. -/
def squareOf (e : Nat × Bool) : SumNode :=
  let r := mulF32 e.1 e.1
  ⟨r.code, e.2, r.flags e.2⟩

/-- One node of a sum of squares. -/
def SumNode.sum (a b : SumNode) : SumNode :=
  let r := addF32 a.code b.code
  let t := a.stain || b.stain
  ⟨r.code, t, a.flags ||| b.flags ||| r.flags t⟩

/-- A sum in the tree of R174 over list positions; +0 of an empty list. -/
def sumTree (xs : List SumNode) : SumNode := (treeRoot SumNode.sum xs.length xs).getD ⟨0, false, 0⟩

/-- The sum of squares of a folded gradient (R370). -/
def squareSum (v : List (Nat × Bool)) : SumNode := sumTree (v.map squareOf)

/-- The buckets of a group on an M-die, in ascending tag order. -/
def Plan.groupBuckets (p : Plan) (g m : Nat) : List Bucket :=
  (p.buckets.filter fun b => b.group == g && b.mdie == m).mergeSort fun a b => decide (a.tag ≤ b.tag)

/-- The module's norm partial of a group for a step, with its stain (R370, R472): the buckets of each M-die, then the M-dies. Its flags are those
of every unstained square and sum, also where the partial itself is stained (R89). -/
def State.normPartial (s : State) (g step : Nat) : Flagged × Bool :=
  match s.plan with
  | none => (⟨0, 0⟩, false)
  | some p =>
    let per (m : Nat) : List (List (Nat × Bool)) := (p.groupBuckets g m).filterMap fun b => s.folded b.tag step
    let dies := ((List.range 12).map per).filter fun l => !l.isEmpty
    let n := sumTree (dies.map fun l => sumTree (l.map squareSum))
    (⟨n.code, n.flags⟩, n.stain)

/-- Whether every bucket of a group on this module has folded for a step (R391). -/
def State.groupFolded (s : State) (g step : Nat) : Bool :=
  match s.plan with
  | none => false
  | some p => (p.buckets.filter fun b => b.group == g).all fun b => (s.folded b.tag step).isSome

/-- The folds of a set of steps released (R394, R395). -/
def State.dropFolds (s : State) (steps : List Nat) : State := { s with folds := s.folds.filter fun f => !steps.contains f.step }

end Sys2Proof.Machine
end

