-- ==== Sys2Proof/Machine/Mesh.lean ====
section
/-! DEFINITION. The package mesh (R32, R33, R37, R38): its places, links, detours and paths, and which transfers have no path. -/

namespace Sys2Proof.Machine

/-- Place of a die on the grid (R32), dies numbered as in the error log; the H-die, 24, lies outside. -/
def diePlace (d : Nat) : Option (Nat × Nat) :=
  if d < 4 then some (d + 1, 1)
  else if d < 8 then some (d - 3, 2)
  else if d < 14 then some (d - 8, 0)
  else if d < 20 then some (d - 14, 3)
  else match d with
    | 20 => some (0, 1)
    | 21 => some (5, 1)
    | 22 => some (0, 2)
    | 23 => some (5, 2)
    | _ => none

/-- The die at a place of the grid. -/
def dieAt (q : Nat × Nat) : Nat := ((List.range 24).find? fun d => diePlace d == some q).getD 24

/-- A link with its lower die first. -/
def link (a b : Nat) : Nat × Nat := if a ≤ b then (a, b) else (b, a)

/-- Whether two dies have a mesh link (R32): grid neighbours, and the H-die with L1 and L3. -/
def meshLinked (a b : Nat) : Bool :=
  match diePlace a, diePlace b with
  | some (x, y), some (u, v) => (y == v && (x + 1 == u || u + 1 == x)) || (x == u && (y + 1 == v || v + 1 == y))
  | some _, none => b == 24 && (a == 21 || a == 23)
  | none, some _ => a == 24 && (b == 21 || b == 23)
  | none, none => false

/-- The links of a detour (R37): by the row or column beside, at the H-die by its other link. -/
def detour (a b : Nat) : List (Nat × Nat) :=
  match diePlace a, diePlace b with
  | some (x, y), some (u, v) =>
    let (c, d) := if y == v then (if y == 3 then ((x, y - 1), (u, v - 1)) else ((x, y + 1), (u, v + 1)))
      else if x == 5 then ((x - 1, y), (u - 1, v)) else ((x + 1, y), (u + 1, v))
    [link a (dieAt c), link (dieAt c) (dieAt d), link (dieAt d) b]
  | _, _ => if a == 21 || b == 21 then [link 24 23, link 21 23] else [link 24 21, link 21 23]

/-! ### Paths (R37, R38) -/

/-- The grid links of a transfer's fixed path from one place to another: along the row, then along the column (the spec gives no route;
PRESUMED, log 63). -/
def gridPath (p q : Nat × Nat) : List (Nat × Nat) :=
  let row := if p.1 ≤ q.1 then (List.range (q.1 - p.1)).map fun i => link (dieAt (p.1 + i, p.2)) (dieAt (p.1 + i + 1, p.2))
    else (List.range (p.1 - q.1)).map fun i => link (dieAt (q.1 + i, p.2)) (dieAt (q.1 + i + 1, p.2))
  let col := if p.2 ≤ q.2 then (List.range (q.2 - p.2)).map fun i => link (dieAt (q.1, p.2 + i)) (dieAt (q.1, p.2 + i + 1))
    else (List.range (p.2 - q.2)).map fun i => link (dieAt (q.1, q.2 + i)) (dieAt (q.1, q.2 + i + 1))
  row ++ col

/-- The links of the fixed path between two dies; the H-die's goes by the nearer of L1 and L3 (R33). -/
def meshPath (a b : Nat) : List (Nat × Nat) :=
  match diePlace a, diePlace b with
  | some p, some q => gridPath p q
  | some p, none => if p.2 ≤ 1 then gridPath p (5, 1) ++ [link 24 21] else gridPath p (5, 2) ++ [link 24 23]
  | none, some q => if q.2 ≤ 1 then link 24 21 :: gridPath (5, 1) q else link 24 23 :: gridPath (5, 2) q
  | none, none => []

/-- Whether a link is out of service together with its detour (R38). -/
def linkLost (down : List (Nat × Nat)) (l : Nat × Nat) : Bool := down.contains l && (detour l.1 l.2).any fun k => down.contains k

/-- Whether a transfer between two dies has no path (R38). -/
def State.noPath (s : State) (a b : Nat) : Bool := s.partitioned && a != b && (meshPath a b).any (linkLost s.meshDown)

/-- Dies, numbered as in the error log (R612), that hold a range of device memory. -/
def State.rangeDies (s : State) (a n : Nat) : List Nat :=
  match regionOf s.code a with
  | some .hbm => (hbmSpans a n).map fun x => 8 + x.1
  | some (.stack m) => [8 + m]
  | some (.staging m) => [8 + m]
  | some (.store c) => [c / 32]
  | some (.acc c) => [c / 32]
  | _ => []

/-- The dies that a transfer of a device range reaches: those that hold it, the H-die for the host window, and for an aperture an L-die,
the first one standing for all (log 63). -/
def State.reachDies (s : State) (a n : Nat) : List Nat :=
  if hostBase ≤ a then [24] else if fabricBase ≤ a then [20] else s.rangeDies a n

/-- Whether a range touches a stack that is being poisoned: such an access waits (R493). -/
def State.poisonHeld (s : State) (a n : Nat) : Bool := (s.rangeDies a n).any fun d => decide (8 ≤ d) && s.power.poisoning.contains (d - 8)

/-- Dies that the fixed path between two dies crosses, both among them. -/
def meshCrossed (a b : Nat) : List Nat := (a :: b :: (meshPath a b).flatMap fun l => [l.1, l.2]).dedup

/-- Whether a transfer from a die to a range of device memory waits: for a stack that is being poisoned (R493), with no mesh path (R38), or where
a die that it crosses is in reset (R544). -/
def State.hostHeld (s : State) (die a n : Nat) : Bool :=
  s.poisonHeld a n || (s.reachDies a n).any fun d => s.noPath die d || (meshCrossed die d).any s.power.resetting.contains

/-- Whether the cores have clock and power: in HOLD the C-dies' clocks are stopped, in REST and DORMANT the dies are off (R517). -/
def State.clocked (s : State) : Bool := s.power.state == .run || s.power.state == .ready

/-- Whether the M-dies and L-dies are active: not in REST and DORMANT (R517). -/
def State.diesActive (s : State) : Bool := s.power.state != .rest && s.power.state != .dormant

end Sys2Proof.Machine
end

