-- ==== Sys2Proof/Machine/Packets.lean ====
section
/-! DEFINITION. Fabric packets (R365, R406–R424, R497, R628): their fields, the checks at the receiving L-die, what data packets do,
and how the module makes and sends packets of its own. -/

namespace Sys2Proof

/-! ### Fields (R363, R410) -/

def Packet.h (k : Packet) : Nat := k.header.toNat
def Packet.dest (k : Packet) : Nat := Machine.fld k.h 0 18
def Packet.source (k : Packet) : Nat := Machine.fld k.h 24 18
def Packet.vc (k : Packet) : Nat := Machine.fld k.h 42 2
def Packet.format (k : Packet) : Nat := Machine.fld k.h 44 4
def Packet.type (k : Packet) : Nat := Machine.fld k.h 48 8
def Packet.length (k : Packet) : Nat := Machine.fld k.h 56 13
def Packet.span (k : Packet) : Nat := Machine.fld k.h 69 3
def Packet.transfer (k : Packet) : Nat := Machine.fld k.h 72 32
def Packet.index (k : Packet) : Nat := Machine.fld k.h 104 16
def Packet.list (k : Packet) : Nat := Machine.fld k.h 120 16
def Packet.target (k : Packet) : Nat := Machine.fld k.h 136 40
def Packet.signal (k : Packet) : Bool := Machine.bit k.h 176
def Packet.token (k : Packet) : Nat := Machine.fld k.h 177 6
def Packet.core (k : Packet) : Nat := Machine.fld k.h 183 8
def Packet.transferLength (k : Packet) : Nat := Machine.fld k.h 191 32

/-- The step header of a packet as that of R363: a KN8120's is widened with the receiver's epoch, ochre 0, flush 0 (R414). -/
def Packet.fold (k : Packet) (epoch : Nat) : Nat :=
  let x := k.step.toNat
  if k.format == 1 then
    Machine.fld x 0 64 + epoch <<< 64 + (Machine.fld x 64 16) <<< 80 + (Machine.fld x 80 17) <<< 96 + (Machine.fld x 128 32) <<< 128 +
      (Machine.fld x 160 9) <<< 160 + (Machine.fld x 192 128) <<< 192
  else x

/-- Whether a reserved field of the step header is nonzero (R363, R414). -/
def Packet.foldReserved (k : Packet) : Bool :=
  let x := k.step.toNat
  if k.format == 1 then Machine.fld x 97 31 != 0 || Machine.fld x 169 23 != 0 || Machine.fld x 320 64 != 0
  else Machine.fld x 73 7 != 0 || Machine.fld x 113 15 != 0 || Machine.fld x 169 7 != 0 || Machine.fld x 186 6 != 0 || Machine.fld x 320 64 != 0

/-- The payload bytes of a VC1 or VC2 packet with their stain (R497). -/
def Packet.payload (k : Packet) (all : Bool) : List (Byte × Bool) :=
  let unit := if k.body.length ≤ 1024 then 8 else 32
  k.body.zipIdx.map fun (b, i) => (b, all || Machine.bit k.step.toNat (192 + i / unit))

/-- A payload whose end-to-end CRC failed keeps its stain while the packet is held: every bit of the mask is set. -/
def Packet.stainAll (k : Packet) (all : Bool) : Packet :=
  if all then { k with step := BitVec.ofNat 384 (Machine.setFld k.step.toNat 192 128 (2 ^ 128 - 1)) } else k

namespace Machine

/-- Virtual channel and length limit of a packet type (R411); none where the code is reserved. -/
def typeInfo : Nat → Option (Nat × Nat)
  | 0x00 => some (0, 4096) | 0x01 => some (2, 4096) | 0x02 => some (2, 4096) | 0x03 => some (2, 4096)
  | 0x04 => some (2, 8) | 0x05 => some (2, 4096) | 0x06 => some (2, 4096) | 0x07 => some (2, 8) | 0x08 => some (2, 4096)
  | 0x10 => some (1, 1024) | 0x11 => some (1, 4096)
  | 0x20 => some (0, 32) | 0x21 => some (0, 32) | 0x22 => some (0, 32) | 0x23 => some (0, 288) | 0x24 => some (0, 544)
  | 0x25 => some (0, 32) | 0x26 => some (0, 8) | 0x27 => some (0, 32) | 0x28 => some (0, 8) | 0x29 => some (0, 8)
  | 0x2A => some (0, 16)
  | _ => none

/-- Types that pass in header format 1 towards a KN9250 (R414). -/
def kn8120Types : List Nat := [0x00, 0x01, 0x08, 0x10, 0x20, 0x21, 0x22, 0x26, 0x27, 0x29, 0x2A]

/-- Whether a field of the fabric header is illegal (R410). -/
def badHeader (k : Packet) : Bool :=
  badAddress k.dest || fld k.h 18 6 != 0 || badAddress k.source || decide (1 < k.format) || decide (3 < k.span) || fld k.h 223 17 != 0 ||
    (match typeInfo k.type with
      | none => true
      | some (vc, limit) => k.vc != vc || decide (limit < k.length) || k.length % 8 != 0)

/-- The header CRC that the first 240 bits call for (R410). -/
def headerCrc (h : Nat) : Nat := crc16 (leBytes 30 (fld h 0 240))

/-- The bytes that the end-to-end CRC covers: step header and body; a beacon's correction field counts as 0 (R409). -/
def crcBytes (k : Packet) : List Byte :=
  (if k.vc == 0 then [] else leBytes (if k.format == 1 then 40 else 48) k.step.toNat) ++
    (if k.type == 0x20 then k.body.zipIdx.map fun (b, i) => if 20 ≤ i ∧ i < 28 then 0 else b else k.body)

/-- Whether the end-to-end CRC, or the body's length, is not what the packet says (R406). -/
def badBody (k : Packet) : Bool := crc32 (crcBytes k) != k.crc.toNat || k.body.length != k.length

/-- Bytes [a, a + n) of a packet's body as a number. -/
def bodyNum (k : Packet) (a n : Nat) : Nat := leNat ((k.body.drop a).take n)

/-! ### The rank table (R421) -/

/-- The entry of a rank in the copy of an L-die. -/
def State.rankEntry (s : State) (l r : Nat) : Nat := SMap.get 0 (s.fabric.ranks.getD l []) r

def rankAddress (e : Nat) : Nat := fld e 0 18
def rankValid (e : Nat) : Bool := bit e 18
def rankOld (e : Nat) : Bool := bit e 19
def rankLost (e : Nat) : Bool := bit e 20
def rankOwn (e : Nat) : Bool := bit e 21
/-- Bytes of HBM3 of the holder of a rank. -/
def rankBytes (e : Nat) : Nat := fld e 22 8 * 2 ^ 33

/-- The listed (rank, entry) pairs of the communicator, ascending. -/
def State.members (s : State) : List (Nat × Nat) := (s.fabric.ranks.headD []).filter fun (_, e) => rankValid e

/-- The rank that this module holds (R421). -/
def State.ownRank (s : State) : Option Nat := (s.members.find? fun (_, e) => rankOwn e).map Prod.fst

/-- This module's fabric address (R420, R611). -/
def State.address (s : State) : Nat := s.side.slot % 64 + (s.fabric.rack % 128) <<< 6 + (s.fabric.pod % 32) <<< 13

/-- The members that take part in the verdict: the KN9250 ranks, since no contribution and no verdict passes to or from a KN8120 (R386,
R414; log 64). -/
def State.voters (s : State) : List (Nat × Nat) := s.members.filter fun (_, e) => !rankOld e

/-- Whether the sender of a packet is a rank whose generation bit is 1 (R413). -/
def State.fromOld (s : State) (l : Nat) (k : Packet) : Bool :=
  (s.fabric.ranks.getD l []).any fun (_, e) => rankValid e && rankOld e && rankAddress e == k.source

/-! ### Admission (R406, R413) -/

/-- Source class 3, number l: an event of an L-die. -/
def State.lEvent (s : State) (code l step detail : Nat) : State := s.event code 3 l step detail

/-- The L-die of a port (R400). -/
def portDie (p : Nat) : Nat := p / 8

/-- A fabric-CRC event of a port, with its count (R406, R612). -/
def State.crcEvent (s : State) (p detail : Nat) : State :=
  let n := satAdd 32 (SMap.get 0 s.err.crcs p) 1
  ({ s with err := { s.err with crcs := SMap.set 0 s.err.crcs p n } } : State).lEvent 0x0F (portDie p) noStep detail

/-- A packet dropped as corrupt (R413, R420). -/
def State.dropCorrupt (s : State) (p : Nat) (k : Packet) : State := (s.lEvent 0x12 (portDie p) noStep k.source).markOldest

/-- Whether a control body carries a fabric address whose slot is illegal (R420). -/
def badControlBody (k : Packet) : Bool :=
  match k.type with
  | 0x25 => badAddress (bodyNum k 8 8 % 2 ^ 18) || badAddress (bodyNum k 16 4)
  | 0x27 => badAddress (bodyNum k 24 4)
  | 0x2A => badAddress (bodyNum k 4 4)
  | _ => false

/-- What the receiving L-die makes of a packet that a port has received: none where it drops it, else whether every payload word is
stained. -/
def State.inspect (s : State) (p : Nat) (k : Packet) : State × Option Bool :=
  if fld k.h 240 16 != headerCrc k.h then ((s.crcEvent p (k.source + 1 <<< 18)).markOldest, none)
  else if badHeader k || (k.format == 1 && (!s.fromOld (portDie p) k || !kn8120Types.contains k.type)) then (s.dropCorrupt p k, none)
  else if badBody k then
    let s := s.crcEvent p k.source
    if k.vc == 0 then (s, none) else (s, some true)
  else if badControlBody k then (s.dropCorrupt p k, none)
  else (s, some false)

/-! ### VC2 writes and transfers (R422, R423, R628) -/

/-- Bytes of a transfer landed; its remote signal is applied when all have (R422). -/
def State.land (s : State) (k : Packet) : State :=
  let key (x : Landed) : Bool := x.source == k.source && x.transfer == k.transfer
  let n := ((s.fabric.landed.find? key).map Landed.bytes).getD 0 + k.body.length
  let others := s.fabric.landed.filter fun x => !key x
  if n < k.transferLength then { s with fabric := { s.fabric with landed := others ++ [⟨k.source, k.transfer, n⟩] } }
  else
    let s := State.retireOwned { s with fabric := { s.fabric with landed := others } } (transferWriter k.source k.transfer)
    if k.signal then s.addToken k.core k.token 1 else s

/-- A write that the receiver's own map refuses: the event, and the mark on the packet's step (R423). -/
def State.refuseWrite (s : State) (l : Nat) (k : Packet) : State :=
  (s.lEvent 0x12 l (fld k.step.toNat 0 64) k.source).markStain (fld k.step.toNat 0 64)

/-- Whether an access of L-die l to a range waits: for a stack that is being poisoned (R493), or with no mesh path (R38). -/
def State.fabricHeld (s : State) (l a n : Nat) : Bool :=
  (!s.power.poisoning.isEmpty && s.poisonHeld a n) || (s.partitioned && (s.reachDies a n).any fun d => s.noPath (20 + l) d)

/-- A received packet whose access waits. -/
def State.block (s : State) (l : Nat) (k : Packet) (all : Bool) : State :=
  { s with fabric := { s.fabric with blocked := s.fabric.blocked ++ [{ ldie := l, packet := k, all := all }] } }

/-- A payload written at an address of the interleaved view after the map check of R423; where the access waits, so does the packet. -/
def State.fabricWrite (s : State) (l : Nat) (k : Packet) (all : Bool) (a : Nat) (bs : List (Byte × Bool)) : State :=
  if !(decide (a < stackView) && s.reachable a bs.length) then s.refuseWrite l k
  else if s.fabricHeld l a bs.length then s.block l k all
  else (s.put (transferWriter k.source k.transfer) a bs).land k

/-- The address that a multicast adds to the target offset: this rank's entry in the named distribution list (R410), which has the tag of its
bucket; none where it is not a destination. Collective data names its collective (State.takeCollective). -/
def State.listBase (s : State) (n : Nat) : Option Nat :=
  match s.plan, s.ownRank with
  | some p, some r => ((p.bucket? n).bind fun b => b.dist.find? fun d => d.rank == r).map Dest.addr
  | _, _ => none

/-- Where a packet's payload goes: its target offset, for a multicast under the list's base. -/
def State.landing (s : State) (k : Packet) : Option Nat :=
  if k.span == 0 then some k.target else (s.listBase k.list).map fun b => b + k.target

/-- The table word in which a multicast finds the base of its landing (R410, R500). -/
def landingWords (k : Packet) : List TableWord := if k.span == 0 then [] else [.dist k.list]

/-- FSEND data and GATHER data (R247, R423, R628): without the zero bytes that pad a
transfer's last word. -/
def State.receiveWrite (s : State) (l : Nat) (k : Packet) (all : Bool) : State :=
  match s.landing k with
  | none => s
  | some a =>
    let n := if k.transferLength % 8 == 0 then k.body.length else k.transferLength - 4096 * k.index
    s.useTables (landingWords k) fun s => s.fabricWrite l k all a ((k.payload all).take n)

/-! ### Bucket and OSTAGE packets (R365, R628) -/

/-- What a check of R365 decides. -/
inductive FoldCheck where
  | stale
  | held
  | corrupt
  | good
  deriving DecidableEq, Repr

/-- Whether a step has begun on this module (R365): its plan crest 0 has started. -/
def State.begun (s : State) (n : Nat) : Bool := match s.step? n with
  | some r => r.begun
  | none => false

/-- Whether a step is in flight. -/
def State.inFlight (s : State) (n : Nat) : Bool := match s.step? n with
  | some r => r.flying
  | none => false

/-- Rows 1 and 2 of R365, and the epoch, step and reserved-field checks of row 3. -/
def State.checkStep (s : State) (k : Packet) : FoldCheck :=
  let x := k.fold s.store.epoch
  let e := fld x 64 8
  let n := fld x 0 64
  if e == (s.store.epoch + 255) % 256 then .stale
  else if e == (s.store.epoch + 1) % 256 || s.plan.isNone || (decide (s.store.committed < n) && !(s.inFlight n && s.begun n)) then .held
  else if e != s.store.epoch || !s.inFlight n || k.foldReserved then .corrupt
  else .good

/-- The whole of R365 for a bucket packet, with the bucket and the contributor's position where it is good. -/
def State.checkBucket (s : State) (k : Packet) : FoldCheck × Option (Bucket × Nat) :=
  let x := k.fold s.store.epoch
  match s.checkStep k with
  | .good =>
    match s.bucket? (fld x 80 16) with
    | none => (.corrupt, none)
    | some b => match b.position (fld x 96 17) with
      | none => (.corrupt, none)
      | some p =>
        let count := fld x 160 9 + 1
        if b.len < fld x 128 32 + count || count < fld x 176 10 then (.corrupt, none) else (.good, some (b, p))
  | c => (c, none)

/-- A corrupt fold packet (R365): event, and the mark on the step it names, or on the oldest in flight. -/
def State.corruptFold (s : State) (l : Nat) (k : Packet) : State :=
  let x := k.fold s.store.epoch
  let s := s.lEvent 0x0C l (fld x 0 64) (fld x 80 16 + (fld x 96 17) <<< 16)
  if s.inFlight (fld x 0 64) then s.markStain (fld x 0 64) else s.markOldest

/-- Bytes that a packet occupies in a hold store (R409, R419). -/
def heldBytes (k : Packet) : Nat := roundUp (32 + (if k.vc == 0 then 0 else if k.format == 1 then 40 else 48) + k.body.length + 8) 256

/-- A packet held under R365 (R419): in the hold store, else in the overflow area, else dropped. -/
def State.hold (s : State) (l : Nat) (k : Packet) : State :=
  let used (o : Bool) : Nat := ((s.fabric.held.filter fun x => x.ldie == l && x.overflow == o).map fun x => heldBytes x.packet).sum
  let put (o : Bool) : State := { s with fabric := { s.fabric with held := s.fabric.held ++ [⟨l, o, k, []⟩] } }
  let area := match s.plan with
    | some p => !p.work.holdAreas.isEmpty
    | none => false
  if used false + heldBytes k ≤ 2 ^ 20 then put false
  else if area && decide (used true + heldBytes k ≤ 64 * 2 ^ 20) then put true
  else
    let s := { s with err := { s.err with holdDrops := satAdd 32 s.err.holdDrops 1 } }
    (s.lEvent 0x10 l noStep k.source).markOldest

/-- Elements of a bucket packet, widened exactly to binary32, with the stain of their payload word (R366). -/
def bucketElems (k : Packet) (n : Nat) (all : Bool) : List (Nat × Bool) :=
  let bs := k.payload all
  (List.range n).map fun i =>
    let e := numOf ((bs.drop (2 * i)).take 2)
    ((fpB32.convert .nearest false (fpBF16.decode e.1)).code, e.2)

/-- A stale packet (R365, R387). -/
def State.countStale (s : State) : State := { s with err := { s.err with stale := satAdd 32 s.err.stale 1 } }

/-- A bucket packet that has passed R413 (R365, R366). -/
def State.receiveBucket (s : State) (l : Nat) (k : Packet) (all : Bool) : State :=
  let x := k.fold s.store.epoch
  match s.checkBucket k with
  | (.stale, _) => s.countStale
  | (.held, _) => s.hold l (k.stainAll all)
  | (.good, some (b, p)) => s.useTables [.bucket b.tag] fun s =>
    match s.deliver b (fld x 0 64) p (fld x 128 32) (fld x 176 10) (bucketElems k (fld x 160 9 + 1) all) with
    | some s' => s'
    | none => s.corruptFold l k
  | _ => s.corruptFold l k

/-- An OSTAGE packet that has passed R413 (R628). -/
def State.receiveOstage (s : State) (l : Nat) (k : Packet) (all : Bool) : State :=
  match s.checkStep k with
  | .stale => s.countStale
  | .held => s.hold l (k.stainAll all)
  | .good => s.receiveWrite l k all
  | .corrupt => s.corruptFold l k

/-! ### Making and sending packets (R362, R409, R410, R422) -/

/-- What a packet of this module names beside its payload. -/
structure Outgoing where
  type : Nat
  address : Nat
  old : Bool := false
  step : Nat := 0
  ochre : Bool := false
  tag : Nat := 0
  rank : Nat := 0
  offset : Nat := 0
  count : Nat := 0
  flushes : Nat := 0
  index : Nat := 0
  target : Nat := 0
  transfer : Nat := 0
  length : Nat := 0
  signal : Option (Nat × Nat) := none
  span : Nat := 0
  list : Nat := 0
  deriving DecidableEq, Repr

/-- The stain mask of a payload (R497): a group is stained where any of its bytes is. -/
def stainMask (bs : List (Byte × Bool)) : Nat :=
  let unit := if bs.length ≤ 1024 then 8 else 32
  (List.range 128).foldl (fun m w => if ((bs.drop (unit * w)).take unit).any Prod.snd then m + 1 <<< w else m) 0

/-- The packet with both its CRCs (R406, R409, R410). -/
def sealPacket (header step : Nat) (body : List Byte) : Packet :=
  let k : Packet := ⟨BitVec.ofNat 256 header, BitVec.ofNat 384 step, body, 0⟩
  { k with header := BitVec.ofNat 256 (setFld header 240 16 (headerCrc header)), crc := BitVec.ofNat 32 (crc32 (crcBytes k)) }

/-- A packet of this module with a payload, in the header format of its receiver's generation (R363, R410, R414). -/
def State.makePacket (s : State) (o : Outgoing) (bs : List (Byte × Bool)) : Packet :=
  let vc := ((typeInfo o.type).getD (0, 0)).1
  let header := o.address + s.address <<< 24 + vc <<< 42 + b2n o.old <<< 44 + o.type <<< 48 + bs.length <<< 56 + o.span <<< 69 +
    (o.transfer % 2 ^ 32) <<< 72 + (o.index % 2 ^ 16) <<< 104 + (o.list % 2 ^ 16) <<< 120 + (o.target % 2 ^ 40) <<< 136 +
    (match o.signal with
      | some (c, k) => 1 <<< 176 + (k % 64) <<< 177 + (c % 256) <<< 183
      | none => 0) + (o.length % 2 ^ 32) <<< 191
  let n := o.count - 1
  let step := if vc == 0 then 0
    else if o.old then o.step % 2 ^ 64 + o.tag <<< 64 + o.rank <<< 80 + o.offset <<< 128 + n <<< 160 + stainMask bs <<< 192
    else o.step % 2 ^ 64 + s.store.epoch <<< 64 + b2n o.ochre <<< 72 + o.tag <<< 80 + o.rank <<< 96 + o.offset <<< 128 + n <<< 160 +
      o.flushes <<< 176 + stainMask bs <<< 192
  sealPacket header step (bs.map Prod.fst)

/-! ### Links (R405, R408, R409, R414, R415, R422) -/

/-- The bytes of a packet on a link (R409). -/
def linkBytes (k : Packet) : List Byte :=
  leBytes 32 k.h ++ (if k.vc == 0 then [] else leBytes (if k.format == 1 then 40 else 48) k.step.toNat) ++ k.body ++ leBytes 4 k.crc.toNat ++
    List.replicate 4 0

/-- Credits that a packet consumes at a hop (R409); an idle packet consumes none (R411). -/
def packetCredits (k : Packet) : Nat := if k.type == 0 then 0 else cdiv (linkBytes k).length 256

/-- Reserved credits of each VC, and the credits that the VCs share (R415). -/
def creditReserves : List Nat := [16, 32, 32]
def sharedCredits : Nat := 432

/-- The credits in use that lie in the shared pool: what exceeds the reserves (R415). -/
def pooled (used : List Nat) : Nat := (List.zipWith (fun u r => u - r) used creditReserves).sum

/-- Whether credits in use fit a receive buffer (R415). -/
def creditsFit (used : List Nat) : Bool := decide (pooled used ≤ sharedCredits)

/-- Packet data filled to whole frames with an idle packet (R408), which takes at least 40 bytes. -/
def State.fillFrames (s : State) (bs : List Byte) : List Byte :=
  let r := bs.length % 248
  if r = 0 then bs
  else
    let n := if 248 - r < 40 then 496 - r else 248 - r
    bs ++ linkBytes (sealPacket (s.address <<< 24 + (n - 40) <<< 56) 0 (List.replicate (n - 40) 0))

/-- The packet data of the frames that carry a packet. -/
def frameParts : Nat → List Byte → List (List Byte)
  | 0, _ => []
  | _, [] => []
  | n + 1, bs => bs.take 248 :: frameParts n (bs.drop 248)

/-- A packet cut into frames: they go on the line and stay in the replay buffer until they are acknowledged (R405, R408). -/
def Port.transmit (q : Port) (k : Packet) (data : List Byte) : Port :=
  let parts := frameParts (data.length / 248 + 1) data
  let frames := parts.zipIdx.map fun (b, i) => ((q.txSeq + i) % 16384, b)
  { q with
    txSeq := (q.txSeq + parts.length) % 16384, replay := q.replay ++ frames, line := q.line ++ frames.map Prod.fst,
    flying := q.flying ++ [((q.txSeq + parts.length - 1) % 16384, k)], inUse := q.inUse.modify k.vc fun n => n + packetCredits k }

/-- The ACTIVE ports over which an L-die spreads its packets (R422): its own; the remaining ports of the module where it has none left
(R405, log 77). -/
def State.portsOf (s : State) (l : Nat) : List Nat :=
  let active := (List.range 32).filter fun p => (s.port p).state = .active
  let own := active.filter fun p => portDie p == l
  if own.isEmpty then active else own

/-- The ACTIVE port that a packet of an L-die takes (R422); none where no port is ACTIVE. -/
def State.portOf (s : State) (x : Sending) : Option Nat :=
  match s.portsOf x.ldie with
  | [] => none
  | [p] => some p
  | ps => ps[Config.portHash x.packet.dest x.packet.transfer x.packet.index % ps.length]?

/-- Whether a packet must wait on its port (R415): behind one of its VC, so that a VC keeps its order; where its credits do not fit; and where
they come out of the shared pool, for which packets of every VC wait in the order in which they arrived. -/
def State.mustWait (s : State) (x : Sending) (p : Nat) : Bool :=
  let used := (s.port p).inUse
  let after := used.modify x.packet.vc fun n => n + packetCredits x.packet
  let before := s.fabric.waits.filter fun y => s.portOf y == some p
  (before.any fun y => y.packet.vc == x.packet.vc) || !creditsFit after || (!before.isEmpty && decide (pooled used < pooled after))

/-- A packet goes out on its port, or waits for a port or for credits (R415). -/
def State.carry (s : State) (x : Sending) : State :=
  let wait : State := { s with fabric := { s.fabric with waits := s.fabric.waits ++ [x] } }
  match s.portOf x with
  | none => wait
  | some p => if s.mustWait x p then wait else s.setPort p ((s.port p).transmit x.packet (s.fillFrames (linkBytes x.packet)))

/-- The waiting packets tried again: credits have come back, or the ACTIVE ports have changed. -/
def State.pump (s : State) : State :=
  s.fabric.waits.foldl State.carry { s with fabric := { s.fabric with waits := [] } }

/-- The types that a KN9250 sends to a KN8120 (R414). -/
def toOldTypes : List Nat := [0x00, 0x01, 0x08, 0x20, 0x21, 0x22, 0x26, 0x27, 0x29, 0x2A]

/-- A packet sent by an L-die: none of another type goes to a KN8120 (R414). Which L-die sends a control packet or a core's data the spec does
not say: L0 (log 77). -/
def State.emit (s : State) (k : Packet) (l : Nat := 0) : State :=
  if k.format == 1 && !toOldTypes.contains k.type then s else State.carry { s with sent := s.sent ++ [k] } ⟨l, k⟩

/-- The packets of a port that fails or is disabled: those whose frames are not all acknowledged use the remaining ports (R405). -/
def State.reroute (s : State) (p : Nat) (q : Port) : State :=
  State.pump { s with fabric := { s.fabric with waits := (q.flying.map fun x => ⟨portDie p, x.2⟩) ++ s.fabric.waits } }

/-- Whether a packet of one of this module's transfers in a range of numbers has not been accepted into a port buffer (R57). -/
def State.unsent (s : State) (r : Nat × Nat) : Bool :=
  s.fabric.waits.any fun x => [1, 2, 3, 4, 6, 8, 16, 17].contains x.packet.type &&
    decide ((x.packet.transfer + 2 ^ 32 - r.1) % 2 ^ 32 < (r.2 + 2 ^ 32 - r.1) % 2 ^ 32)

/-- The types that the sending L-die turns round where the module sends them to its own rank (R362). -/
def turnedTypes : List Nat := [0x01, 0x02, 0x10, 0x11]

/-- A data packet sent: to the module's own address it is turned round inside the L-die and takes the checks of any other (R362). -/
def State.sendData (s : State) (l : Nat) (k : Packet) : State :=
  if k.span == 0 && k.dest == s.address && turnedTypes.contains k.type then
    match k.type with
    | 0x10 => s.receiveBucket l k false
    | 0x11 => s.receiveOstage l k false
    | _ => s.receiveWrite l k false
  else s.emit k l

/-- The span of a multicast that reaches every member: rack, pod or building. -/
def State.spanOf (s : State) (ranks : List Nat) : Nat :=
  let as := ranks.map fun r => rankAddress (s.rankEntry 0 r)
  if as.all fun a => a / 64 == s.address / 64 then 1 else if as.all fun a => a / 8192 == s.address / 8192 then 2 else 3

/-- Payload bytes padded with zeros to a multiple of 8 (R363). -/
def padTo8 (bs : List (Byte × Bool)) : List (Byte × Bool) := bs ++ List.replicate ((8 - bs.length % 8) % 8) (0, false)

/-- A transfer cut into packets of 4,096 bytes at fixed offsets from its start (R497). -/
def State.sendTransfer (s : State) (l : Nat) (o : Outgoing) (bs : List (Byte × Bool)) : State :=
  let id := s.fabric.nextTransfer
  let s := { s with fabric := { s.fabric with nextTransfer := (id + 1) % 2 ^ 32 } }
  (chunks 4096 (bs.length / 4096 + 1) bs).zipIdx.foldl (fun s (part, i) =>
    s.sendData l (s.makePacket { o with index := i, target := o.target + 4096 * i, transfer := id, length := bs.length } (padTo8 part))) s

/-- The valid entry of a rank whose aperture is named (R46); none where the aperture is not bound to a valid rank. The spec does not
say what an FSEND, a BSEND or a COPY through the talus aperture of R348 does: the model finds no rank there and refuses it with OUT_OF_RANGE
(DESIGN CHOICE, log 65). -/
def State.apertureRank (s : State) (i : Nat) : Option (Nat × Nat) :=
  match s.plan with
  | some p => match p.apertures.getD i .unbound with
    | .rank r => if rankValid (s.rankEntry 0 r) then some (r, s.rankEntry 0 r) else none
    | _ => none
  | none => none

end Machine

end Sys2Proof
end

