-- ==== Sys2Proof/Machine/Transc.lean ====
section
/-! DEFINITION. The transcendental functions of R195: the exact function rounded once to binary32, computed as an enclosure
that is narrowed until both its ends round alike. -/

namespace Sys2Proof.Machine

/-- An enclosure of a real number: lo · 2^exp ≤ value ≤ hi · 2^exp. -/
structure Encl where
  lo : Int
  hi : Int
  exp : Int
  deriving DecidableEq, Repr

/-- The enclosure centre ± err at exponent e. -/
def Encl.around (c : Int) (err : Nat) (e : Int) : Encl := ⟨c - err, c + err, e⟩

/-- man · 2^e as a fixed-point number with p fraction bits, rounded down. -/
def toFixed (p : Nat) (man e : Int) : Int :=
  let k := e + p
  if 0 ≤ k then man * (2 ^ k.toNat : Nat) else man / (2 ^ (-k).toNat : Nat)

/-- Σ of the terms t, t·y/(a), … of an odd power series in fixed point: term n is y^n·x divided by (2n + 1). -/
def atanhSum (y2 : Int) (p : Nat) (alt : Bool) : Nat → Nat → Int → Int → Int
  | 0, _, _, acc => acc
  | fuel + 1, n, pow, acc =>
    if pow = 0 then acc
    else
      let t := pow / (2 * n + 1 : Nat)
      atanhSum y2 p alt fuel (n + 1) ((pow * y2) / (2 ^ p : Nat)) (if alt && n % 2 == 1 then acc - t else acc + t)

/-- ln 2 in fixed point: 2·atanh(1/3). -/
def ln2Fixed (p : Nat) : Int :=
  let x : Int := (2 ^ p : Nat) / 3
  2 * atanhSum ((x * x) / (2 ^ p : Nat)) p false (p + 8) 0 x 0

/-- arctan(1/n) in fixed point. -/
def atanInv (p n : Nat) : Int :=
  let x : Int := (2 ^ p : Nat) / (n : Int)
  atanhSum ((x * x) / (2 ^ p : Nat)) p true (p + 8) 0 x 0

/-- π in fixed point (Machin's formula). -/
def piFixed (p : Nat) : Int := 16 * atanInv p 5 - 4 * atanInv p 239

/-- Σ r^n / n! in fixed point. -/
def expSum (r : Int) (p : Nat) : Nat → Nat → Int → Int → Int
  | 0, _, _, acc => acc
  | fuel + 1, n, t, acc => if t = 0 then acc else expSum r p fuel (n + 1) ((t * r) / (2 ^ p : Nat) / (n + 1 : Nat)) (acc + t)

/-- Σ (−1)^n r^(2n+k) / (2n+k)! in fixed point, k = 0 for cosine and 1 for sine. -/
def trigSum (r2 : Int) (p : Nat) : Nat → Nat → Int → Int → Int
  | 0, _, _, acc => acc
  | fuel + 1, k, t, acc =>
    if t = 0 then acc else trigSum r2 p fuel (k + 2) (-((t * r2) / (2 ^ p : Nat) / ((k + 1) * (k + 2) : Nat))) (acc + t)

/-- e^(r · 2^-p) for a fixed-point r of any sign: (mantissa with p fraction bits, binary exponent). -/
def expFixed (p : Nat) (x : Int) : Int × Int :=
  let l := ln2Fixed p
  let k := x / l
  let r := x - k * l
  (expSum r p (p + 8) 0 (2 ^ p : Nat) 0, k)

/-- Natural logarithm of man · 2^e, man above zero, in fixed point: reduced to a mantissa from 3/4 to 3/2. -/
def lnFixed (p : Nat) (man e : Int) : Int :=
  let top := Nat.log2 man.natAbs
  let m1 := toFixed p man (-(top : Int))
  let big := decide (3 * (2 ^ p : Nat) / 2 ≤ m1)
  let m := if big then m1 / 2 else m1
  let k : Int := e + top + (if big then 1 else 0)
  let y := ((m - (2 ^ p : Nat)) * (2 ^ p : Nat)) / (m + (2 ^ p : Nat))
  2 * atanhSum ((y * y) / (2 ^ p : Nat)) p false (p + 8) 0 y 0 + k * ln2Fixed p

/-- Error allowance of the series above in units of their last place: every division truncates by at most one unit and at
most p + 8 terms, with the reductions' multiples, enter a sum. -/
def slack (p : Nat) : Nat := 64 * (p + 512)

/-- Enclosure of e^(man · 2^e). -/
def enclExp (p : Nat) (man e : Int) : Encl :=
  let (v, k) := expFixed p (toFixed p man e)
  .around v (slack p) (k - p)

/-- Enclosure of 2^(man · 2^e). -/
def enclExp2 (p : Nat) (man e : Int) : Encl :=
  let x := toFixed p man e
  let k := x / (2 ^ p : Nat)
  let f := x - k * (2 ^ p : Nat)
  let (v, j) := expFixed p ((f * ln2Fixed p) / (2 ^ p : Nat))
  .around v (slack p) (k + j - p)

/-- Enclosure of ln(man · 2^e). -/
def enclLog (p : Nat) (man e : Int) : Encl := .around (lnFixed p man e) (slack p) (-(p : Int))

/-- Enclosure of log2(man · 2^e). -/
def enclLog2 (p : Nat) (man e : Int) : Encl :=
  .around ((lnFixed p man e * (2 ^ p : Nat)) / ln2Fixed p) (4 * slack p) (-(p : Int))

/-- Enclosure of 1/(1 + e^(−x)). -/
def enclSigmoid (p : Nat) (man e : Int) : Encl :=
  -- for x ≤ 0: e^x / (1 + e^x); for x > 0: 1 − that at −x
  let (v, k) := expFixed p (toFixed p (-(man.natAbs : Int)) e)
  let t := toFixed (2 * p) v (k - p)
  let q := (t * (2 ^ (2 * p) : Nat)) / (t + (2 ^ (2 * p) : Nat))
  let err := slack p * 2 ^ p
  if man < 0 then
    -- keep the relative precision of e^x: work at its own scale
    let d := v + toFixed p 1 (p - k - p)
    let w := (v * (2 ^ p : Nat)) / d
    if k < -2 then .around w (8 * slack p) (-(p : Int)) else .around q err (-(2 * p : Nat))
  else .around ((2 ^ (2 * p) : Nat) - q) err (-(2 * p : Nat))

/-- Enclosure of tanh x. -/
def enclTanh (p : Nat) (man e : Int) : Encl :=
  let (v, k) := expFixed p (toFixed p (-(2 * man.natAbs : Int)) e)
  let t := toFixed p v (k - p)
  let q := (((2 ^ p : Nat) - t) * (2 ^ p : Nat)) / ((2 ^ p : Nat) + t)
  .around (if man < 0 then -q else q) (4 * slack p) (-(p : Int))

/-- Σ of erf's series with positive terms: t_(n+1) = t_n · 2x² / (2n + 3). -/
def erfSum (x2 : Int) (p : Nat) : Nat → Nat → Int → Int → Int
  | 0, _, _, acc => acc
  | fuel + 1, n, t, acc => if t = 0 then acc else erfSum x2 p fuel (n + 1) ((2 * t * x2) / (2 ^ p : Nat) / (2 * n + 3 : Nat)) (acc + t)

/-- Enclosure of erf x for |x| below 8. -/
def enclErf (p : Nat) (man e : Int) : Encl :=
  let g := p + 128
  let x := toFixed g (man.natAbs : Int) e
  let x2 := (x * x) / (2 ^ g : Nat)
  let s := erfSum x2 g (4 * g + 512) 0 x 0
  let (v, k) := expFixed g (-x2)
  let ex := toFixed g v (k - g)
  let rootPi : Int := Nat.sqrt ((piFixed g * (2 ^ g : Nat)).toNat)
  let r := ((2 * ((s * ex) / (2 ^ g : Nat))) * (2 ^ g : Nat)) / rootPi
  .around (if man < 0 then -r else r) (2 ^ 124) (-(g : Int))

/-- Enclosure of sin x (cos := false) or cos x, over the whole binary32 range: reduction by π/2 kept to 160 further bits. -/
def enclTrig (p : Nat) (cos : Bool) (man e : Int) : Encl :=
  let q := p + 160
  let half := piFixed (q + 8) / 512
  let x := toFixed q (man.natAbs : Int) e
  let k := x / half
  let r := (x - k * half) / (2 ^ 160 : Nat)
  let r2 := (r * r) / (2 ^ p : Nat)
  let quad := ((k + (if cos then 1 else 0)) % 4).toNat
  let v := if quad % 2 == 0 then trigSum r2 p (p + 8) 1 r 0 else trigSum r2 p (p + 8) 0 (2 ^ p : Nat) 0
  let v' := if quad < 2 then v else -v
  .around (if !cos && decide (man < 0) then -v' else v') (slack p) (-(p : Int))

/-- A finite nonzero value far above every binary32, or far below, of a sign: stands for results whose rounding does not
depend on more than that. -/
def hugeVal : Val := .fin 1 400
/-- See hugeVal. -/
def tinyVal (neg : Bool) : Val := .fin (if neg then -1 else 1) (-400)

/-- The first precision at which both ends of the enclosure round alike gives the result (R195). -/
def refine (encl : Nat → Encl) : List Nat → Option Rounded
  | [] => none
  | p :: ps =>
    let e := encl p
    let a := toF32 (.ofDyadic e.lo e.exp)
    let b := toF32 (.ofDyadic e.hi e.exp)
    if a = b ∧ (0 < e.lo ∨ e.hi < 0) then some a else refine encl ps

/-- Working precisions tried in turn. -/
def precisions : List Nat := [96, 224, 480, 992, 2016]

/-- A transcendental function of R195 at a finite nonzero binary32 value man · 2^e, op its code in R188. -/
def transcFinite (op code : Nat) (man e : Int) : Rounded :=
  let neg := decide (man < 0)
  let x := Val.fin man e
  let big (k : Int) : Bool := decide (k ≤ x.ilog2)
  let run (f : Nat → Encl) : Rounded := match refine f precisions with
    | some r => r
    | none => { code := (Config.unresolved op code).toNat, nonfinite := nonfiniteF32 (Config.unresolved op code).toNat }
  match op with
  | 0x14 => if big 8 then toF32 (if neg then tinyVal false else hugeVal) else run fun p => enclExp p man e
  | 0x15 =>
    if big 9 then toF32 (if neg then tinyVal false else hugeVal)
    else if x.floor.cmp x = 0 then toF32 (.fin 1 (toFixed 0 man e))
    else run fun p => enclExp2 p man e
  | 0x16 => if neg then toF32 (.nan false) else if x.cmp .one = 0 then { code := 0 } else run fun p => enclLog p man e
  | 0x17 =>
    if neg then toF32 (.nan false)
    else if man.natAbs == 2 ^ Nat.log2 man.natAbs then toF32 (.ofDyadic x.ilog2 0)
    else run fun p => enclLog2 p man e
  | 0x18 => if big 5 then toF32 (if neg then .fin (-(2 ^ 40 - 1)) (-40) else .fin (2 ^ 40 - 1) (-40)) else run fun p => enclTanh p man e
  | 0x19 => if big 8 then toF32 (if neg then tinyVal false else .fin (2 ^ 40 - 1) (-40)) else run fun p => enclSigmoid p man e
  | 0x1A => if big 3 then toF32 (if neg then .fin (-(2 ^ 40 - 1)) (-40) else .fin (2 ^ 40 - 1) (-40)) else run fun p => enclErf p man e
  | 0x1B => run fun p => enclTrig p false man e
  | _ => run fun p => enclTrig p true man e

/-- The table of special inputs of R195, and the finite case. -/
def transc (op code : Nat) : Rounded :=
  let out (v : Val) : Rounded := toF32 v
  match f32 code with
  | .nan _ => out (.nan false)
  | .inf neg => match op with
    | 0x14 => out (if neg then .zero false else .inf false)
    | 0x15 => out (if neg then .zero false else .inf false)
    | 0x16 => out (if neg then .nan false else .inf false)
    | 0x17 => out (if neg then .nan false else .inf false)
    | 0x18 => out (if neg then Val.one.negate else .one)
    | 0x19 => out (if neg then .zero false else .one)
    | 0x1A => out (if neg then Val.one.negate else .one)
    | _ => out (.nan false)
  | .zero neg => match op with
    | 0x14 => out .one
    | 0x15 => out .one
    | 0x16 => out (.inf true)
    | 0x17 => out (.inf true)
    | 0x19 => out (.fin 1 (-1))
    | 0x1C => out .one
    | _ => out (.zero neg)
  | .fin man e => transcFinite op code man e

end Sys2Proof.Machine
end

