-- ==== Sys2Proof/Machine/VectorUnit.lean ====
section
/-! DEFINITION. The vector engine's single-operation instructions (R180–R196, R242–R244): VOP, VCVT, VSPLIT, VPERM, VSETVL, VMOVS,
VLD and VST. -/

namespace Sys2Proof.Machine

/-! ### The operations of R188 -/

/-- How many of a, b, c an operation reads (R188). -/
def vopArity (op : Nat) : Nat :=
  match op with
  | 0x04 => 3
  | 0x0C => 3
  | 0x0F => 3
  | 0x01 => 2
  | 0x02 => 2
  | 0x03 => 2
  | 0x05 => 2
  | 0x06 => 2
  | 0x09 => 2
  | 0x0A => 2
  | 0x0B => 2
  | 0x10 => 2
  | _ => 1

/-- The exact result of an operation that is not transcendental, before its one rounding (R188–R190). -/
def vopVal (op : Nat) (a b c : Val) : Val :=
  let ordered := !a.isNaN && !b.isNaN
  match op with
  | 0x00 => a
  | 0x01 => a.add b
  | 0x02 => a.add b.negate
  | 0x03 => a.mul b
  | 0x04 => (a.mul b).add c
  | 0x05 => a.min' b
  | 0x06 => a.max' b
  | 0x07 => a.abs
  | 0x08 => a.negate
  | 0x09 => .ofBool (ordered && decide (a.cmp b < 0))
  | 0x0A => .ofBool (ordered && decide (a.cmp b ≤ 0))
  | 0x0B => .ofBool (ordered && decide (a.cmp b = 0))
  | 0x0C => if a.isNaN || a.isZero then c else b
  | 0x0D => a.floor
  | 0x0E => a.rint
  | 0x0F => (a.max' b).min' c
  | 0x10 => a.div b
  | 0x11 => a.sqrt
  | 0x12 => Val.one.div a
  | _ => a.rsqrt

/-- One operation on binary32 (R189, R195). -/
def vop32 (op a b c : Nat) : Rounded := if 0x14 ≤ op then transc op a else toF32 (vopVal op (f32 a) (f32 b) (f32 c))

/-- bfloat16 of an exact result in packed form (R191). -/
def toBF16 (v : Val) : Rounded :=
  match v with
  | .nan _ => { code := 0x7FC0, nonfinite := true }
  | v => fpBF16.convert .nearest false v

/-- One operation on one bfloat16 half (R191). -/
def vop16 (op a b c : Nat) : Rounded := toBF16 (vopVal op (fpBF16.decode a) (fpBF16.decode b) (fpBF16.decode c))

/-- One lane of a single operation: its 32 bits and its flags before stain (R181, R191, R192). -/
def vopLane (op : Nat) (packed : Bool) (a b c : Nat) : Nat × Nat :=
  if packed then
    let l := vop16 op (fld a 0 16) (fld b 0 16) (fld c 0 16)
    let h := vop16 op (fld a 16 16) (fld b 16 16) (fld c 16 16)
    (l.code + h.code <<< 16, l.flags false ||| h.flags false)
  else
    let r := vop32 op a b c
    (r.code, r.flags false)

/-! ### Lanes -/

/-- One lane's result: its bits, its stain, and its flags where it is not stained (R89). -/
structure LaneOut where
  code : Nat
  stain : Bool
  flags : Nat
  deriving DecidableEq, Repr

/-- Results put into lanes 0, 1, … of vector register v, and their flags raised (R185, R192). -/
def State.putLanes (s : State) (x : Issue) (v : Nat) (rs : List LaneOut) : State :=
  let s := s.onCore x.core fun k => k.setLanes v (rs.zipIdx.map fun (r, j) => (j, r.code, r.stain))
  s.raise x (rs.foldl (fun f r => if r.stain then f else f ||| r.flags) 0)

/-- Lane j of the vector register that slot i names. -/
def Issue.lane (x : Issue) (s : State) (i j : Nat) : Nat × Bool :=
  let k := s.core x.core
  (k.lane (Word.slot x.word i) j, k.laneStain (Word.slot x.word i) j)

/-- The active lanes. -/
def Issue.active (x : Issue) (s : State) : List Nat := List.range (s.core x.core).vl

/-- VOP (R185, R188–R193): a result is stained where an operand that the operation reads is. -/
def applyVop (x : Issue) (s : State) : State :=
  let op := fld x.word 57 6
  let n := vopArity op
  s.putLanes x (Word.slot x.word 0) ((x.active s).map fun j =>
    let a := x.lane s 1 j
    let b := x.lane s 2 j
    let c := x.lane s 3 j
    let r := vopLane op (bit x.word 63) a.1 b.1 c.1
    ⟨r.1, a.2 || (decide (1 < n) && b.2) || (decide (2 < n) && c.2), r.2⟩)

/-! ### Conversion (R194) -/

/-- A conversion to a 32-bit two's complement integer (R194): bits and flags. -/
def toInt32 (mode : Rounding) (v : Val) : Nat × Nat :=
  match v with
  | .nan _ => (0, fNonfinite)
  | .inf n => (if n then 0x80000000 else 0x7FFFFFFF, fNonfinite)
  | .zero _ => (0, 0)
  | .fin m e =>
    let q : Int := roundNat mode m.natAbs e
    let i := if m < 0 then -q else q
    if 0x7FFFFFFF < i then (0x7FFFFFFF, fOverflow)
    else if i < -0x80000000 then (0x80000000, fOverflow)
    else (unsigned 32 i, 0)

/-- The ledger entry that an instruction's slot E names, where its ledger bit is set (R626). -/
def Issue.ledger (x : Issue) (s : State) (flag : Nat) : Option Nat :=
  if bit x.word flag && bit (x.reg s 4) 12 then some (fld (x.reg s 4) 0 12) else none

/-- Magnitude of a value as a binary32 code (R112). -/
def magnitude (v : Val) : Nat := (toF32 v.abs).code

/-- The largest magnitude of a list of values as a binary32 code; NaN above all (R112). -/
def largest (vs : List Val) : Nat :=
  if vs.any Val.isNaN then 0x7FC00000 else (vs.map magnitude).foldl max 0

/-- A value under a ledger exponent (R109, R626). -/
def Val.under (v : Val) (k : Option Int) : Val := match k with
  | some k => v.scale k
  | none => v

/-- Bits of 32-bit lanes laid end to end. -/
def laneBits (xs : List (Nat × Bool)) : Nat := leNat (xs.flatMap fun a => leBytes 4 a.1)

/-- Elements packed from bit 0 of lane 0, each with the stain of the lanes it lies in (R92, R194). -/
def packedElems (bits n : Nat) (xs : List (Nat × Bool)) : List (Nat × Bool) :=
  (List.range n).map fun i =>
    (fld (laneBits xs) (bits * i) bits, (xs.getD (bits * i / 32) (0, false)).2 || (xs.getD ((bits * i + bits - 1) / 32) (0, false)).2)

/-- The source elements of a VCVT as exact values with their stain (R181, R194). -/
def vcvtSource (x : Issue) (s : State) : List (Val × Bool) :=
  let src := fld x.word 57 4
  let lanes := (x.active s).map fun j => x.lane s 1 j
  if fld x.word 68 2 == 2 then lanes.map fun a => (Val.ofDyadic (signed 32 a.1) 0, a.2)
  else if isMX src then
    (packedElems (elemBits src) lanes.length lanes).zipIdx.map fun (e, i) =>
      (decodeScaled src e.1 (fld (x.reg s 2) (8 * (i / 32)) 8), e.2 || x.regStain s 2)
  else lanes.map fun a => (decodeElem src (fld a.1 0 (elemBits src)), a.2)

/-- The rounding of lane j of a VCVT: domain 1 of R105 under the stream register. -/
def vcvtRounding (x : Issue) (s : State) (j : Nat) : Rounding :=
  if fld x.word 65 2 == 1 then .stochastic (philoxLane s.seed 1 x.core (fld x.word 70 12) j (x.reg s 3) x.step) else .nearest

/-- Whether R101 fixes rounding to nearest: an MX source into binary32, binary16 or bfloat16. -/
def mxNearest (src dst : Nat) : Bool := isMX src && decide (dst ≤ 2)

/-- One element of a VCVT into a format that is not MX (R100–R102, R194). -/
def vcvtElem (x : Issue) (s : State) (j : Nat) (v : Val) : Nat × Nat :=
  let w := x.word
  let mode := vcvtRounding x s j
  if fld w 68 2 == 1 then toInt32 mode v
  else
    let r := (fpOf (fld w 61 4)).convert (if mxNearest (fld w 57 4) (fld w 61 4) then .nearest else mode) (bit w 67) v
    (r.code, r.flags false)

/-- The blocks of a VCVT into an MX format (R93): scale code and element codes of each. -/
def vcvtBlocks (x : Issue) (s : State) (vs : List (Val × Bool)) : List (Nat × List Nat) :=
  (chunks 32 4 (vs.zipIdx.map fun (v, j) => (v.1, vcvtRounding x s j))).map (convertBlock (fld x.word 61 4))

/-- The destination lanes of a VCVT into an MX format: packed elements, a lane stained by any stained element in it, then 0. -/
def packLanes (bits : Nat) (codes : List Nat) (stains : List Bool) (lanes : Nat) : List LaneOut :=
  let v := codes.zipIdx.foldl (fun v (e, i) => v + e <<< (bits * i)) 0
  (List.range lanes).map fun k =>
    ⟨fld v (32 * k) 32, stains.zipIdx.any (fun (t, i) => t && decide (bits * i < 32 * (k + 1)) && decide (32 * k < bits * (i + 1))), 0⟩

/-- Issue checks of VCVT (R194, R222, R626). -/
def checkVcvt (x : Issue) (s : State) : Option IssueRefusal :=
  let w := x.word
  let mx := isMX (fld w 57 4) || isMX (fld w 61 4)
  firstOf [
    ((fld w 65 2 == 1 && x.regStain s 3) || (bit w 82 && x.regStain s 4), byStain),
    ((mx && (s.core x.core).vl % 32 != 0) || (match x.ledger s 82 with
      | some e => decide (s.scales.length ≤ e)
      | none => false), badField)]

/-- VCVT (R194). -/
def applyVcvt (x : Issue) (s : State) : State :=
  let w := x.word
  let src := vcvtSource x s
  let entry := x.ledger s 82
  let k := entry.map fun e => s.ledgerK e x.step
  let vs := src.map fun (v, t) => (v.under k, t)
  let after := match entry with
    | some e => s.amax e (largest (src.map Prod.fst)) (src.any Prod.snd)
    | none => s
  if isMX (fld w 61 4) then
    let bl := vcvtBlocks x s vs
    let scales := bl.zipIdx.foldl (fun n (b, i) => n + b.1 <<< (8 * i)) 0
    let lanes := packLanes (elemBits (fld w 61 4)) (bl.flatMap Prod.snd) (vs.map Prod.snd) vs.length
    let bad := vs.any fun (v, t) => !t && !v.isFinite
    ((after.putLanes x (Word.slot w 0) lanes).onCore x.core fun c => c.setS (Word.slot w 2) scales (vs.any Prod.snd)).raise x
      (if bad then fNonfinite else 0)
  else
    after.putLanes x (Word.slot w 0) (vs.zipIdx.map fun ((v, t), j) =>
      let r := vcvtElem x s j v
      ⟨r.1, t, r.2⟩)

/-- The split pair of a binary32 code (R125): hi and lo as bfloat16 codes. -/
def splitPair (a : Nat) : Nat × Nat :=
  match f32 a with
  | .nan n => (fpBF16.sign n + 0x7FC0, 0)
  | .inf n => (fpBF16.sign n + 0x7F80, 0)
  | v =>
    let hi := (fpBF16.convert (.stochastic 0) false v).code
    (hi, (fpBF16.convert (.stochastic 0) false (v.add (fpBF16.decode hi).negate)).code)

/-- VSPLIT (R194): hi to vd, lo to vd + 1. -/
def applyVsplit (x : Issue) (s : State) : State :=
  let src := (x.active s).map fun j => x.lane s 1 j
  let hi := src.map fun (a, t) => (⟨(splitPair a).1, t, 0⟩ : LaneOut)
  let lo := src.map fun (a, t) => (⟨(splitPair a).2, t, 0⟩ : LaneOut)
  (s.putLanes x (Word.slot x.word 0) hi).putLanes x (Word.slot x.word 0 + 1) lo

/-- Issue checks of VPERM (R187). -/
def checkVperm (x : Issue) (s : State) : Option IssueRefusal :=
  firstOf [((x.active s).any fun j => (x.lane s 2 j).2, byStain)]

/-- VPERM (R186). -/
def applyVperm (x : Issue) (s : State) : State :=
  let l := (s.core x.core).vl
  s.putLanes x (Word.slot x.word 0) ((x.active s).map fun j =>
    let i := fld (x.lane s 2 j).1 0 7
    if i < l then ⟨(x.lane s 1 i).1, (x.lane s 1 i).2, 0⟩ else ⟨0, false, fPermRange⟩)

/-- Issue checks of VSETVL (R184, R222). -/
def checkVsetvl (x : Issue) (s : State) : Option IssueRefusal :=
  let l := fld (x.reg s 0) 0 8
  firstOf [(x.regStain s 0, byStain), (l == 0 || decide (128 < l), badField)]

/-- VSETVL (R184). -/
def applyVsetvl (x : Issue) (s : State) : State := s.onCore x.core fun k => { k with vl := fld (x.reg s 0) 0 8 }

/-- VMOVS (R242). -/
def applyVmovs (x : Issue) (s : State) : State :=
  s.putLanes x (Word.slot x.word 0) ((x.active s).map fun _ => ⟨fld (x.reg s 1) 0 32, x.regStain s 1, 0⟩)

/-! ### Row loads and stores (R182, R243, R244) -/

/-- Bytes of an element of a VLD or VST width code (R243). -/
def rowWidth (w : Nat) : Nat := 4 >>> fld w 74 2

/-- Issue checks of VLD and VST: place 2 reaches the own core store (R244). -/
def checkRowMove (x : Issue) (s : State) : Option IssueRefusal :=
  if fld x.word 57 2 != 2 then none
  else firstOf [
    (x.regStain s 1, byStain),
    (decide (storeBytes < x.reg s 1 + rowWidth x.word * (s.core x.core).vl), outOfRange),
    (x.reg s 1 % 64 != 0, misaligned)]

/-- The bytes of n lanes' elements, by width. -/
def elemsOfBytes (width n : Nat) (bs : List (Byte × Bool)) : List LaneOut :=
  (List.range n).map fun j =>
    let r := numOf ((bs.drop (width * j)).take width)
    ⟨r.1, r.2, 0⟩

/-- The bytes that a VLD reads: a tile-buffer row, an accumulator row, plain or collapsed, or the core store. -/
def vldBytes (x : Issue) (s : State) (n : Nat) : List (Byte × Bool) :=
  let w := x.word
  match fld w 57 2 with
  | 0 => s.tileLoad x.core (fld w 59 3) (512 * fld w 62 12) n
  | 1 => (laneBytes ((List.range ((n + 3) / 4)).map fun j => s.accRead x.core (fld w 62 12) j (bit w 76))).take n
  | _ => s.load (storeAddr x.core (x.reg s 1)) n

/-- The counts of the reads of a VLD. -/
def vldNote (x : Issue) (s : State) (n : Nat) : State :=
  let w := x.word
  match fld w 57 2 with
  | 0 => s.noteTile x.core (fld w 59 3) (512 * fld w 62 12) n
  | 1 =>
    let s := s.noteRead (accAddr x.core (fld w 62 12) 0) n
    if bit w 76 then s.noteRead (accAddr x.core (fld w 62 12 + 128) 0) n else s
  | _ => s.noteRead (storeAddr x.core (x.reg s 1)) n

/-- VLD (R185, R242): lanes 0 to L − 1 of one row. -/
def applyVld (x : Issue) (s : State) : State :=
  let width := rowWidth x.word
  let l := (s.core x.core).vl
  let rs := elemsOfBytes width l (vldBytes x s (width * l))
  (vldNote x s (width * l)).putLanes x (Word.slot x.word 0) rs

/-- VST (R154, R185, R242): the low bits of lanes 0 to L − 1, with their stain, as one operation. -/
def applyVst (x : Issue) (s : State) : State :=
  let w := x.word
  let width := rowWidth w
  let bs := (x.active s).flatMap fun j => (leBytes width (x.lane s 0 j).1).map fun b => (b, (x.lane s 0 j).2)
  match fld w 57 2 with
  | 0 => s.putTile x.core (fld w 59 3) (512 * fld w 62 12) bs
  | 1 => s.put (x.core + 1) (accAddr x.core (fld w 62 12) 0) bs
  | _ => s.put (x.core + 1) (storeAddr x.core (x.reg s 1)) bs

end Sys2Proof.Machine
end

