-- ==== Sys2Proof/Machine/MoverUnit.lean ====
section
/-! DEFINITION. The data mover (R47, R125, R245, R246, R384, R461, R494): COPY, FILL and DSPLIT, over device memory, tile buffers and
the host window. -/

namespace Sys2Proof.Machine

/-- A place that the mover reads or writes: a tile buffer's offset, or a device address. -/
inductive Place where
  | tile (t : Nat)
  | device
  deriving DecidableEq, Repr

/-- Whether an address lies in the fabric window. -/
def inFabric (a : Nat) : Bool := decide (fabricBase ≤ a) && decide (a < hostBase)

/-- The aperture of a fabric-window address and the offset in it (R46). -/
def apertureAt (a : Nat) : Nat × Nat := ((a - fabricBase) / 2 ^ 40, (a - fabricBase) % 2 ^ 40)

/-- Whether a range of the fabric window is refused: its aperture is not bound to a valid rank, or the range runs beyond the HBM3 of that
rank's holder, or, where that is this module, meets a shadow region (R45, R46, R222). -/
def State.apertureBad (s : State) (a n : Nat) : Bool :=
  match s.apertureRank (apertureAt a).1 with
  | some (_, e) => decide (rankBytes e < (apertureAt a).2 + n) || (rankOwn e && !s.reachable (apertureAt a).2 n)
  | none => true

/-- Whether a range of the place is refused with OUT_OF_RANGE (R222, R246). -/
def State.placeBad (s : State) (p : Place) (a n : Nat) : Bool :=
  match p with
  | .tile _ => decide (65536 < a + n)
  | .device => if inFabric a then s.apertureBad a n else decide (2 ^ 48 < a + n) || !s.reachable a n

/-- The host bus address of a host-window address (R47). -/
def State.hostAddress (s : State) (a : Nat) : Nat := (a - hostBase + s.link.windowOffset.toNat) % 2 ^ 64

/-- Whether an aperture is bound to this module's own rank: it then reaches the module's own interleaved HBM3 (R46). -/
def State.ownAperture (s : State) (i : Nat) : Bool := match s.apertureRank i with
  | some (_, e) => rankOwn e
  | none => false

/-- Bytes of a place with their stain; a host read that completes with an error delivers the words concerned stained (R447). What another
module's memory holds is free (log 65). -/
def State.placeLoad (s : State) (c : Nat) (p : Place) (a n : Nat) : List (Byte × Bool) :=
  match p with
  | .tile t => s.tileLoad c t a n
  | .device =>
    if hostBase ≤ a then
      (List.range n).map fun i => (s.hostByte (s.hostAddress a + i), s.hostError (s.hostAddress (a + i) - (a + i) % 8) 8)
    else if inFabric a then
      let (k, off) := apertureAt a
      if s.ownAperture k then s.load off n else (List.range n).map fun i => Config.remoteByte s.free (off + i)
    else s.load a n

/-- The counts and events of such a read (R447, R503). -/
def State.placeNote (s : State) (c step : Nat) (p : Place) (a n : Nat) : State :=
  match p with
  | .tile t => s.noteTile c t a n
  | .device =>
    if hostBase ≤ a then
      if s.hostError (s.hostAddress a) n then
        s.linkError 0 c step (s.hostAddress a)
      else s
    else if inFabric a then
      let (k, off) := apertureAt a
      if s.ownAperture k then s.noteRead off n else { s with free := s.free + 1 }
    else s.noteRead a n

/-- A write through an aperture: packets of FSEND data without a remote signal, discarded for a lost rank (R46, R245, R424; log 65). -/
def State.remoteStore (s : State) (step a : Nat) (bs : List (Byte × Bool)) : State :=
  match s.apertureRank (apertureAt a).1 with
  | none => s
  | some (_, e) =>
    if rankLost e then s
    else s.sendTransfer 0 { type := 0x01, address := rankAddress e, old := rankOld e, step := step, ochre := s.predecessorOpen step,
                            target := (apertureAt a).2 } bs

/-- The pieces of a host-window write, cut at 64-byte boundaries (R461). -/
def hostUnits : Nat → Nat → List (Byte × Bool) → List (Nat × List (Byte × Bool))
  | 0, _, _ => []
  | _, _, [] => []
  | fuel + 1, a, bs =>
    let k := 64 - a % 64
    (a, bs.take k) :: hostUnits fuel (a + k) (bs.drop k)

/-- A write to the host window: a unit that holds a stained word is not written and its event is (R47, R499). -/
def State.hostStore (s : State) (c step a : Nat) (bs : List (Byte × Bool)) : State :=
  (hostUnits (bs.length / 64 + 2) a bs).foldl (fun s (u, part) =>
    if part.any Prod.snd then s.event 0x0A 0 c step (u % 2 ^ 48) else s.hostWrite (s.hostAddress u) (part.map Prod.fst)) s

/-- A write of bytes to a place. -/
def State.placeSave (s : State) (c step : Nat) (p : Place) (a : Nat) (bs : List (Byte × Bool)) : State :=
  match p with
  | .tile t => s.putTile c t a bs
  | .device =>
    if hostBase ≤ a then s.hostStore c step a bs else if inFabric a then s.remoteStore step a bs else s.put (c + 1) a bs

/-- A place of an instruction: a tile buffer where the bit is set. -/
def placeOf (w flag num : Nat) : Place := if bit w flag then .tile (fld w num 3) else .device

/-- Shape and pitches of COPY and FILL (R246): bytes per row, rows, source pitch, destination pitch. -/
structure Shape where
  bytes : Nat
  rows : Nat
  src : Nat
  dst : Nat
  deriving DecidableEq, Repr

def shapeOf (shape pitch : Nat) : Shape := ⟨fld shape 0 32, fld shape 32 20 + 1, fld pitch 0 32, fld pitch 32 32⟩

/-- The addresses of the rows. -/
def Shape.starts (h : Shape) (a pitch : Nat) : List Nat := (List.range h.rows).map fun i => a + i * pitch

/-- Whether a row of a place is refused with OUT_OF_RANGE (R222, R246). The ranges are those of the rows: bytes between two rows are
not moved (DEDUCED, log 28). -/
def State.rowsBad (s : State) (p : Place) (h : Shape) (a pitch : Nat) : Bool := (h.starts a pitch).any fun r => s.placeBad p r h.bytes

/-- The source of a COPY: a device address has 48 bits (R40). -/
def copyShape (x : Issue) (s : State) : Shape := shapeOf (x.reg s 2) (x.reg s 3)

/-- Whether a place's range lies in the host window. -/
def inHost (p : Place) (a : Nat) : Bool := p == .device && decide (hostBase ≤ a)

/-- Whether a row lies in the host window: the window is the last region of the map. -/
def Shape.inHost (h : Shape) (p : Place) (a pitch : Nat) : Bool := (h.starts a pitch).any fun r => Machine.inHost p r

/-- Issue checks of COPY (R222, R246, R384): whole ranges before any byte moves. -/
def checkCopy (x : Issue) (s : State) : Option IssueRefusal :=
  let h := copyShape x s
  let src := placeOf x.word 57 58
  let dst := placeOf x.word 61 62
  firstOf [
    (x.anyStain s [0, 1, 2, 3], byStain),
    (h.bytes == 0, badField),
    (s.rowsBad src h (x.reg s 0) h.src || s.rowsBad dst h (x.reg s 1) h.dst, outOfRange),
    (h.inHost dst (x.reg s 1) h.dst && s.predecessorOpen x.step, wrongState)]

/-- The end of one operation that has written a place in several pieces: the lanes of a tile buffer or of accumulator memory that only the
pieces together wrote whole (R154, R182). -/
def State.closePieces (s : State) (c : Nat) (p : Place) (ps : List (Nat × List (Byte × Bool))) : State :=
  match p with
  | .tile t => { s with tiles := s.tiles.closeLanes (ps.map fun x => (tileAddr c t x.1, x.2)) }
  | .device => { s with mem := s.mem.closeLanes (ps.filter fun x => decide (accBase ≤ x.1) && decide (x.1 < 0x031020000000)) }

/-- COPY (R246): rows in ascending order, with their stain. -/
def applyCopy (x : Issue) (s : State) : State :=
  let h := copyShape x s
  let src := placeOf x.word 57 58
  let dst := placeOf x.word 61 62
  let a := x.reg s 0
  let b := x.reg s 1
  let r := (List.range h.rows).foldl (fun (r : State × List (Nat × List (Byte × Bool))) i =>
    let bs := r.1.placeLoad x.core src (a + i * h.src) h.bytes
    ((r.1.placeNote x.core x.step src (a + i * h.src) h.bytes).placeSave x.core x.step dst (b + i * h.dst) bs, r.2 ++ [(b + i * h.dst, bs)])) (s, [])
  r.1.closePieces x.core dst r.2

/-- Issue checks of FILL (R246, R384, R494). -/
def checkFill (x : Issue) (s : State) : Option IssueRefusal :=
  let h := copyShape x s
  let dst := placeOf x.word 61 62
  firstOf [
    (x.anyStain s [1, 2, 3], byStain),
    (h.bytes == 0, badField),
    (s.rowsBad dst h (x.reg s 1) h.dst, outOfRange),
    (x.reg s 1 % 8 != 0 || h.bytes % 8 != 0 || h.dst % 8 != 0, misaligned),
    (h.inHost dst (x.reg s 1) h.dst && s.predecessorOpen x.step, wrongState)]

/-- The pattern's bytes over n bytes. -/
def patternBytes (p n : Nat) : List (Byte × Bool) := (List.range n).map fun i => (BitVec.ofNat 8 (p >>> (8 * (i % 8))), false)

/-- FILL (R494): the pattern, unstained, to every word of every row. -/
def applyFill (x : Issue) (s : State) : State :=
  let h := copyShape x s
  let dst := placeOf x.word 61 62
  let p := x.reg s 0
  let b := x.reg s 1
  (List.range h.rows).foldl (fun s i =>
    let a := b + i * h.dst
    if dst == .device && decide (a < fabricBase) then s.fillRange a h.bytes (BitVec.ofNat 64 p)
    else s.placeSave x.core x.step dst a (patternBytes p h.bytes)) s

/-- Element count of a DSPLIT (R246). -/
def dsplitCount (x : Issue) (s : State) : Nat := fld (x.reg s 3) 0 32

/-- Issue checks of DSPLIT (R222, R246, R384). -/
def checkDsplit (x : Issue) (s : State) : Option IssueRefusal :=
  let n := dsplitCount x s
  firstOf [
    (x.anyStain s [0, 1, 2, 3], byStain),
    (n == 0, badField),
    (s.placeBad .device (x.reg s 0) (4 * n) || s.placeBad .device (x.reg s 1) (2 * n) || s.placeBad .device (x.reg s 2) (2 * n), outOfRange),
    (x.reg s 0 % 4 != 0 || x.reg s 1 % 2 != 0 || x.reg s 2 % 2 != 0, misaligned),
    ((inHost .device (x.reg s 1) || inHost .device (x.reg s 2)) && s.predecessorOpen x.step, wrongState)]

/-- DSPLIT (R125): the split pairs of consecutive binary32 elements. -/
def applyDsplit (x : Issue) (s : State) : State :=
  let n := dsplitCount x s
  let bs := s.placeLoad x.core .device (x.reg s 0) (4 * n)
  let es := (List.range n).map fun i => let e := numOf ((bs.drop (4 * i)).take 4); (splitPair e.1, e.2)
  let hi := es.flatMap fun (p, t) => (leBytes 2 p.1).map fun b => (b, t)
  let lo := es.flatMap fun (p, t) => (leBytes 2 p.2).map fun b => (b, t)
  let b := x.reg s 1
  let c := x.reg s 2
  (((s.placeNote x.core x.step .device (x.reg s 0) (4 * n)).placeSave x.core x.step .device b hi).placeSave x.core x.step .device c lo).closePieces
    x.core .device [(b, hi), (c, lo)]

end Sys2Proof.Machine
end

