-- ==== Sys2Proof/Machine/CodecUnit.lean ====
section
/-! DEFINITION. The M-die codecs (R316–R346): blocks, the block index, EPL, FDL and BQL, and PACK, UNPACK, SHIP and FETCH. -/

namespace Sys2Proof.Machine

/-! ### Entries and index (R319, R328–R330) -/

/-- Blocks of a tensor, and of one frame (R328). -/
def ActEntry.blocks (e : ActEntry) : Nat := e.bytes / 4096
def ActEntry.frameBlocks (e : ActEntry) : Nat := max 1 (e.bytes / (4096 * max 1 e.frames))

/-- Whether an entry ships to host memory. -/
def ActEntry.toHost (e : ActEntry) : Bool := e.policy == 2 && !e.talus

/-- Whether its elements are an MXFP8 E4M3 array whose scales BQL reads (R340). -/
def ActEntry.scaled (e : ActEntry) : Bool := e.codec == 3 && e.fmt == 5

/-- Fields of an index entry (R329). -/
def ixOffset (v : Nat) : Nat := fld v 0 32
def ixLength (v : Nat) : Nat := fld v 32 9
def ixCoding (v : Nat) : Nat := fld v 41 3
def ixWithheld (v : Nat) : Bool := bit v 44

/-- Length of a BQL payload in 16-byte units (R341). -/
def bqlLength (e : ActEntry) : Nat :=
  match e.fmt == 5, e.target == 9 with
  | false, false => 100
  | false, true => 68
  | true, false => 200
  | true, true => 136

/-- Whether an index entry is refused for its bits (R327, R329, R330). -/
def badIndex (e : ActEntry) (v : Nat) : Bool :=
  let n := ixLength v
  fld v 45 19 != 0 || (ixWithheld v && !e.toHost) || (match ixCoding v with
    | 0 => n != 256
    | 1 => n == 0 || decide (255 < n)
    | 2 => decide (n < 4) || decide (255 < n)
    | 3 => e.codec != 3 || n != bqlLength e
    | 4 => n != 0
    | _ => true)

/-- The index entry of a block with its stain. -/
def State.blockIndex (s : State) (e : ActEntry) (b : Nat) : Nat × Bool := numOf (s.load (e.indexBase + 8 * b) 8)

/-! ### Bit packing -/

/-- Fields packed from bit 0, each least significant bit first (R335). -/
def packFields : List (Nat × Nat) → Nat
  | [] => 0
  | (v, w) :: rest => v + packFields rest <<< w

/-- The n bytes of a payload, padded with zeros to 16 bytes (R331). -/
def payloadBytes (n x : Nat) : List Byte := leBytes (roundUp n 16) x

/-! ### EPL (R334, R335) -/

/-- Width and exponent width of an element format; none where EPL does not take it (R334). -/
def eplWidths : Nat → Option (Nat × Nat)
  | 0 => some (32, 8) | 1 => some (16, 5) | 2 => some (16, 8) | 3 => some (8, 4) | 4 => some (8, 5) | 5 => some (8, 4) | 6 => some (8, 5)
  | _ => none

/-- Elements of w bits of a block. -/
def blockElems (w : Nat) (bs : List Byte) : List Nat := (chunks (w / 8) 4096 bs).map leNat

/-- Exponent field of an element, and its rest: sign, then mantissa. -/
def eplExp (w x c : Nat) : Nat := fld c (w - 1 - x) x
def eplRest (w x c : Nat) : Nat := c / 2 ^ (w - 1) * 2 ^ (w - 1 - x) + c % 2 ^ (w - 1 - x)

/-- The element of an exponent field and a rest. -/
def eplElem (w x e r : Nat) : Nat := r / 2 ^ (w - 1 - x) * 2 ^ (w - 1) + e * 2 ^ (w - 1 - x) + r % 2 ^ (w - 1 - x)

/-- The fields of one group of 64 elements (R335). -/
def eplGroup (w x : Nat) (g : List Nat) : List (Nat × Nat) :=
  let es := g.map (eplExp w x)
  let base := es.foldl min (es.headD 0)
  let range := es.foldl max 0 - base
  let d := if range = 0 then 0 else Nat.log2 range + 1
  [(base, x), (d, 4)] ++ es.map (fun e => (e - base, d)) ++ g.map fun c => (eplRest w x c, w - x)

/-- The EPL payload of a block: its length in bytes before padding, and its bits. -/
def eplEncode (w x : Nat) (bs : List Byte) : List Byte :=
  let fs := (chunks 64 64 (blockElems w bs)).flatMap (eplGroup w x)
  payloadBytes (((fs.map Prod.snd).sum + 7) / 8) (packFields fs)

/-- The groups of an EPL payload from a bit position on. -/
def eplGroups (w x n : Nat) : Nat → Nat → List Nat
  | 0, _ => []
  | k + 1, pos =>
    let base := fld n pos x
    let d := fld n (pos + x) 4
    let p := pos + x + 4
    let q := p + 64 * d
    (List.range 64).map (fun i => eplElem w x ((base + fld n (p + d * i) d) % 2 ^ x) (fld n (q + (w - x) * i) (w - x))) ++
      eplGroups w x n k (q + 64 * (w - x))

/-- The block that an EPL payload holds. -/
def eplDecode (w x : Nat) (p : List Byte) : List Byte := (eplGroups w x (leNat p) (512 / w) 0).flatMap fun c => leBytes (w / 8) c

/-! ### FDL (R336–R339) -/

/-- The 64-bit words of a block. -/
def blockWords (bs : List Byte) : List Nat := (chunks 8 512 bs).map leNat

/-- The FDL payload of a block against its reference (R337). -/
def fdlEncode (bs ref : List Byte) : List Byte :=
  let xs := (List.zipWith (fun a b => a ^^^ b) (blockWords bs) (blockWords ref)).zipIdx.filter fun p => p.1 != 0
  let map := xs.foldl (fun m p => m + 2 ^ p.2) 0
  leBytes 64 map ++ xs.flatMap (fun p => leBytes 8 p.1) ++ (if xs.length % 2 == 1 then leBytes 8 0 else [])

/-- The words of an FDL block from its map, the XOR words and the reference. -/
def fdlWords (map : Nat) : Nat → List Nat → List Nat → List Nat
  | _, _, [] => []
  | i, xs, r :: rs =>
    if bit map i then (xs.headD 0 ^^^ r) :: fdlWords map (i + 1) (xs.drop 1) rs else r :: fdlWords map (i + 1) xs rs

/-- The block that an FDL payload and its reference hold. -/
def fdlDecode (p ref : List Byte) : List Byte :=
  (fdlWords (leNat (p.take 64)) 0 (blockWords (p.drop 64)) (blockWords ref)).flatMap (leBytes 8)

/-! ### BQL (R340–R343) -/

/-- Address of the scale of MX block i of source block b: one byte for each MX block, in order. -/
def scaleAt (e : ActEntry) (b i : Nat) : Nat := e.scaleAddr + 128 * b + i

/-- The exact values of the MX blocks of a source block (R340). -/
def bqlValues (e : ActEntry) (scales : List Nat) (bs : List Byte) : List (List Val) :=
  if e.fmt == 5 then (chunks 32 128 (blockElems 8 bs)).zipIdx.map fun (g, i) => g.map fun c => decodeScaled 5 c (scales.getD i 0)
  else (chunks 32 64 (blockElems 16 bs)).map fun g => g.map fpBF16.decode

/-- One MX block requantised: whether it keeps the bound, its scale code and its element codes (R340). -/
def bqlBlock (e : ActEntry) (xs : List Val) : Bool × Nat × List Nat :=
  let (sc, cs) := convertBlock e.target (xs.map fun v => (v, Rounding.nearest))
  let ys := cs.map fun c => decodeScaled e.target c sc
  let amax := xs.foldl (fun (a : Val) v => if a.cmp v.abs < 0 then v.abs else a) (.zero false)
  let bound := amax.scale (-(e.beta : Int))
  let ok := xs.all Val.isFinite && (List.zipWith (fun (x y : Val) => decide (((y.add x.negate).abs).cmp bound ≤ 0)) xs ys).all id
  (ok, sc, cs)

/-- The BQL payload of a block where every MX block keeps the bound (R340, R341). -/
def bqlEncode (e : ActEntry) (scales : List Nat) (bs : List Byte) : Option (List Byte) :=
  let rs := (bqlValues e scales bs).map (bqlBlock e)
  if rs.all Prod.fst then
    let w := elemBits e.target
    let cs := rs.flatMap fun r => r.2.2
    some (rs.map (fun r => BitVec.ofNat 8 r.2.1) ++ leBytes (cs.length * w / 8) (packFields (cs.map fun c => (c, w))))
  else none

/-- The exact values that a BQL payload holds, by MX block (R343). -/
def bqlDecode (e : ActEntry) (p : List Byte) : List (List Val) :=
  let n := if e.fmt == 5 then 128 else 64
  let w := elemBits e.target
  let bits := leNat (p.drop n)
  (List.range n).map fun g => (List.range 32).map fun i => decodeScaled e.target (fld bits (w * (32 * g + i)) w) ((p.getD g 0).toNat)

/-- The scale code that UNPACK gives an MX block of an MXFP8 source (R343). The formula gives no limit: a code that would fall below 0 is 0,
and the elements are then rounded to nearest even (DESIGN CHOICE, log 67). -/
def bqlScale (ys : List Val) : Nat :=
  match ys.foldl (fun (a : Val) v => if a.cmp v.abs < 0 then v.abs else a) (.zero false) with
  | .fin m x => (max 0 (min 254 ((Val.fin m x).ilog2 - 7 + 127))).toNat
  | _ => 0x7F

/-- The source-format bytes of a BQL block (R343). -/
def bqlBytes (e : ActEntry) (ys : List (List Val)) : List Byte :=
  if e.fmt == 5 then
    ys.flatMap fun g => g.map fun v => BitVec.ofNat 8 (fpE4M3.convert .nearest true (v.scale (127 - (bqlScale g : Int)))).code
  else ys.flatMap fun g => g.flatMap fun v => leBytes 2 (fpBF16.convert .nearest false v).code

/-! ### Coding a block (R332, R336, R345) -/

/-- A coded block: coding, and payload with its stain. -/
structure Coded where
  coding : Nat
  payload : List (Byte × Bool)
  deriving DecidableEq, Repr

/-- The reference block in the frame buffer (R336, R338): none for a keyframe, or where it holds a stained word. -/
def fdlReference (e : ActEntry) (frames : SMap (List (Byte × Bool))) (entry b : Nat) : Option (List (Byte × Bool)) :=
  if b / e.frameBlocks % max 1 e.kf == 0 then none
  else
    let r := SMap.get [] frames (entry * 65536 + b % e.frameBlocks)
    if r.any Prod.snd then none else some r

/-- The codec's payload of an unstained block, with its coding (R332 rule 3); none where it has none shorter than raw. -/
def codecPayload (e : ActEntry) (scales : List Nat) (ref : Option (List (Byte × Bool))) (bs : List Byte) : Option (Nat × List Byte) :=
  let epl := (eplWidths e.fmt).map fun (w, x) => (1, eplEncode w x bs)
  match e.codec, ref with
  | 1, _ => epl
  | 2, none => epl
  | 2, some r => some (2, fdlEncode bs (r.map Prod.fst))
  | 3, _ => match bqlEncode e scales bs with
    | some p => some (3, p)
    | none => epl
  | _, _ => none

/-- The coding of a block (R332). A payload that the codec forms from a stained scale byte is stained (R498). -/
def codeBlock (e : ActEntry) (scales : List (Nat × Bool)) (ref : Option (List (Byte × Bool))) (src : List (Byte × Bool)) : Coded :=
  let bs := src.map Prod.fst
  let t := scales.any Prod.snd
  if src.any Prod.snd || e.codec == 0 then ⟨0, src⟩
  else if bs.all fun b => b == 0 then ⟨4, []⟩
  else match codecPayload e (scales.map Prod.fst) ref bs with
    | some (c, p) => if p.length < 4096 then ⟨c, p.map fun b => (b, t)⟩ else ⟨0, src⟩
    | none => ⟨0, src⟩

/-- The flag of BQL's conversion of a block (R89, R93, R340): NONFINITE where a value not stained is NaN or infinite, in an MX block whose scale byte
is not stained either. -/
def bqlFlags (e : ActEntry) (scales : List (Nat × Bool)) (src : List (Byte × Bool)) : Nat :=
  let bs := src.map Prod.fst
  if e.codec != 3 || src.any Prod.snd || bs.all (fun b => b == 0) then 0
  else if (bqlValues e (scales.map Prod.fst) bs).zipIdx.any fun (xs, i) => !(scales.getD i (0, false)).2 && !(xs.all Val.isFinite) then fNonfinite
  else 0

/-- Whether a block is withheld (R345): no stained byte goes to host memory. -/
def Coded.withheld (c : Coded) (e : ActEntry) : Bool := e.toHost && c.payload.any Prod.snd

/-! ### PACK and SHIP (R331, R344, R345) -/

/-- The run of an entry in a step (R331, R349). -/
def State.actRun (s : State) (entry step : Nat) : ActRun :=
  (s.acts.find? fun a => a.entry == entry && a.step == step).getD ⟨entry, step, 0, 0, false, 0⟩

/-- The state with a run put in place of the one before. -/
def State.setActRun (s : State) (a : ActRun) : State :=
  { s with acts := s.acts.filter (fun b => !(b.entry == a.entry && b.step == a.step)) ++ [a] }

/-- Source class 2, number m: an event of an M-die. -/
def State.mEvent (s : State) (code m step detail : Nat) : State := s.event code 2 m step detail

/-- A FETCH of an entry in a step has completed (R349). -/
def State.countFetch (s : State) (entry step : Nat) : State :=
  let r := s.actRun entry step
  s.setActRun { r with fetches := r.fetches + 1 }

/-- Whether an entry's last FETCH of a step has completed: every FETCH word of the plan that names it (R349). -/
def State.lastFetched (s : State) (p : Plan) (entry step : Nat) : Bool :=
  decide (p.fetches.count entry ≤ (s.actRun entry step).fetches) && p.fetches.contains entry

/-- An entry becomes unavailable in a step (R349). -/
def State.makeUnavailable (s : State) (entry step : Nat) : State := s.setActRun { s.actRun entry step with unavailable := true }

/-- One talus packet to the bound lender, by L-die 0. Its target is the 40-bit field of R409: an offset of 2⁴⁰ or more, for which the spec gives no
refusal, goes out modulo 2⁴⁰; with no lender bound nothing is sent, in a plan without a talus aperture too (DESIGN CHOICE, log 86). -/
def State.talusPacket (s : State) (type step target id len : Nat) (bs : List (Byte × Bool)) : State :=
  match s.talus.bound with
  | some a =>
    let o : Outgoing := { type := type, address := a, step := step, ochre := s.predecessorOpen step, target := target,
                          transfer := id, length := len }
    s.sendData 0 (s.makePacket o bs)
  | none => s

/-- A payload written at its place (R331, R344, R345). -/
def State.putPayload (s : State) (e : ActEntry) (m entry step off : Nat) (c : Coded) : State :=
  let at' := e.copyBase + 16 * off
  if e.policy == 1 then s.put (mdieWriter m) at' c.payload
  else if e.toHost then
    if c.withheld e then s.mEvent 0x0A m step entry else s.hostWrite (s.hostAddress at') (c.payload.map Prod.fst)
  else
    let id := s.fabric.nextTransfer
    if c.payload.isEmpty then s
    else ({ s with fabric := { s.fabric with nextTransfer := (id + 1) % 2 ^ 32 } } : State).talusPacket 0x06 step at' id c.payload.length c.payload

/-- One block packed or shipped; an entry that is unavailable is left alone, and one that overflows becomes so (R331). -/
def State.packBlock (s : State) (e : ActEntry) (m entry step b : Nat) : State :=
  let r := s.actRun entry step
  if r.unavailable then s
  else
    let src := s.load (e.home + 4096 * b) 4096
    let scales := if e.scaled then (List.range 128).map fun i => numOf (s.load (scaleAt e b i) 1) else []
    let d := s.mdie m
    let c := codeBlock e scales (if e.codec == 2 then fdlReference e d.frames entry b else none) src
    let units := if c.withheld e then 256 else c.payload.length / 16
    let s := s.noteRead (e.home + 4096 * b) 4096
    let s := if e.scaled then s.noteRead (scaleAt e b 0) 128 else s
    let s := s.raiseStep step (bqlFlags e scales src)
    let s := if e.codec == 2 then s.setMdie m { d with frames := SMap.set [] d.frames (entry * 65536 + b % e.frameBlocks) src } else s
    if e.capacity < 16 * (r.offset + units) then (s.mEvent 0x09 m step (entry + b <<< 14)).makeUnavailable entry step
    else
      let ix := r.offset % 2 ^ 32 + units <<< 32 + (if c.withheld e then 0 else c.coding) <<< 41 + b2n (c.withheld e) <<< 44
      ((s.putPayload e m entry step r.offset c).putNum (mdieWriter m) (e.indexBase + 8 * b) 8 ix false).setActRun
        { r with nextBlock := b + 1, offset := r.offset + units }

/-- PACK and SHIP (R324, R331): the blocks of the range in ascending order. -/
def State.packRange (s : State) (e : ActEntry) (m entry step first count : Nat) : State :=
  (List.range count).foldl (fun s i => s.packBlock e m entry step (first + i)) s

/-! ### UNPACK and FETCH (R327, R339, R343–R346) -/

/-- The first block of the chain that a range decodes (R339). -/
def chainStart (e : ActEntry) (first : Nat) : Nat :=
  if e.codec == 2 then first / e.frameBlocks / max 1 e.kf * max 1 e.kf * e.frameBlocks else first

/-- The blocks whose index entries a range reads. -/
def chainBlocks (e : ActEntry) (first count : Nat) : List Nat :=
  (List.range (first + count - chainStart e first)).map fun i => chainStart e first + i

/-- The first block of a range whose index entry is refused, and whether for its stain (R327). -/
def State.refusedBlock (s : State) (e : ActEntry) (first count : Nat) : Option (Nat × Bool) :=
  (chainBlocks e first count).findSome? fun b =>
    let (v, t) := s.blockIndex e b
    if t then some (b, true) else if badIndex e v then some (b, false) else none

/-- A refused codec operation (R327). -/
def State.refuseCodec (s : State) (m entry step : Nat) (r : Nat × Bool) : State :=
  (s.mEvent 0x04 m step (entry + r.1 <<< 14 + b2n r.2 <<< 46)).markStain step

/-- A block decoded from its payload (R332, R339, R343). A stained byte of a coded payload stains the block; the words of an FDL
block take the stain of the reference too. -/
def State.decodeBlock (s : State) (e : ActEntry) (pay : Nat → List (Byte × Bool)) : Nat → Nat → List (Byte × Bool)
  | 0, _ => List.replicate 4096 (0, true)
  | fuel + 1, b =>
    let v := (s.blockIndex e b).1
    let p := pay b
    let t := p.any Prod.snd
    let bs := p.map Prod.fst
    if ixWithheld v then (List.range 4096).map fun i => (Config.withheldByte s.free i, true)
    else match ixCoding v with
      | 0 => p
      | 1 => match eplWidths e.fmt with
        | some (w, x) => (eplDecode w x bs).map fun c => (c, t)
        | none => p
      | 2 =>
        let ref := if e.frameBlocks ≤ b then s.decodeBlock e pay fuel (b - e.frameBlocks) else List.replicate 4096 (0, true)
        List.zipWith (fun c r => (c, t || r.2)) (fdlDecode bs (ref.map Prod.fst)) ref
      | 3 => (bqlBytes e (bqlDecode e bs)).map fun c => (c, t)
      | _ => List.replicate 4096 (0, false)

/-- One block delivered into the home region, and for a BQL block of an MXFP8 source the new scales (R343). -/
def State.deliverBlock (s : State) (e : ActEntry) (pay : Nat → List (Byte × Bool)) (b : Nat) : State :=
  let out := s.decodeBlock e pay 65 b
  let v := (s.blockIndex e b).1
  let p := pay b
  let s := s.put (mdieWriter e.mdie) (e.home + 4096 * b) out
  if e.scaled && ixCoding v == 3 && !ixWithheld v then
    let t := p.any Prod.snd
    s.put (mdieWriter e.mdie) (scaleAt e b 0) ((bqlDecode e (p.map Prod.fst)).map fun g => (BitVec.ofNat 8 (bqlScale g), t))
  else s

/-- The payload of a block in the packed region (R331). -/
def State.packedPayload (s : State) (e : ActEntry) (b : Nat) : List (Byte × Bool) :=
  let v := (s.blockIndex e b).1
  s.load (e.copyBase + 16 * ixOffset v) (16 * ixLength v)

/-- Host bus address of a shipped block's payload (R344). -/
def State.shippedAddress (s : State) (e : ActEntry) (b : Nat) : Nat := s.hostAddress (e.copyBase + 16 * ixOffset (s.blockIndex e b).1)

/-- The payload of a block in host memory: a read that completes with an error stains the block (R346). -/
def State.hostPayload (s : State) (e : ActEntry) (b : Nat) : List (Byte × Bool) :=
  let n := 16 * ixLength (s.blockIndex e b).1
  let a := s.shippedAddress e b
  let bad := decide (0 < n) && s.hostError a n
  (s.hostBytes a n).map fun c => (c, bad)

/-- The link events of the host reads of a FETCH (R346). -/
def State.noteHostReads (s : State) (e : ActEntry) (m step : Nat) (bs : List Nat) : State :=
  bs.foldl (fun s b =>
    let v := (s.blockIndex e b).1
    let n := 16 * ixLength v
    if !ixWithheld v && decide (0 < n) && s.hostError (s.shippedAddress e b) n then
      s.linkError 2 m step (s.shippedAddress e b)
    else s) s

/-- The counts of the index reads of a range. -/
def State.noteIndex (s : State) (e : ActEntry) (first count : Nat) : State :=
  s.noteRead (e.indexBase + 8 * chainStart e first) (8 * (chainBlocks e first count).length)

/-- A range delivered from payloads that the state before holds. -/
def State.deliverRange (s : State) (e : ActEntry) (pay : Nat → List (Byte × Bool)) (first count : Nat) : State :=
  let s := (List.range count).foldl (fun s i => s.deliverBlock e pay (first + i)) s
  { s with free := s.free + 1 }

/-- UNPACK (R327, R339). -/
def State.unpackRange (s : State) (e : ActEntry) (m entry step first count : Nat) : State :=
  if (s.actRun entry step).unavailable then s
  else match s.refusedBlock e first count with
    | some r => (s.noteIndex e first count).refuseCodec m entry step r
    | none =>
      let s' := (chainBlocks e first count).foldl (fun s' b =>
        s'.noteRead (e.copyBase + 16 * ixOffset (s.blockIndex e b).1) (16 * ixLength (s.blockIndex e b).1)) (s.noteIndex e first count)
      s'.deliverRange e (s.packedPayload e) first count

/-- The reads that a talus FETCH sends, one for each block that has a payload (R347, R411). -/
def State.talusReads (s : State) (e : ActEntry) (m entry step : Nat) (bs : List Nat) : State :=
  bs.foldl (fun s b =>
    let v := (s.blockIndex e b).1
    let n := 16 * ixLength v
    if n = 0 then s
    else
      let id := s.fabric.nextTransfer
      let r : TalusRead := ⟨m, entry, step, b, n, id⟩
      let s : State := { s with fabric := { s.fabric with nextTransfer := (id + 1) % 2 ^ 32 },
                                talus := { s.talus with reads := s.talus.reads ++ [r] } }
      s.talusPacket 0x04 step (e.copyBase + 16 * ixOffset v) id 8 ((leBytes 8 n).map fun c => (c, false))) s

/-- The payload of a block that a talus read has delivered. -/
def State.talusPayload (s : State) (m b : Nat) : List (Byte × Bool) :=
  ((s.talus.data.find? fun d => d.mdie == m && d.block == b).map TalusData.bytes).getD []

/-- A talus FETCH whose reads have all been answered delivers its range; its data is then dropped. -/
def State.deliverTalus (s : State) (e : ActEntry) (m entry step first count : Nat) : State :=
  let s' := if (s.actRun entry step).unavailable then s else s.deliverRange e (s.talusPayload m) first count
  { s' with talus := { s'.talus with data := s'.talus.data.filter fun d => d.mdie != m } }

/-- FETCH (R344, R346, R349): from host memory at once; from a talus store when every read has been answered. -/
def State.fetchRange (s : State) (e : ActEntry) (m entry step first count : Nat) : State :=
  if (s.actRun entry step).unavailable then s
  else match s.refusedBlock e first count with
    | some r => (s.noteIndex e first count).refuseCodec m entry step r
    | none =>
      let s' := s.noteIndex e first count
      if e.toHost then (s'.noteHostReads e m step (chainBlocks e first count)).deliverRange e (s.hostPayload e) first count
      else
        let sent := s'.talusReads e m entry step (chainBlocks e first count)
        if sent.talus.reads.any fun r => r.mdie == m then sent else sent.deliverTalus e m entry step first count

end Sys2Proof.Machine
end

