-- ==== Sys2Proof/Machine/KernelUnit.lean ====
section
/-! DEFINITION. Element kernels (R197–R208, R242–R244, R356, R626): KLOAD and KAPPLY; and the region they share with the
reduction unit. -/

namespace Sys2Proof.Machine

/-! ### Images (R198–R200) -/

/-- Fields of a kernel header (R198). -/
def kSteps (h : Nat) : Nat := fld h 0 6
def kInputs (h : Nat) : Nat := fld h 6 2
def kOut1 (h : Nat) : Bool := bit h 8
def kSource (h i : Nat) : Nat := fld h (9 + 3 * i) 3

/-- Source code i of a step word (R199). -/
def stepSource (w i : Nat) : Nat := fld w (9 + 5 * i) 5

/-- How many sources a kernel step reads: DRAW reads a (R201). -/
def stepArity (op : Nat) : Nat := vopArity op

/-- Whether a step word breaks R199 or R200 in a kernel of n inputs. -/
def badStep (n w : Nat) : Bool :=
  decide (0x1D < fld w 0 6) || fld w 24 8 != 0 ||
    (List.range (stepArity (fld w 0 6))).any fun i =>
      let c := stepSource w i
      c == 15 || decide (23 < c) || (decide (8 ≤ c) && decide (c ≤ 10) && decide (n ≤ c - 8))

/-- Whether an image of 32-bit words breaks R198 to R200. -/
def badImage (ws : List Nat) : Bool :=
  match ws with
  | [] => true
  | h :: steps => kSteps h == 0 || decide (48 < kSteps h) || bit h 15 || steps.any (badStep (kInputs h))

/-- The n words of an image in a core's store, each with its stain. -/
def State.imageWords (s : State) (c addr n : Nat) : List (Nat × Bool) :=
  (List.range n).map fun i => numOf (s.load (storeAddr c (addr + 4 * i)) 4)

/-- The words of a KLOAD's image: the header, and its steps where the header gives a legal count and they lie in the store. -/
def kloadWords (x : Issue) (s : State) : List (Nat × Bool) :=
  let a := x.reg s 0
  if storeBytes < a + 4 then []
  else
    let h := (s.imageWords x.core a 1).headD (0, true)
    if h.2 || kSteps h.1 == 0 || decide (48 < kSteps h.1) || decide (storeBytes < a + 4 + 4 * kSteps h.1) then [h]
    else s.imageWords x.core a (1 + kSteps h.1)

/-- Issue checks of KLOAD (R197, R222). -/
def checkKload (x : Issue) (s : State) : Option IssueRefusal :=
  let a := x.reg s 0
  let ws := kloadWords x s
  let beyond := decide (storeBytes < a + 4 + 4 * kSteps (ws.headD (0, true)).1)
  firstOf [
    (x.anyStain s [0] || ws.any Prod.snd, byStain),
    (!ws.isEmpty && badImage (ws.map Prod.fst), badField),
    (ws.isEmpty || beyond, outOfRange),
    (a % 64 != 0, misaligned)]

/-- KLOAD (R197). -/
def applyKload (x : Issue) (s : State) : State :=
  let ws := kloadWords x s
  (s.noteRead (storeAddr x.core (x.reg s 0)) (4 * ws.length)).onCore x.core fun k =>
    { k with kslots := SMap.set [] k.kslots (fld x.word 57 4) (ws.map Prod.fst) }

/-! ### Regions (R202, R242) -/

/-- A tile region: origin and size. -/
structure TileRegion where
  y0 : Nat
  x0 : Nat
  ny : Nat
  nx : Nat
  deriving DecidableEq, Repr

/-- The region that a register holds (R242). -/
def tileRegion (r : Nat) : TileRegion := ⟨fld r 0 7, fld r 8 7, fld r 16 7 + 1, fld r 24 7 + 1⟩

/-- Whether a region breaks R202. -/
def TileRegion.bad (g : TileRegion) : Bool := decide (128 < g.y0 + g.ny) || decide (128 < g.x0 + g.nx)

/-- Tile rows of a region, and its columns. -/
def TileRegion.rows (g : TileRegion) : List Nat := (List.range g.ny).map fun i => g.y0 + i
def TileRegion.cols (g : TileRegion) : List Nat := (List.range g.nx).map fun j => g.x0 + j

/-- Bytes of one element of a tile-buffer format (R182). -/
def tileWidth (fmt : Nat) : Nat := elemBits fmt / 8

/-- The binary32 code of an element of a tile-buffer format: widened exactly (R200). A binary32 element keeps its bits. -/
def widen (fmt code : Nat) : Nat := if fmt == 0 then code else (fpB32.convert .nearest false ((fpOf fmt).decode code)).code

/-- An element of a tile buffer in a format, widened, with its stain. -/
def State.tileElem (s : State) (c t fmt i j : Nat) : Nat × Bool :=
  let r := numOf (s.tileLoad c t (512 * i + tileWidth fmt * j) (tileWidth fmt))
  (widen fmt r.1, r.2)

/-- Fields of a kernel input (R243): an element at tile row i, column j. -/
def State.kernelInput (s : State) (c f i j : Nat) : Nat × Bool :=
  let id := fld f 2 5
  match fld f 0 2 with
  | 0 => s.tileElem c id (fld f 8 4) i j
  | 1 => s.accRead c (128 * id + i) j false
  | 2 => s.accRead c (128 * id + i) j true
  | _ =>
    let l := if bit f 7 then i else j
    ((s.core c).lane id l, (s.core c).laneStain id l)

/-! ### Running a kernel (R201, R203, R207) -/

/-- What a kernel reads beside its inputs: seed, step, constants, coordinate bases. -/
structure KernelEnv where
  seed : Nat
  step : Nat
  consts : List (Nat × Bool)
  rowBase : Nat
  colBase : Nat
  deriving DecidableEq, Repr

/-- DRAW (R201, R356): u · 2⁻³² toward zero; NaN where the layer id is no integer from 0 to 65,535. -/
def drawF32 (seed step layer y x : Nat) : Nat :=
  let id : Option Nat := match f32 layer with
    | .zero _ => some 0
    | .fin m e =>
      let v := if 0 ≤ e then m * (2 ^ e.toNat : Nat) else if m % (2 ^ (-e).toNat : Nat) = 0 then m / (2 ^ (-e).toNat : Nat) else -1
      if 0 ≤ v ∧ v ≤ 65535 then some v.toNat else none
    | _ => none
  match id with
  | none => 0x7FC00000
  | some l =>
    let e := y * 131072 + x
    let u := philox seed (e / 4) (2 <<< 28 + l <<< 12) step (e % 4)
    (fpB32.convert (.stochastic 0) false (.ofDyadic u (-32))).code

/-- A step's source (R200) at an element. -/
def KernelEnv.source (v : KernelEnv) (ins temps : List (Nat × Bool)) (y x code : Nat) : Nat × Bool :=
  if code < 8 then temps.getD code (0, false)
  else if code ≤ 10 then ins.getD (code - 8) (0, false)
  else match code with
    | 11 => (natF32 (v.rowBase + y), false)
    | 12 => (natF32 (v.colBase + x), false)
    | 13 => (0, false)
    | 14 => (one32, false)
    | _ => v.consts.getD (code - 16) (0, false)

/-- One step (R199, R203): the temporaries after it. -/
def KernelEnv.run (v : KernelEnv) (ins : List (Nat × Bool)) (y x : Nat) (temps : List (Nat × Bool)) (w : Nat) : List (Nat × Bool) :=
  let op := fld w 0 6
  let src (i : Nat) : Nat × Bool := v.source ins temps y x (stepSource w i)
  let stain := (List.range (stepArity op)).any fun i => (src i).2
  let r := if op == 0x1D then drawF32 v.seed v.step (src 0).1 (v.rowBase + y) (v.colBase + x)
    else (vop32 op (src 0).1 (src 1).1 (src 2).1).code
  temps.set (fld w 6 3) (r, stain)

/-- The temporaries after the last step for one element; they start at +0, unstained (R203). -/
def KernelEnv.element (v : KernelEnv) (image : List Nat) (ins : List (Nat × Bool)) (y x : Nat) : List (Nat × Bool) :=
  (image.drop 1).foldl (v.run ins y x) (List.replicate 8 (0, false))

/-! ### KAPPLY -/

/-- The image in the slot that KAPPLY names, and its header. -/
def kapplyImage (x : Issue) (s : State) : List Nat := SMap.get [] (s.core x.core).kslots (fld x.word 57 4)

def kapplyIn (w i : Nat) : Nat := fld w (64 + 12 * i) 12
def kapplyOut (w i : Nat) : Nat := fld w (100 + 10 * i) 10

/-- Input fields that the kernel declares. -/
def kapplyInputs (w h : Nat) : List Nat := (List.range (kInputs h)).map (kapplyIn w)

/-- Output numbers that the kernel enables. -/
def kapplyOuts (h : Nat) : List Nat := if kOut1 h then [0, 1] else [0]

/-- Whether an output field names a tile buffer that an input names with another element width (R243). -/
def widthClash (out input : Nat) : Bool :=
  !bit out 0 && fld input 0 2 == 0 && fld out 1 5 == fld input 2 5 && tileWidth (fld out 6 4) != tileWidth (fld input 8 4)

/-- Checks of KAPPLY against the kernel's header at issue (R202, R243). -/
def badKernelUse (w h : Nat) : Bool :=
  (List.range 3).any (fun i => decide (kInputs h ≤ i) && kapplyIn w i != 0) ||
    (!kOut1 h && kapplyOut w 1 != 0) ||
    (kOut1 h && fld (kapplyOut w 0) 0 6 == fld (kapplyOut w 1) 0 6) ||
    (kapplyOuts h).any fun o => (kapplyInputs w h).any fun f => widthClash (kapplyOut w o) f

/-- Issue checks of KAPPLY (R202, R222, R243, R626). -/
def checkKapply (x : Issue) (s : State) : Option IssueRefusal :=
  let w := x.word
  let im := kapplyImage x s
  firstOf [
    (x.anyStain s [0, 1] || (fld w 61 2 == 1 && x.regStain s 3) || (bit w 120 && x.regStain s 4), byStain),
    ((tileRegion (x.reg s 0)).bad || (!im.isEmpty && badKernelUse w (im.headD 0)) || (match x.ledger s 120 with
      | some e => decide (s.scales.length ≤ e)
      | none => false), badField),
    (im.isEmpty, wrongState)]

/-- What the kernel reads beside its inputs. -/
def kapplyEnv (x : Issue) (s : State) : KernelEnv :=
  let k := s.core x.core
  let b := Word.slot x.word 2
  { seed := s.seed, step := x.step, consts := (List.range 8).map fun n => (fld (k.sval (b + n)) 0 32, k.sstain (b + n)),
    rowBase := fld (x.reg s 1) 0 16, colBase := fld (x.reg s 1) 16 16 }

/-- The final temporaries of every element of the region, by tile row and then column. -/
def kapplyTemps (x : Issue) (s : State) : List (List (List (Nat × Bool))) :=
  let g := tileRegion (x.reg s 0)
  let im := kapplyImage x s
  let v := kapplyEnv x s
  let fs := kapplyInputs x.word (im.headD 0)
  g.rows.map fun i => g.cols.map fun j => v.element im (fs.map fun f => s.kernelInput x.core f i j) i j

/-- Whether an output converts under the ledger entry (R626): FP8 E5M2, or bfloat16 in a priming variant. -/
def outUnderLedger (w out : Nat) : Bool := !bit out 0 && (fld out 6 4 == 4 || (fld out 6 4 == 2 && Word.variant w == 1))

/-- The exponent that an output converts under. -/
def outExponent (x : Issue) (s : State) (out : Nat) : Option Int :=
  if outUnderLedger x.word out then (x.ledger s 120).map fun e => s.ledgerK e x.step else none

/-- Whether a KAPPLY output saturates: the bit applies to FP8 E4M3 and E5M2 outputs only (R102). -/
def outSaturates (w fmt : Nat) : Bool := bit w 63 && (fmt == 3 || fmt == 4)

/-- One output of one element (R205, R206): code and flags. The steps of R290 write −∞ scores and logarithms through such outputs
and reductions, which raise NONFINITE by R206 and R212 also where R291 says "none from softmax" (log 62). -/
def kernelOutput (x : Issue) (s : State) (o i j : Nat) (t : Nat × Bool) : LaneOut :=
  let w := x.word
  let out := kapplyOut w o
  let u := philoxLane s.seed 1 x.core i j ((x.reg s 3 + o) % 2 ^ 32) x.step
  let fmt := if bit out 0 then 0 else fld out 6 4
  let r := if fmt == 0 then (⟨t.1, nonfiniteF32 t.1, false⟩ : Rounded)
    else (fpOf fmt).convert (roundingOf (fld w 61 2) u) (outSaturates w fmt) ((f32 t.1).under (outExponent x s out))
  ⟨r.code, t.2, r.flags t.2⟩

/-- The elements of one output, by tile row. -/
def kapplyResults (x : Issue) (s : State) (temps : List (List (List (Nat × Bool)))) (o : Nat) : List (List LaneOut) :=
  let g := tileRegion (x.reg s 0)
  let src := kSource ((kapplyImage x s).headD 0) o
  (temps.zip g.rows).map fun (row, i) => (row.zip g.cols).map fun (es, j) => kernelOutput x s o i j (es.getD src (0, false))

/-- Bytes of results in a width. -/
def resultBytes (width : Nat) (rs : List LaneOut) : List (Byte × Bool) :=
  rs.flatMap fun r => (leBytes width r.code).map fun b => (b, r.stain)

/-- One output written, row by row (R154, R182, R204). -/
def State.putOutput (s : State) (x : Issue) (g : TileRegion) (out : Nat) (rows : List (List LaneOut)) : State :=
  (rows.zip g.rows).foldl (fun s (rs, i) =>
    if bit out 0 then s.put (x.core + 1) (accAddr x.core (128 * fld out 1 5 + i) g.x0) (resultBytes 4 rs)
    else
      let wd := tileWidth (fld out 6 4)
      s.putTile x.core (fld out 1 5) (512 * i + wd * g.x0) (resultBytes wd rs)) s

/-- The counts of the reads of a tile input, by its kernel-input field. -/
def State.noteTileInput (s : State) (c f : Nat) (g : TileRegion) : State :=
  let id := fld f 2 5
  g.rows.foldl (fun s i =>
    match fld f 0 2 with
    | 0 => s.noteTile c id (512 * i + tileWidth (fld f 8 4) * g.x0) (tileWidth (fld f 8 4) * g.nx)
    | 1 => s.noteRead (accAddr c (128 * id + i) g.x0) (4 * g.nx)
    | 2 => (s.noteRead (accAddr c (128 * id + i) g.x0) (4 * g.nx)).noteRead (accAddr c (128 * id + 128 + i) g.x0) (4 * g.nx)
    | _ => s) s

/-- The contribution of KAPPLY's outputs to the entry's pending amax (R112, R626). -/
def kapplyAmax (x : Issue) (s : State) (temps : List (List (List (Nat × Bool)))) (h : Nat) (after : State) : State :=
  match x.ledger s 120 with
  | none => after
  | some e =>
    let os := (kapplyOuts h).filter fun o => outUnderLedger x.word (kapplyOut x.word o)
    let vs := os.flatMap fun o => temps.flatten.map fun es => es.getD (kSource h o) (0, false)
    if vs.isEmpty then after else after.amax e (largest (vs.map fun v => f32 v.1)) (vs.any Prod.snd)

/-- KAPPLY (R202–R208): every element's steps run, then the outputs are written, each element's flags raised. -/
def applyKapply (x : Issue) (s : State) : State :=
  let w := x.word
  let g := tileRegion (x.reg s 0)
  let h := (kapplyImage x s).headD 0
  let temps := kapplyTemps x s
  let outs := (kapplyOuts h).map fun o => (kapplyOut w o, kapplyResults x s temps o)
  let s1 := (kapplyInputs w h).foldl (fun s f => s.noteTileInput x.core f g) s
  let s2 := outs.foldl (fun s (out, rows) => s.putOutput x g out rows) s1
  let fl := outs.foldl (fun f (_, rows) => rows.flatten.foldl (fun f r => f ||| r.flags) f) 0
  (kapplyAmax x s temps h s2).raise x fl

end Sys2Proof.Machine
end

