-- ==== Sys2Proof/Machine/UpdateUnit.lean ====
section
/-! DEFINITION. The parameter stores and the update engine (R373–R380, R389, R501). -/

namespace Sys2Proof.Machine

/-! ### Banks (R374, R375) -/

/-- Whether a group keeps a second moment (R377, R378). -/
def Group.second (g : Group) : Bool := g.optimizer == 0 || g.optimizer == 1 || (g.optimizer == 4 && g.kernelBOn)

/-- Items of a bucket in a bank (R374, R460): 0 parameters, 1 residues, 2 and 3 moments. -/
def Group.items (g : Group) : List Nat := if g.second then [0, 1, 2, 3] else [0, 1, 2]

/-- Bytes of one element of an item. -/
def itemWidth (item : Nat) : Nat := if item < 2 then 2 else 4

/-- Offset of an item of a bucket of n elements, each item padded to 64 bytes (R374). -/
def itemOffset (n item : Nat) : Nat :=
  let short := roundUp (2 * n) 64
  match item with
  | 0 => 0
  | 1 => short
  | 2 => 2 * short
  | _ => 2 * short + roundUp (4 * n) 64

/-- Bytes of a bucket in a bank. -/
def Bucket.bankBytes (b : Bucket) (g : Group) : Nat := itemOffset b.len 3 + (if g.second then roundUp (4 * b.len) 64 else 0)

/-- Stack-view address of an item of a bucket in a bank (R374). -/
def Plan.itemAddr (p : Plan) (b : Bucket) (bank item : Nat) : Nat :=
  match p.work.areas[b.mdie]? with
  | some a => a.storeBase + bank * a.bankSize + 64 * b.offset + itemOffset b.len item
  | none => 0

/-- The bank that holds a step's ochre state (R375): by its place among the steps in flight. -/
def State.ochreBank (s : State) (step : Nat) : Nat :=
  match s.flight.findIdx? fun r => r.number == step with
  | some i => (s.store.bank + 1 + i) % 3
  | none => s.store.bank

/-- The bank that the step reads (R380): committed, or the ochre bank of the step before while that is in flight. -/
def State.inputBank (s : State) (step : Nat) : Nat :=
  if s.predecessorOpen step then s.ochreBank (stepBefore step) else s.store.bank

/-- Powers p1 and p2 of a group in a bank. -/
def State.powers (s : State) (bank g : Nat) : Nat × Nat :=
  let v := SMap.get 0 s.store.powers (64 * bank + g)
  (fld v 0 32, fld v 32 32)

/-- The state with a group's powers in a bank written. -/
def State.setPowers (s : State) (bank g p1 p2 : Nat) : State :=
  { s with store := { s.store with powers := SMap.set 0 s.store.powers (64 * bank + g) (p1 + p2 <<< 32) } }

/-! ### One element (R378, R379) -/

/-- What an element's update reads: its gradient after the factor, the parameter's pair, the moments' words. -/
structure UpdIn where
  g : Flagged
  p : Nat
  r : Nat
  m : Nat
  v : Nat
  deriving DecidableEq, Repr

/-- What it writes: the parameter's pair, the moments' words, and the flags of each operation with the inputs that its result depends on
(R89), a set of the source codes 8 to 11 of R379: gradient, parameter, first and second moment. -/
structure UpdOut where
  p : Nat
  r : Nat
  m : Nat
  v : Nat
  raised : List (Nat × Nat)
  deriving DecidableEq, Repr

/-- Sets of inputs: gradient, parameter, first moment, second moment. -/
def onG : Nat := 0x100
def onW : Nat := 0x200
def onM : Nat := 0x400
def onV : Nat := 0x800

/-- What is the same for every element of a group in a step. -/
structure UpdEnv where
  group : Group
  lr : Nat
  p1 : Nat
  p2 : Nat
  step : Nat
  kernelA : List Nat
  kernelB : List Nat
  seed : Nat
  tag : Nat
  deriving DecidableEq, Repr

def Group.const (g : Group) (i : Nat) : Nat := g.k.getD i 0

/-- The flags of a list of roundings. -/
def flagsOf (l : List Rounded) : Nat := l.foldl (fun f r => f ||| r.flags false) 0

/-- The flags of roundings that depend on the same inputs. -/
def raisedBy (deps : Nat) (l : List Rounded) : Nat × Nat := (flagsOf l, deps)

/-- A moment's binary32 value (R98). -/
def Group.moment (g : Group) (w : Nat) : Nat := if g.pairMoments then pairToF32 (fld w 0 16) (fld w 16 16) else w

/-- A moment with an increment added (R99). -/
def Group.addMoment (g : Group) (w d : Nat) : Flagged :=
  if g.pairMoments then
    let (p, r, bad) := toPair ((pairVal (fld w 0 16) (fld w 16 16)).add (f32 d))
    ⟨p + r <<< 16, if bad then fNonfinite else 0⟩
  else (addF32 w d).flagged

/-- Whether a moment's word holds NaN or an infinity. -/
def Group.badMoment (g : Group) (w : Nat) : Bool := if g.pairMoments then fld w 7 8 == 255 else nonfiniteF32 w

/-- w + δ (R99), with the moments and what was raised so far; δ depends on the inputs `deps`. -/
def finish (x : UpdIn) (delta deps m v : Nat) (raised : List (Nat × Nat)) : UpdOut :=
  let (p, r, bad) := toPair ((pairVal x.p x.r).add (f32 delta))
  ⟨p, r, m, v, (if bad then fNonfinite else 0, deps ||| onW) :: raised⟩

/-- sign(c) of R378. -/
def signF32 (c : Nat) : Nat :=
  match f32 c with
  | .nan _ => 0x7FC00000
  | .zero _ => 0
  | v => if v.neg then 0xBF800000 else one32

/-- AdamW and Adam (R378). -/
def UpdEnv.adam (e : UpdEnv) (x : UpdIn) (decoupled : Bool) : UpdOut :=
  let k := e.group.const
  let w := pairToF32 x.p x.r
  let g0 := fmaF32 (k 6) w x.g.code
  let g := if decoupled then x.g.code else g0.code
  let onGrad := if decoupled then onG else onG ||| onW
  let d1 := subF32 g (e.group.moment x.m)
  let dm := mulF32 (k 2) d1.code
  let m := e.group.addMoment x.m dm.code
  let gg := mulF32 g g
  let d2 := subF32 gg.code (e.group.moment x.v)
  let dv := mulF32 (k 4) d2.code
  let v := e.group.addMoment x.v dv.code
  let a := subF32 one32 e.p1
  let b := subF32 one32 e.p2
  let mh := divF32 (e.group.moment m.code) a.code
  let vh := divF32 (e.group.moment v.code) b.code
  let q := sqrtF32 vh.code
  let n := addF32 q.code (k 5)
  let u := divF32 mh.code n.code
  let uw := fmaF32 (k 6) w u.code
  let last := if decoupled then uw else u
  let l := mulF32 e.lr last.code
  let onDelta := onGrad ||| onM ||| onV ||| (if decoupled then onW else 0)
  finish x (negF32 l.code) onDelta m.code v.code [(x.g.flags, onG), (if decoupled then 0 else g0.flags false, onGrad),
    raisedBy (onGrad ||| onM) [d1, dm, mh], (m.flags, onGrad ||| onM), raisedBy onGrad [gg],
    raisedBy (onGrad ||| onV) [d2, dv, vh, q, n], (v.flags, onGrad ||| onV), raisedBy 0 [a, b], raisedBy (onGrad ||| onM ||| onV) [u],
    raisedBy onDelta [last, l]]

/-- SGD with momentum (R378). -/
def UpdEnv.sgd (e : UpdEnv) (x : UpdIn) : UpdOut :=
  let k := e.group.const
  let g := fmaF32 (k 6) (pairToF32 x.p x.r) x.g.code
  let dm := fmaF32 (k 7) (e.group.moment x.m) g.code
  let m := e.group.addMoment x.m dm.code
  let l := mulF32 e.lr (e.group.moment m.code)
  let all := onG ||| onW ||| onM
  finish x (negF32 l.code) all m.code x.v [(x.g.flags, onG), raisedBy (onG ||| onW) [g], raisedBy all [dm, l], (m.flags, all)]

/-- Lion (R378). -/
def UpdEnv.lion (e : UpdEnv) (x : UpdIn) : UpdOut :=
  let k := e.group.const
  let m0 := e.group.moment x.m
  let d := subF32 x.g.code m0
  let c := fmaF32 (k 2) d.code m0
  let u := fmaF32 (k 6) (pairToF32 x.p x.r) (signF32 c.code)
  let l := mulF32 e.lr u.code
  let dm := mulF32 (k 4) d.code
  let m := e.group.addMoment x.m dm.code
  let both := onG ||| onM
  finish x (negF32 l.code) (both ||| onW) m.code x.v [(x.g.flags, onG), raisedBy both [d, c, dm], (m.flags, both), raisedBy (both ||| onW) [u, l]]

/-- A source of an M-die kernel step (R379): 8 to 12 are g, w, m, v and the step. -/
def UpdEnv.source (e : UpdEnv) (x : UpdIn) (temps : List Nat) (code : Nat) : Nat :=
  if code < 8 then temps.getD code 0
  else match code with
    | 8 => x.g.code
    | 9 => pairToF32 x.p x.r
    | 10 => e.group.moment x.m
    | 11 => e.group.moment x.v
    | 12 => (toF32 (.ofDyadic e.step 0)).code
    | 13 => 0
    | 14 => one32
    | _ => e.group.const (code - 16)

/-- The temporaries after an M-die kernel's steps. An element of a bucket has no row and column: the element index of its DRAW is free
(R356). -/
def UpdEnv.runKernel (e : UpdEnv) (image : List Nat) (x : UpdIn) (i : Nat) : List Nat :=
  (image.drop 1).foldl (fun temps w =>
    let op := fld w 0 6
    let src (n : Nat) : Nat := e.source x temps (stepSource w n)
    let r := if op == 0x1D then drawF32 e.seed e.step (src 0) ((Config.mdieElement e.tag i).toNat / 131072) ((Config.mdieElement e.tag i).toNat % 131072)
      else (vop32 op (src 0) (src 1) (src 2)).code
    temps.set (fld w 6 3) r) (List.replicate 8 0)

/-- Which of the sources 8 to 12 each temporary depends on: a set of source codes as bits. -/
def kernelReads (image : List Nat) : List Nat :=
  (image.drop 1).foldl (fun (ds : List Nat) w =>
    let dep := (List.range (stepArity (fld w 0 6))).foldl (fun d n =>
      let c := stepSource w n
      d ||| (if c < 8 then ds.getD c 0 else if c < 13 then 2 ^ c else 0)) 0
    ds.set (fld w 6 3) dep) (List.replicate 8 0)

/-- Flags of a kernel output (R206). -/
def outFlags (c : Nat) : Nat := if nonfiniteF32 c then fNonfinite else 0

/-- Optimizer 4 (R379): kernel A's out0 is δ and its out1 the increment of m; kernel B's out0 is the increment of v. -/
def UpdEnv.kernel (e : UpdEnv) (x : UpdIn) (i : Nat) : UpdOut :=
  let ha := e.kernelA.headD 0
  let ta := e.runKernel e.kernelA x i
  let delta := ta.getD (kSource ha 0) 0
  let dm := ta.getD (kSource ha 1) 0
  let m : Flagged := if kOut1 ha then e.group.addMoment x.m dm else ⟨x.m, 0⟩
  let dv := (e.runKernel e.kernelB x i).getD (kSource (e.kernelB.headD 0) 0) 0
  let v : Flagged := if e.group.kernelBOn then e.group.addMoment x.v dv else ⟨x.v, 0⟩
  let da := (kernelReads e.kernelA).getD (kSource ha 0) 0
  let dM := (kernelReads e.kernelA).getD (kSource ha 1) 0
  let dB := (kernelReads e.kernelB).getD (kSource (e.kernelB.headD 0) 0) 0
  finish x delta da m.code v.code [(x.g.flags, onG), (m.flags, dM ||| onM), (v.flags, dB ||| onV), (outFlags delta, da),
    (if kOut1 ha then outFlags dm else 0, dM), (if e.group.kernelBOn then outFlags dv else 0, dB)]

/-- The update of one element (R378, R379). -/
def UpdEnv.element (e : UpdEnv) (x : UpdIn) (i : Nat) : UpdOut :=
  match e.group.optimizer with
  | 0 => e.adam x true
  | 1 => e.adam x false
  | 2 => e.sgd x
  | 3 => e.lion x
  | _ => e.kernel x i

/-! ### One bucket -/

/-- Stains of an element's inputs: gradient, parameter pair, moments. -/
structure UpdStain where
  g : Bool
  w : Bool
  m : Bool
  v : Bool
  deriving DecidableEq, Repr

/-- The stain that a set of source codes (bits 8 to 11) picks up. -/
def UpdStain.of (t : UpdStain) (d : Nat) : Bool := (bit d 8 && t.g) || (bit d 9 && t.w) || (bit d 10 && t.m) || (bit d 11 && t.v)

/-- The stains of an element's outputs: parameter, first moment, second moment (R498). -/
def UpdEnv.stains (e : UpdEnv) (t : UpdStain) : Bool × Bool × Bool :=
  match e.group.optimizer with
  | 0 => (t.g || t.w || t.m || t.v, t.g || t.m, t.g || t.v)
  | 1 => (t.g || t.w || t.m || t.v, t.g || t.w || t.m, t.g || t.w || t.v)
  | 2 => (t.g || t.w || t.m, t.g || t.w || t.m, t.v)
  | 3 => (t.g || t.w || t.m, t.g || t.m, t.v)
  | _ =>
    let ha := e.kernelA.headD 0
    let da := kernelReads e.kernelA
    let db := kernelReads e.kernelB
    (t.w || t.of (da.getD (kSource ha 0) 0), t.m || (kOut1 ha && t.of (da.getD (kSource ha 1) 0)),
      t.v || (e.group.kernelBOn && t.of (db.getD (kSource (e.kernelB.headD 0) 0) 0)))

/-- The elements of an item of a bucket in a bank, with stain. -/
def State.bankItem (s : State) (p : Plan) (b : Bucket) (bank item : Nat) : List (Nat × Bool) :=
  let w := itemWidth item
  (chunks w b.len (s.load (p.itemAddr b bank item) (w * b.len))).map numOf

/-- The first element of a committed item that reads stained, in element order and then item order (R501). -/
def firstStain (items : List (Nat × List (Nat × Bool))) (n : Nat) : Option (Nat × Nat) :=
  (List.range n).findSome? fun i => (items.find? fun it => (it.2.getD i (0, false)).2).map fun it => (i, it.1)

/-- The environment of a bucket's update, and the powers of its group in the step's bank. -/
def State.updEnv (s : State) (b : Bucket) (g : Group) (step : Nat) : UpdEnv × Nat :=
  let (q1, q2) := s.powers (s.inputBank step) b.group
  let lam := match s.step? step with
    | some r => r.lam
    | none => one32
  let lr := mulF32 (g.const 0) lam
  let r1 := mulF32 q1 (g.const 1)
  let r2 := mulF32 q2 (g.const 3)
  let moved := g.optimizer == 0 || g.optimizer == 1
  let kern (i : Nat) : List Nat := SMap.get [] (s.mdie b.mdie).kslots i
  ({ group := g, lr := lr.code, p1 := if moved then r1.code else q1, p2 := if moved then r2.code else q2, step := step,
     kernelA := kern g.kernelA, kernelB := kern g.kernelB, seed := s.seed, tag := b.tag },
   lr.flags false ||| (if moved then flagsOf [r1, r2] else 0))

/-- The flags of an element whose inputs carry stains: what a stained result would raise is not raised (R89). -/
def UpdOut.flags (o : UpdOut) (t : UpdStain) : Nat := o.raised.foldl (fun f (x, d) => if t.of d then f else f ||| x) 0

/-- The powers that a step's bank takes from those of its input bank (R378): stepped for AdamW and Adam, carried for the others. -/
def Group.stepPowers (g : Group) (q : Nat × Nat) : Nat × Nat :=
  if g.optimizer == 0 || g.optimizer == 1 then ((mulF32 q.1 (g.const 1)).code, (mulF32 q.2 (g.const 3)).code) else q

/-- A step begins: the powers of every declared group in its ochre bank, updated once for each group, whether or not the module updates a
bucket of it; one that is NaN or infinite marks the contribution (R375, R378, R380). A group whose entry is uncorrectable is left (R500). -/
def State.beginPowers (s : State) (p : Plan) (step : Nat) : State :=
  p.groups.zipIdx.foldl (fun s (g, i) => s.useTables [.group i] fun s =>
    let q := g.stepPowers (s.powers (s.inputBank step) i)
    let s := s.setPowers (s.ochreBank step) i q.1 q.2
    if nonfiniteF32 q.1 || nonfiniteF32 q.2 then s.markNonfinite step else s) s

/-- A mark of a round on a step's contributions (R380, R389). -/
def State.markRound (s : State) (step round : Nat) (stain nonfinite : Bool) : State :=
  if round == 0 then
    let s := if stain then s.markStain step else s
    if nonfinite then s.markNonfinite step else s
  else s.updStep step fun r => { r with second := { r.second with stain := r.second.stain || stain, nonfinite := r.second.nonfinite || nonfinite } }

/-- UPDATE or RERUN of a bucket with a factor (R378–R380, R389): every item of the bucket in the step's ochre bank. What is written reads stained
also where an item ends inside a word that was never written, and the round is then marked so (R495, R618). -/
def State.updateBucket (s : State) (p : Plan) (b : Bucket) (g : Group) (step factor round : Nat) : State :=
  let inBank := s.inputBank step
  let outBank := s.ochreBank step
  let root := (s.folded b.tag step).getD []
  let (e, fl0) := s.updEnv b g step
  let items := g.items.map fun i => (i, s.bankItem p b inBank i)
  let item (n : Nat) : List (Nat × Bool) := ((items.find? fun it => it.1 == n).map Prod.snd).getD (List.replicate b.len (0, false))
  let ps := item 0
  let rs := item 1
  let ms := item 2
  let vs := item 3
  let outs := (List.range b.len).map fun i =>
    let a := fun (l : List (Nat × Bool)) => l.getD i (0, false)
    let t : UpdStain := ⟨(a root).2, (a ps).2 || (a rs).2, (a ms).2, (a vs).2⟩
    let o := e.element ⟨(mulF32 factor (a root).1).flagged, (a ps).1, (a rs).1, (a ms).1, (a vs).1⟩ i
    (o, e.stains t, o.flags t)
  let s1 := g.items.foldl (fun s i => s.noteRead (p.itemAddr b inBank i) (itemWidth i * b.len)) s
  let s2 := if s.predecessorOpen step then s1 else match firstStain items b.len with
    | some (i, it) => s1.event 0x23 2 b.mdie step (b.tag + (i % 2 ^ 24) <<< 16 + it <<< 40)
    | none => s1
  let put (s : State) (it : Nat) (f : UpdOut → Nat) (t : Bool × Bool × Bool → Bool) : State :=
    s.put (mdieWriter b.mdie) (p.itemAddr b outBank it) (outs.flatMap fun (o, st, _) => (leBytes (itemWidth it) (f o)).map fun c => (c, t st))
  let s3 := put (put (put s2 0 UpdOut.p (fun t => t.1)) 1 UpdOut.r (fun t => t.1)) 2 UpdOut.m (fun t => t.2.1)
  let s4 := if g.second then put s3 3 UpdOut.v (fun t => t.2.2) else s3
  let s5 := s4.setPowers outBank b.group e.p1 e.p2
  let stain := (outs.any fun (_, t, _) => t.1 || t.2.1 || (g.second && t.2.2)) ||
    g.items.any fun i => s5.stainedAt (p.itemAddr b outBank i) (itemWidth i * b.len)
  let bad := nonfiniteF32 e.p1 || nonfiniteF32 e.p2 ||
    outs.any fun (o, _) => fld o.p 7 8 == 255 || g.badMoment o.m || (g.second && g.badMoment o.v)
  let fl := outs.foldl (fun f (_, _, x) => f ||| x) fl0
  (s5.markRound step round stain bad).raiseStep step fl

end Sys2Proof.Machine
end

