-- ==== Sys2Proof/Machine/ControlUnit.lean ====
section
/-! DEFINITION. Control packets of the module (R407, R412), lost peers (R424), talus loss (R349, R350), and the verdict tree
(R386–R389). -/

namespace Sys2Proof.Machine

/-! ### Sending control packets (R407, R412) -/

/-- Zero bytes. -/
def zeros (n : Nat) : List Byte := List.replicate n 0

/-- A packet of this module with a control body. -/
def State.controlPacket (s : State) (type address : Nat) (old : Bool) (body : List Byte) : Packet :=
  s.makePacket { type := type, address := address, old := old } (body.map fun b => (b, false))

/-- A control packet that is not acknowledged: bytes 0–3 are 0. `body` starts at byte 4. -/
def State.sendPlain (s : State) (type address : Nat) (old : Bool) (body : List Byte) : State :=
  s.emit (s.controlPacket type address old (zeros 4 ++ body))

/-- A control packet that is acknowledged: bytes 0–3 hold its sequence number (R407). One that a KN8120 may not receive is not sent
(R414). -/
def State.sendAcked (s : State) (type address : Nat) (old : Bool) (body : List Byte) : State :=
  let n := s.fabric.nextSeq
  let k := s.controlPacket type address old (leBytes 4 n ++ body)
  if old && !toOldTypes.contains type then s
  else State.emit { s with fabric := { s.fabric with nextSeq := (n + 1) % 2 ^ 32, unacked := s.fabric.unacked ++ [⟨n, address, 1, k⟩] } } k

/-! ### Lost peers (R349, R350, R424) -/

/-- The rank tables with one entry changed in all four copies. -/
def State.mapRank (s : State) (r : Nat) (f : Nat → Nat) : State :=
  { s.rewriteTables (fun w => (List.range 4).any fun l => w == .rank l r) with
    fabric := { s.fabric with ranks := s.fabric.ranks.map fun t => SMap.set 0 t r (f (SMap.get 0 t r)) } }

/-- A rank declared lost (R424): its bit, one event, and FABRIC_PEER_LOST on every step in flight. -/
def State.loseRank (s : State) (r : Nat) : State :=
  if rankLost (s.rankEntry 0 r) then s
  else
    let s := (s.mapRank r fun e => setFld e 20 1 1).lEvent 0x11 0 noStep r
    { s with steps := s.steps.map fun x => if x.flying then { x with peerLost := true } else x }

/-- The module's talus is treated as revoked from the next boundary, with one event; its accesses in progress deliver nothing, and their
entries are unavailable (R349, R350). -/
def State.loseTalus (s : State) : State :=
  match s.talus.bound with
  | none => s
  | some a =>
    let gone := s.talus.reads.map fun r => (r.entry, r.step)
    let known := s.crest.cmds.contains BoundaryCmd.talusLost
    let s : State := { s with talus := { s.talus with reads := [], data := [] } }
    let s := if known then s
      else ({ s with crest := { s.crest with cmds := s.crest.cmds ++ [BoundaryCmd.talusLost] } } : State).lEvent 0x15 0 noStep a
    gone.dedup.foldl (fun s (e, n) =>
      s.makeUnavailable e n) s

/-- The entries of the plan whose target is the talus store. -/
def Plan.talusEntries (p : Plan) : List Nat := ((p.acts.zipIdx.filter fun x => x.1.policy == 2 && x.1.talus).map Prod.snd)

/-- Every talus entry whose last FETCH of a begun step in flight has not completed becomes unavailable in it (R349): after a revoke, or
once the lender is unreachable. -/
def State.withdrawEntries (s : State) : State :=
  match s.plan with
  | none => s
  | some p =>
    ((s.flight.filter StepRec.begun).map StepRec.number).foldl (fun s n =>
      (p.talusEntries.filter fun e => !s.lastFetched p e n).foldl (fun s e => s.makeUnavailable e n) s) s

/-- A rank move of this module refused with WRONG_STATE (R438). -/
def State.dropMove (s : State) (m : RankMoveRun) : State :=
  ({ s with fabric := { s.fabric with moves := s.fabric.moves.erase m } } : State).complete m.desc stWrongState

/-- What the loss of an address does (R424, R438, R350): to the ranks it holds, to the talus bound there, and to a rank move that still
queries it. -/
def State.loseAddress (s : State) (a : Nat) : State :=
  let ranks := (s.members.filter fun (_, e) => rankAddress e == a).map Prod.fst
  let s := ranks.foldl State.loseRank s
  let s := if s.talus.bound == some a then s.loseTalus.withdrawEntries else s
  (s.fabric.moves.filter fun m => m.addr == a && !m.sent).foldl State.dropMove s

/-! ### The verdict (R386–R389) -/

/-- A value of the verdict tree on its way: its bits and sums. -/
structure Ballot where
  stain : Bool
  nonfinite : Bool
  sums : List Nat
  deriving DecidableEq, Repr

/-- A node of the tree (R386): the bits ORed, the sums added under R189. -/
def Ballot.join (a b : Ballot) : Ballot :=
  ⟨a.stain || b.stain, a.nonfinite || b.nonfinite, List.zipWith (fun x y => (addF32 x y).code) a.sums b.sums⟩

/-- Factor of a group from the global sum (R387). -/
def clipFactor (g : Option Group) (sum : Nat) : Nat :=
  match g with
  | none => one32
  | some g =>
    if g.software || (g.const 8) % 2 ^ 31 == 0 then one32
    else minF32 one32 (divF32 (g.const 8) (addF32 (sqrtF32 sum).code (g.const 9)).code).code

/-- Whether a binary32 code is below 1. -/
def belowOne (c : Nat) : Bool := (f32 c).below .one

/-- The verdict that the root forms (R387, R388). -/
def State.formVerdict (s : State) (epoch round : Nat) (b : Ballot) : Verdict :=
  let fs := (List.range 64).map fun g => clipFactor (s.group? g) (b.sums.getD g 0)
  let code := if b.stain then 3 else if b.nonfinite then 2 else if round == 0 && fs.any belowOne then 1 else 0
  ⟨epoch, round, code, if round == 0 then fs else List.replicate 64 one32, b.sums⟩

/-- Body of a verdict packet from byte 4 on (R412). -/
def verdictBody (step : Nat) (v : Verdict) : List Byte :=
  leBytes 8 step ++ leBytes 1 v.epoch ++ leBytes 1 v.round ++ leBytes 1 v.code ++ zeros 17 ++
    v.factors.flatMap (leBytes 4) ++ v.sums.flatMap (leBytes 4)

/-- The members other than this module. -/
def State.peers (s : State) : List (Nat × Nat) := s.members.filter fun (_, e) => !rankOwn e

/-- An acknowledged control packet sent to every other member; sends to a lost rank are discarded (R424). -/
def State.broadcast (s : State) (type : Nat) (body : List Byte) : State :=
  s.peers.foldl (fun s (r, e) =>
    if rankLost e then s else s.useTables [.rank 0 r] fun s => s.sendAcked type (rankAddress e) (rankOld e) body) s

/-- A member acts on a verdict (R387): the packet, where there is one, is held while its epoch is newer. -/
def State.takeVerdict (s : State) (step : Nat) (v : Verdict) (k : Option Packet) : State :=
  if v.epoch == (s.store.epoch + 1) % 256 then match k with
    | some k => { s with fabric := { s.fabric with verdicts := s.fabric.verdicts ++ [k] } }
    | none => s
  else if v.epoch != s.store.epoch then s.countStale
  else if !s.inFlight step then s
  else s.updStep step fun r => if v.round == 0 then { r with verdict := some v } else { r with again := some v }

/-- Body of a verdict contribution from byte 4 on (R412). -/
def ballotBody (step epoch round level index : Nat) (b : Ballot) : List Byte :=
  leBytes 8 step ++ leBytes 1 epoch ++ leBytes 1 round ++ leBytes 1 (b2n b.stain + 2 * b2n b.nonfinite) ++ leBytes 1 level ++
    leBytes 4 index ++ zeros 12 ++ (if round == 0 then b.sums.flatMap (leBytes 4) else zeros 256)

/-- A value of the tree at a level and index reaches this module (R386). The member at position index · 2^level of the voters
forms the node; one with an odd index goes to the member that forms its left sibling. `own` says that this module formed it. -/
def State.joinBallot (step epoch round n : Nat) : Nat → State → Nat → Nat → Bool → Ballot → State
  | 0, s, _, _, _, _ => s
  | fuel + 1, s, level, i, own, b =>
    let width := levelWidth n level
    if width ≤ 1 then
      let v := s.formVerdict epoch round b
      (s.broadcast 0x24 (verdictBody step v)).takeVerdict step v none
    else if i % 2 == 0 && i + 1 == width then State.joinBallot step epoch round n fuel s (level + 1) (i / 2) true b
    else if own && i % 2 == 1 then
      match s.voters[(i - 1) * 2 ^ level]? with
      | some (r, e) =>
        if rankLost e then s
        else s.useTables [.rank 0 r] fun s => s.sendAcked 0x23 (rankAddress e) (rankOld e) (ballotBody step epoch round level i b)
      | none => s
    else
      let sib := if i % 2 == 0 then i + 1 else i - 1
      let hit (d : VerdictNode) : Bool := d.step == step && d.epoch == epoch && d.round == round && d.level == level && d.index == sib
      match s.fabric.nodes.find? hit with
      | none => { s with fabric := { s.fabric with nodes := s.fabric.nodes ++ [⟨step, epoch, round, level, i, b.stain, b.nonfinite, b.sums⟩] } }
      | some d =>
        let o : Ballot := ⟨d.stain, d.nonfinite, d.sums⟩
        State.joinBallot step epoch round n fuel { s with fabric := { s.fabric with nodes := s.fabric.nodes.erase d } } (level + 1) (i / 2) true
          (if i % 2 == 0 then b.join o else o.join b)

/-- This module's position among the voters; 0 where it holds no rank. -/
def State.ownPosition (s : State) : Nat := (s.voters.findIdx? fun (_, e) => rankOwn e).getD 0

/-- A contribution enters the tree (R385, R386). -/
def State.contribute (s : State) (step round : Nat) (b : Ballot) : State :=
  let n := max 1 s.voters.length
  State.joinBallot step s.store.epoch round n 40 s 0 s.ownPosition true b

/-- What the fold and the ledger mark on the first contribution when it is formed (R112, R370, R371). -/
def State.firstBallot (s : State) (step : Nat) : Ballot × Nat :=
  let parts := (List.range 64).map fun g => match s.group? g with
    | some gr => (gr.software, s.normPartial g step)
    | none => (true, ⟨0, 0⟩, false)
  let amaxBad := s.scales.any fun e => nonfiniteF32 e.pending
  let amaxStain := s.scales.any ScaleEntry.pendStain
  let c := match s.step? step with
    | some r => r.first
    | none => {}
  let bad := parts.any fun (_, v, _) => nonfiniteF32 v.code
  (⟨c.stain || amaxStain, c.nonfinite || amaxBad || bad, parts.map fun (soft, v, _) => if soft then 0 else v.code⟩,
    parts.foldl (fun f (_, v, _) => f ||| v.flags) 0)

/-- The table words that forming the first contribution uses (R500): the declared groups and buckets whose sums it takes, and the scale-ledger
entries whose pending amax it reads. -/
def State.ballotTables (s : State) : List TableWord :=
  match s.plan with
  | some p => (List.range p.groups.length).map TableWord.group ++ p.buckets.map (fun b => TableWord.bucket b.tag) ++
      (List.range s.scales.length).map TableWord.scale
  | none => []

/-- A module's contribution of a round handed to the collective sequencer (R385). One that is formed from an uncorrectable table word is stained:
it goes out all the same, since without it no verdict forms (R500; DESIGN CHOICE, log 85). -/
def State.handOver (s : State) (step round : Nat) : State :=
  if round == 0 then
    let (b, fl) := s.firstBallot step
    let ws := s.ballotTables
    let b := { b with stain := b.stain || s.tableBad ws }
    (((s.noteTables ws).raiseStep step fl).updStep step fun r => { r with first := { r.first with handed := true } }).contribute step 0 b
  else
    let c := match s.step? step with
      | some r => r.second
      | none => {}
    (s.updStep step fun r => { r with second := { r.second with handed := true } }).contribute step 1 ⟨c.stain, c.nonfinite, List.replicate 64 0⟩

/-- VCONTRIB of an M-die finishes (R381, R385): the round is the first until that contribution has been handed over. -/
def State.vcontrib (s : State) (m step : Nat) : State :=
  match s.step? step with
  | none => s
  | some r =>
    if !r.flying then s
    else
      let round := if r.first.handed then 1 else 0
      let old := if round == 0 then r.first.done else r.second.done
      let done := if old.contains m then old else old ++ [m]
      let s := s.updStep step fun r => if round == 0 then { r with first := { r.first with done := done } }
        else { r with second := { r.second with done := done } }
      if 12 ≤ done.length then s.handOver step round else s

/-! ### The tail of a step -/

/-- Plan crests of step n + 1 in which step n still has work: step-select-1 words, or its commit crest (R71, R217). -/
def Plan.tail (p : Plan) : Nat :=
  let w := p.work
  let upTo (m : Nat) (x : Work) : Nat := if x.before then max m (x.crest + 1) else m
  ((w.blocks ++ w.programs).foldl upTo ((w.schedules.map Prod.fst).foldl upTo (if w.commitNext then w.commit + 1 else 0)))

end Sys2Proof.Machine
end

