-- ==== Sys2Proof/Machine/Collectives.lean ====
section
/-! DEFINITION. The collectives of the fabric schedules (R412, R431, R432): barriers, broadcasts, all-gathers and ordered reduces. -/

namespace Sys2Proof.Machine

/-! ### The running crest's schedules -/

/-- The collectives of the plan, in the order that numbers them. -/
def State.allCollectives (s : State) : List Collective := match s.plan with
  | some p => p.work.schedules.flatMap Prod.snd
  | none => []

/-- The number of the first collective of each schedule, with the schedule. -/
def numberSchedules : Nat → List (Work × List Collective) → List (Nat × Work × List Collective)
  | _, [] => []
  | n, (w, cs) :: rest => (n, w, cs) :: numberSchedules (n + cs.length) rest

/-- A collective has finished on this module: its L-die's schedule finishes with its last one, and the token is signalled (R57, R465). -/
def State.finishCollective (s : State) (number step : Nat) : State :=
  match s.collectives.find? fun c => c.number == number && c.step == step, s.allCollectives[number]? with
  | some o, some c =>
    let left := s.collectives.erase o
    let s := { s with collectives := left,
                      fabric := { s.fabric with parts := s.fabric.parts.filter fun p => !(p.number == number && p.step == step) } }
    let s := if left.any (fun x => x.ldie == o.ldie) then s else { s with crest := { s.crest with units := s.crest.units.erase ⟨3, o.ldie⟩ } }
    if c.signal then s.addToken c.core c.token 1 else s
  | _, _ => s

/-! ### Barriers (R412) -/

/-- The step of a rank move's barrier. -/
def moveStep : Nat := 2 ^ 64 - 1

/-- The number of the barrier by which the members agree on a snapshot's boundary (R436): the spec gives it none; no collective of a plan has
this one (DESIGN CHOICE, log 69). -/
def snapBarrier : Nat := 2 ^ 32 - 1

/-- The ranks of a barrier, and how many arrivals release it. -/
def State.barrierRanks (s : State) (number step : Nat) : List Nat :=
  if step = moveStep then s.members.map Prod.fst
  else if number = snapBarrier then s.voters.map Prod.fst
  else match s.allCollectives[number]? with
    | some c => c.members
    | none => []

/-- A barrier's entry. -/
def State.barrier (s : State) (number step : Nat) : BarrierWait :=
  (s.fabric.barriers.find? fun b => b.number == number && b.step == step).getD ⟨number, step, false, 0, 0⟩

/-- The state with a barrier's entry replaced. -/
def State.setBarrier (s : State) (b : BarrierWait) : State :=
  { s with fabric := { s.fabric with barriers := s.fabric.barriers.filter (fun x => !(x.number == b.number && x.step == b.step)) ++ [b] } }

/-- Body of a barrier packet from byte 4 on (R412): number, step, arrivals, OR of the flag words. -/
def barrierBody (number step arrivals flags : Nat) : List Byte := leBytes 4 number ++ leBytes 8 step ++ leBytes 4 arrivals ++ leBytes 4 flags ++ zeros 8

/-- A rank move's barrier releases: the initiator's descriptor completes (R439, R471). -/
def State.finishMove (s : State) (number : Nat) : State :=
  match s.fabric.moves.find? fun m => m.sent && m.number == number with
  | some m => ({ s with fabric := { s.fabric with moves := s.fabric.moves.erase m } } : State).completeWith m.desc stDone 0 m.applied
  | none => s

/-- A barrier is released for this module (R412). -/
def State.releaseBarrier (s : State) (number step : Nat) : State :=
  let s := { s with fabric := { s.fabric with barriers := s.fabric.barriers.filter fun b => !(b.number == number && b.step == step) } }
  if step = moveStep then s.finishMove number
  else if number = snapBarrier then
    { s with snaps := { s.snaps with runs := s.snaps.runs.map fun r => if r.step == step then { r with agreed := true } else r } }
  else s.finishCollective number step

/-- Whether this module is a member of a barrier. -/
def State.inBarrier (s : State) (number step : Nat) : Bool := match s.ownRank with
  | some r => (s.barrierRanks number step).contains r
  | none => false

/-- Arrivals counted at this module: with the last one the barrier is released for it. -/
def State.countArrivals (s : State) (number step n flags : Nat) : State :=
  let b := s.barrier number step
  let b' : BarrierWait := { b with count := b.count + n, flags := b.flags ||| flags }
  if b'.arrived && decide ((s.barrierRanks number step).length ≤ b'.count) then s.releaseBarrier number step else s.setBarrier b'

/-- This module arrives at a barrier: its arrival goes to the switches that join the members, which combine the arrivals and broadcast
the release (R426, R431). The arrivals that come to this module, its own among them, count toward the same release. -/
def State.arrive (s : State) (number step : Nat) : State :=
  let ranks := s.barrierRanks number step
  let s := s.setBarrier { s.barrier number step with arrived := true }
  let out := s.emit (s.makePacket { type := 0x21, address := s.address, span := s.spanOf ranks, list := number % 2 ^ 16 }
    ((zeros 4 ++ barrierBody number step 1 0).map fun b => (b, false)))
  out.countArrivals number step 1 0

/-! ### Data (R431) -/

/-- Bytes of the data that rank r sends in a collective, in order; none while some are missing. -/
def State.partBytes (s : State) (c : Collective) (number step r : Nat) : Option (List (Byte × Bool)) :=
  let mine := s.fabric.parts.filter fun p => p.number == number && p.step == step && p.rank == r
  let bs := (List.range (cdiv c.bytes 4096)).flatMap fun i => match mine.find? fun p => p.index == i with
    | some p => p.bytes
    | none => []
  if bs.length = c.bytes then some bs else none

/-- The ranks whose data a collective waits for. -/
def Collective.senders (c : Collective) : List Nat := if c.kind == 1 then [c.root] else c.members

/-- The elements of a reduce's data as binary32 codes: widened exactly (R431). -/
def Collective.elems (c : Collective) (bs : List (Byte × Bool)) : List (Nat × Bool) :=
  let w := if c.fmt == 0 then 4 else 2
  (chunks w (c.bytes / w) bs).map fun b =>
    let (n, t) := numOf b
    (if c.fmt == 0 then n else (fpB32.convert .nearest false (fpBF16.decode n)).code, t)

/-- The sum of two members' elements in the collective's format, with its flags. -/
def Collective.addElems (c : Collective) (a b : List (Nat × Bool) × Nat) : List (Nat × Bool) × Nat :=
  let rs := List.zipWith (fun x y =>
    let t := x.2 || y.2
    let r := if c.fmt == 0 then addF32 x.1 y.1 else fpBF16.convert .nearest false ((f32 x.1).add (f32 y.1))
    ((if c.fmt == 0 then r.code else (fpB32.convert .nearest false (fpBF16.decode r.code)).code), t, r.flags t)) a.1 b.1
  (rs.map fun r => (r.1, r.2.1), rs.foldl (fun f r => f ||| r.2.2) (a.2 ||| b.2))

/-- The result's bytes from binary32 codes. -/
def Collective.resultBytes (c : Collective) (es : List (Nat × Bool)) : List (Byte × Bool) :=
  es.flatMap fun (e, t) =>
    (if c.fmt == 0 then leBytes 4 e else leBytes 2 (fpBF16.convert .nearest false (f32 e)).code).map fun b => (b, t)

/-- The ranks of an ordered reduce in the order in which they are summed: ascending, or with order mode 1 the arrival order at the one
L-die that sums them, which is free and the same for every member (R432). -/
def Collective.reduceOrder (c : Collective) (number step : Nat) : List Nat :=
  if c.order == 0 then c.members
  else c.members.mergeSort fun a b => decide (Config.arrivalKey number step a ≤ Config.arrivalKey number step b)

/-- The result of a collective lands once every sender's data has come, its part here has begun, its own data has been accepted into the port
buffers, and its destination can be reached (R38, R57, R431, R493). -/
def State.tryCollective (s : State) (number step : Nat) : State :=
  match s.collectives.find? (fun o => o.number == number && o.step == step), s.allCollectives[number]? with
  | some o, some c =>
      let total := if c.kind == 2 then c.bytes * c.members.length else c.bytes
      if !o.begun || s.fabricHeld o.ldie c.dest total then s
      else
      let parts := c.senders.filterMap fun r => s.partBytes c number step r
      if s.unsent o.sends then s
      else if parts.length < c.senders.length then s
      else if c.kind == 3 then
        let ordered := (c.reduceOrder number step).filterMap fun r => (s.partBytes c number step r).map fun b => (c.elems b, 0)
        let (es, fl) := if c.order == 0 then (treeRoot c.addElems ordered.length ordered).getD ([], 0)
          else match ordered with
            | [] => ([], 0)
            | x :: rest => rest.foldl c.addElems x
        ((s.put 0 c.dest (c.resultBytes es)).raiseStep step fl).finishCollective number step
      else (s.put 0 c.dest parts.flatten).finishCollective number step
  | _, _ => s

/-- A packet of a collective's data kept until the rest has come. -/
def State.keepPart (s : State) (p : CollPart) : State :=
  let others := s.fabric.parts.filter fun x => !(x.number == p.number && x.step == p.step && x.rank == p.rank && x.index == p.index)
  { s with fabric := { s.fabric with parts := others ++ [p] } }

/-- This module's own data of a collective (R410, R431): by multicast to the other members, where any is a KN9250; a broadcast to a KN8120
member, which receives format 1 only, by unicast (R414, R442; log 41). -/
def State.sendPart (s : State) (l : Nat) (c : Collective) (number step : Nat) : State :=
  let bs := s.load c.source c.bytes
  let s := s.noteRead c.source c.bytes
  let r := s.ownRank.getD (2 ^ 17 - 1)
  let others := c.members.filter fun x => x != r && !rankLost (s.rankEntry 0 x)
  let olds := others.filter fun x => rankOld (s.rankEntry 0 x)
  let news := others.filter fun x => !rankOld (s.rankEntry 0 x)
  let s := (chunks 4096 (c.bytes / 4096 + 1) bs).zipIdx.foldl (fun s (b, i) => s.keepPart (CollPart.mk number step r i b)) s
  let o : Outgoing := { type := 0x08, address := s.address, step := step, rank := r }
  let s := if news.isEmpty then s else s.sendTransfer l { o with span := s.spanOf news, list := number } bs
  if c.kind != 1 then s
  else olds.foldl (fun s x => s.sendTransfer l { o with address := rankAddress (s.rankEntry 0 x), old := true, target := c.dest } bs) s

/-- This module's part of a collective that has not begun: its own data goes out once its source can be reached (R38, R493). -/
def State.beginCollective (s : State) (o : OpenCollective) : State :=
  match s.allCollectives[o.number]? with
  | none => s
  | some c =>
    let mine := match s.ownRank with
      | some r => c.senders.contains r
      | none => false
    if o.begun || (mine && s.fabricHeld o.ldie c.source c.bytes) then s
    else
      let first := s.fabric.nextTransfer
      let s := if mine then s.sendPart o.ldie c o.number o.step else s
      { s with collectives := s.collectives.map fun x => if x = o then { x with begun := true, sends := (first, s.fabric.nextTransfer) } else x }

/-- A collective begins on its L-die, where this module is a member (R431). The verdict collective is the work of R385 to R387 and holds
no schedule. -/
def State.startCollective (s : State) (l number step : Nat) (c : Collective) : State :=
  let member := match s.ownRank with
    | some r => c.members.contains r
    | none => false
  if c.kind == 4 || !member then s
  else
    s.useTables (.schedule l :: c.members.map fun r => .rank l r) fun s =>
      let o : OpenCollective := { ldie := l, number := number, step := step, begun := c.kind == 0 }
      let s := { s with collectives := s.collectives ++ [o] }
      if c.kind == 0 then s.arrive number step else (s.beginCollective o).tryCollective number step

/-- The open collectives tried again: an access that waited may go on (R493). -/
def State.retryCollectives (s : State) : State :=
  s.collectives.foldl (fun s o => (s.beginCollective o).tryCollective o.number o.step) s

end Sys2Proof.Machine
end

