-- ==== Sys2Proof/Machine/HostRings.lean ====
section
/-! DEFINITION. Rings in host memory (R447–R458): doorbells, the fetch of a descriptor, what the adapter answers, interrupts. -/

namespace Sys2Proof.Machine

/-! ### Doorbells (R451, R452, R456) -/

/-- Whether a record of a completion ring is free and not reserved (R456). -/
def Ring.hasRoom (r : Ring) : Bool := decide ((r.prod + 2 ^ 32 - r.cons) % 2 ^ 32 + r.reserved < 2 ^ r.size)

/-- A completion that answers no descriptor (R456): it waits where no record is free. Its consumer field is the ring's current index. -/
def State.putFree (s : State) (cring body : Nat) : State :=
  let i := 16 + cring % 4
  if !(s.ring i).enable then s
  else if (s.ring i).hasRoom then s.putRecord i (setFld body 64 32 (s.ring (fld body 9 4)).cons)
  else { s with waits := s.waits ++ [⟨cring, [body]⟩] }

/-- The completions that wait, placed again in order: those without a free record go on waiting. -/
def State.placeWaits (s : State) : State :=
  let old := s.waits
  old.foldl (fun s w => w.words.foldl (fun s b => s.putFree w.cring b) s) { s with waits := [] }

/-- Whether an index is invalid (R452): it passes the other end, or a consumer index moves back. -/
def badIndexOf (r : Ring) (i v : Nat) : Bool :=
  if i < 16 then decide (2 ^ r.size < (v + 2 ^ 32 - r.cons) % 2 ^ 32)
  else decide (2 ^ r.size < (r.prod + 2 ^ 32 - v) % 2 ^ 32) || decide (2 ^ 31 ≤ (v + 2 ^ 32 - r.cons) % 2 ^ 32)

/-- A doorbell of ring i (R451, R452). In QUIESCING the rings still take indices; nothing more is fetched (R485). An invalid value writes the
ring-error event of R452, which R616, saying that none of these writes an event record, leaves out (DESIGN CHOICE, log 89). -/
def State.doorbell (s : State) (i v : Nat) : State :=
  let r := s.ring i
  if s.power.hot.code < 3 then s
  else if (s.power.hot != .ready && s.power.hot != .quiescing) || !r.enable then s.illegalWrite true (64 * i) 3
  else if badIndexOf r i v then (s.event 0x17 7 i noStep 0).illegalWrite true (64 * i) 4
  else if i < 16 then s.setRing i { r with prod := v }
  else (s.setRing i { r with cons := v }).placeWaits

/-! ### The fetch of a descriptor (R453–R456, R458) -/

/-- The header of the ring entry at the consumer index, and whether its read completes with an error. -/
def State.nextHeader (s : State) (r : Nat) : Nat × Bool :=
  let k := s.ring r
  let a := k.base.toNat + k.cons % 2 ^ k.size * 64
  (s.hostNum a 8, s.hostError a 64)

/-- Whether a submission ring has an entry that the device may take now: READY, in use, not halted, not held by a fenced descriptor
(R455), and with a record free in its completion ring unless the fetch is going to halt the ring (R456). -/
def State.fetchable (s : State) (r : Nat) : Bool :=
  let k := s.ring r
  let (h, bad) := s.nextHeader r
  let c := s.ring (16 + fld h 9 2)
  s.power.hot == .ready && k.enable && !k.halted && k.prod != k.cons && !(s.fetched.any fun d => d.ring == r) &&
    (bad || !c.enable || c.hasRoom)

/-- Whether a fetched descriptor waits under its fence bit (R455). -/
def State.fenced (s : State) (d : DescRef) : Bool := bit d.bits 8 && s.descs.any fun x => x.ring == d.ring

/-- The submission ring whose turn it is (R454): the first in round-robin order that may be taken. Nothing is taken while a fetched
descriptor is still to be checked. -/
def State.dueRing (s : State) : Option Nat :=
  if s.fetched.any fun d => !s.fenced d then none
  else ((List.range 16).map fun i => (s.nextRing + i) % 16).find? s.fetchable

/-- A ring halted with its ring-error event (R453, R458). -/
def State.haltRing (s : State) (r reason : Nat) : State :=
  (s.setRing r { s.ring r with halted := true }).event 0x17 7 r noStep reason

/-- The kinds of R459. -/
def legalKind (k : Nat) : Bool := decide (1 ≤ k) && decide (k ≤ 0x19)

/-- A fetched descriptor that may be checked and has an unlisted kind is refused (R458). -/
def State.refuseKind (s : State) (r : Nat) : State :=
  match s.fetched.find? fun d => d.ring == r && !legalKind d.kind with
  | some d => if s.fenced d then s else s.complete d stBadKind
  | none => s

/-- The entry at the consumer index of a submission ring is fetched (R456). -/
def State.fetch (s : State) (r : Nat) : State :=
  let s := { s with nextRing := (r + 1) % 16 }
  let (h, bad) := s.nextHeader r
  let k := s.ring r
  let a := k.base.toNat + k.cons % 2 ^ k.size * 64
  let c := fld h 9 2
  if bad then (s.linkError 4 0 noStep a).haltRing r 1
  else if !(s.ring (16 + c)).enable then s.haltRing r 2
  else
    let d : DescRef := ⟨r, c, fld h 0 8, fld h 32 32, s.hostNum a 64⟩
    let s := s.setRing r { k with cons := (k.cons + 1) % 2 ^ 32 }
    let q := s.ring (16 + c)
    let s := s.setRing (16 + c) { q with reserved := q.reserved + 1 }
    State.refuseKind { s with fetched := s.fetched ++ [d] } r

/-! ### Rows -/

/-- SUBMISSION_DOORBELL (R451, R452). -/
def execSubmissionDoorbell (r : BitVec 4) (index : BitVec 32) (s : State) : Host.Outcome State Fault Refusal :=
  .next (s.doorbell r.toNat index.toNat)

/-- COMPLETION_DOORBELL (R451, R452, R456): completions that waited for a record take it. -/
def execCompletionDoorbell (r : BitVec 2) (index : BitVec 32) (s : State) : Host.Outcome State Fault Refusal :=
  .next (s.doorbell (16 + r.toNat) index.toNat)

/-- EVENT_DOORBELL (R451, R452). -/
def execEventDoorbell (index : BitVec 32) (s : State) : Host.Outcome State Fault Refusal :=
  .next (s.doorbell eventRing index.toNat)

/-- DESCRIPTOR_FETCH (R453–R456): nothing while it is not this ring's turn. Where the ring's fenced descriptor of an unlisted kind may be
checked now, it is refused instead. -/
def execDescriptorFetch (r : BitVec 4) (s : State) : Host.Outcome State Fault Refusal :=
  if s.dueRing = some r.toNat then .next (s.fetch r.toNat) else .next (s.refuseKind r.toNat)

/-- Ranges without the part that [lo, hi) covers. -/
def cutRanges (lo hi : Nat) (l : List (Nat × Nat)) : List (Nat × Nat) :=
  l.flatMap fun (a, b) => (if a < min b lo then [(a, min b lo)] else []) ++ (if max a hi < b then [(max a hi, b)] else [])

/-- HOST_READ_COMPLETION (R447): what the adapter answers to reads of a range of host memory, data or an error. -/
def execHostReadCompletion (addr : Word) (error : Bool) (data : List Byte) (s : State) : Host.Outcome State Fault Refusal :=
  let a := addr.toNat
  let others := cutRanges a (a + data.length) s.link.errors
  if error then .next { s with link := { s.link with errors := others ++ [(a, a + data.length)] } }
  else .next { s with link := { s.link with errors := others, bytes := putCells s.link.bytes a data } }

/-- IRQ_HOLDOFF_EXPIRY (R457): the interrupt word that fell due in the interval is written, and a new interval begins. -/
def execIrqHoldoffExpiry (ring : BitVec 5) (s : State) : Host.Outcome State Fault Refusal :=
  let i := ring.toNat
  let r := s.ring i
  if i < 16 ∨ 20 < i then .refused .illFormed
  else if !r.holding then .next s
  else if !r.due || s.power.hot == .released then .next (s.setRing i { r with holding := false, due := false })
  else .next ((s.setRing i { r with due := false }).hostWrite r.irqAddr.toNat (leBytes 4 r.irqData.toNat))

end Sys2Proof.Machine
end

