-- ==== Sys2Proof/Machine/ResetUnit.lean ====
section
/-! DEFINITION. Hot-plug changes, ports going off, and the resets of R543–R545: what each loses and what stays. -/

namespace Sys2Proof.Machine

/-! ### Hot-plug state and alert (R476, R591, R592) -/

/-- The result of GET_STATE (R591): hot-plug state, power state, whether a trip is recorded, slot. -/
def State.stateBytes (s : State) : List Nat :=
  [s.power.hot.code, if 2 ≤ s.power.hot.code then s.power.state.code else 0xFF, b2n s.side.trip.valid, s.side.slot]

/-- A new state with SB_ALERT_N pulled low where the result of GET_STATE has changed (R592); without the sideband controller's power the line is
in high impedance (R581). -/
def State.alertFrom (old new : State) : State :=
  if old.stateBytes = new.stateBytes ∨ new.side.started = false then new else { new with side := { new.side with alert := true } }

/-- The hot-plug state changed, with its event from POWERED on (R476); events that were held go before it. -/
def State.setHot (s : State) (h : HotPlug) : State :=
  let n := s.alertFrom { s with power := { s.power with hot := h } }
  if h.code < 2 ∨ h = s.power.hot then n
  else (if n.eventsOpen then n.flushHeld else n).event 0x19 4 0 noStep (h.code + s.power.hot.code <<< 4)

/-! ### Ports (R402–R404, R543, R610) -/

/-- Code of a port state (R610). -/
def PortState.code : PortState → Nat
  | .disabled => 0 | .detect => 1 | .equalise => 2 | .measure => 3 | .active => 4 | .fault => 5

/-- A port in DISABLED: its reset leaves nothing but the cap (R402, R543). -/
def Port.off (p : Port) : Port := { cap := p.cap, capUsed := p.capUsed }

/-- Ports taken to DISABLED. -/
def State.portsOff (s : State) (ps : List Nat) : State := ps.foldl (fun s p => s.setPort p (s.port p).off) s

/-- An entry of a port to ACTIVE or FAULT, with its event (R404, R405). -/
def State.enterPort (s : State) (p : Nat) (k : Port) (st : PortState) : State :=
  (s.setPort p { k with state := st }).event 0x0E 5 p noStep (st.code + k.rtt <<< 16)

/-! ### Losing state (R529, R543–R546) -/

/-- The slot that is not running (R567). -/
def State.stageSlot (s : State) : Nat := match s.cairn.running with
  | some r => 1 - r
  | none => if Config.stageToB s.free then 1 else 0

/-- Step 1 of a staging (R567): the image that the host holds, or why it is rejected. -/
def State.hostImage (s : State) (addr length : Nat) : Except Nat (List Byte) :=
  let bytes := s.hostBytes addr length
  if s.hostError addr length then .error 8
  else match imageCheck s.cairn.revoked s.cairn.rollback length bytes with
    | some r => .error r
    | none => .ok bytes

/-- What refuses a STAGE_IMAGE before it reads (R562, R567): the result. -/
def State.stageRefused (s : State) (addr length : Nat) : Option Nat :=
  firstOf [(length == 0 || decide (2 ^ 24 < length), 2), (addr % 4096 != 0, 3),
    (!(decide (HotPlug.linked.code ≤ s.power.hot.code) && decide (s.power.hot.code ≤ HotPlug.attested.code)), 4)]

/-- The image that the command of Cairn in progress writes to a slot; none where it is no staging, or one that writes none. -/
def State.staging (s : State) : Option (List Byte) :=
  let image (a n : Nat) : Option (List Byte) := match s.hostImage a n with
    | .ok bytes => some bytes
    | .error _ => none
  match s.cairn.queue with
  | .firmware d :: _ => image (fld d.bits 64 64) (fld d.bits 128 32)
  | .mailbox 5 args :: _ => if (s.stageRefused (args.getD 4 0) (args.getD 5 0)).isSome then none else image (args.getD 4 0) (args.getD 5 0)
  | _ => none

/-- What an abandoned command of Cairn leaves in the fuses and the firmware store (R569): some of the fuses of a COMMIT_VERSION may be
blown; the slot of an image being staged may be as it was, partly written, which makes it invalid, or written. The boot record keeps its value. -/
def State.abandonCairn (s : State) : Cairn :=
  let k := s.cairn
  let kept : Cairn := { slotA := k.slotA, slotB := k.slotB, nextSlot := k.nextSlot, rollback := k.rollback, revoked := k.revoked }
  match k.queue with
  | .mailbox 6 args :: _ =>
    let v := args.getD 0 0
    if k.running.isSome && decide (k.rollback < v) && decide (v ≤ k.runVersion) then
      { kept with rollback := k.rollback + (Config.blownFuses s.free).toNat % (v - k.rollback + 1) }
    else kept
  | _ => match s.staging with
    | none => kept
    | some bytes =>
      if Config.stagedSoFar s.free = 0 then kept
      else kept.setSlot s.stageSlot (if Config.stagedSoFar s.free = 1 then none else some ⟨bytes⟩)

/-- What a loss of power or a device reset leaves: the fuses, the firmware store, the sideband controller, what the carrier measures,
the host with its memory, and what has been sent. -/
def State.cold (s : State) : State :=
  { pending := s.pending, free := s.free + 1, code := s.code, sent := s.sent, coreMap := { fuse := s.coreMap.fuse },
    link := { bytes := s.link.bytes, errors := s.link.errors },
    monitor := { input := s.monitor.input, board := s.monitor.board },
    cairn := s.abandonCairn,
    side := s.side,
    fabric := { stale := true },
    power := { hot := s.power.hot, booted := false, repairs := s.power.repairs, poisoning := List.range 12 } }

/-- The rails go off (R477, R486, R529): every state is lost, soft repairs too (R507). -/
def State.powerOff (s : State) (h : HotPlug) : State :=
  let c := s.cold
  s.alertFrom { c with power := { c.power with hot := h, repairs := [], poisoning := [] } }

/-- A device reset (R545, R546): everything returns to its reset value, Cairn boots again, and the module is in POWERED. -/
def State.deviceReset (s : State) : State :=
  let c := s.cold
  s.alertFrom (State.setHot { c with power := { c.power with resetting := [24] } } .powered)

/-- A C-die that has been powered up (R493, R520): its cores at their reset state, its memories poisoned. -/
def State.freshCdie (s : State) (c : Nat) : State :=
  let m := (s.mem.poison (storeBase + 32 * c * 2 ^ 23) (storeBase + 32 * (c + 1) * 2 ^ 23)).poison
    (accBase + 32 * c * 2 ^ 21) (accBase + 32 * (c + 1) * 2 ^ 21)
  let m := (m.poison (spareStore (2 * c)) (spareStore (2 * c + 2))).poison (spareAcc (2 * c)) (spareAcc (2 * c + 2))
  { s with
    mem := m,
    tiles := (s.tiles.poison (tileAddr (32 * c) 0 0) (tileAddr (32 * (c + 1)) 0 0)).poison (tileAddr (256 + 2 * c) 0 0) (tileAddr (258 + 2 * c) 0 0),
    cores := SMap.dropRange s.cores (32 * c) (32 * (c + 1)), spares := SMap.dropRange s.spares (2 * c) (2 * c + 2) }

/-- A C-die reset (R543, R545, R606): its part of the core map returns to the fuse default too. -/
def State.resetCdie (s : State) (c : Nat) : State :=
  { s.freshCdie c with
    coreMap := { s.coreMap with
      index := SMap.dropRange s.coreMap.index (32 * c) (32 * (c + 1)), spare := SMap.dropRange s.coreMap.spare (2 * c) (2 * c + 2),
      failed := SMap.dropRange s.coreMap.failed c (c + 1), force := SMap.dropRange s.coreMap.force (32 * c) (32 * (c + 1)),
      moved := s.coreMap.moved.filter fun n => n / 32 != c } }

/-- The bytes of a stack in the stack view. -/
def State.stackRange (s : State) (m : Nat) : Nat × Nat := (stackView + m * 2 ^ 36, stackView + m * 2 ^ 36 + s.code.stackBytes)

/-- An M-die reset (R493, R543): its staging SRAM and its stack are poisoned, and its merge buffer and table words are gone. -/
def State.resetMdie (s : State) (m : Nat) : State :=
  let (lo, hi) := s.stackRange m
  { s.setMdie m MDie.init with
    merge := s.merge.filter (fun e => e.mdie != m), tables := s.tables.filter (fun t => t.mdie != m),
    mem := (s.mem.poison (stagingBase + m * 2 ^ 26) (stagingBase + (m + 1) * 2 ^ 26)).poison lo hi,
    power := { s.power with poisoning := s.power.poisoning.filter (fun x => x != m) ++ [m] } }

/-- An L-die reset (R543, R545): its ports, its hold store, its copy of the rank table, the packets that wait in it. What the L-dies hold of the
module as a whole, which the spec gives to none of them, is L0's (log 77): control packets not acknowledged or already seen, transfers in part
landed, verdict nodes, barriers, parts of collectives. -/
def State.resetLdie (s : State) (l : Nat) : State :=
  let s := (s.portsOff ((List.range 8).map fun i => 8 * l + i)).rewriteTables fun w => match w with
    | .rank k _ => k == l
    | .schedule k => k == l
    | _ => false
  let f := { s.fabric with ranks := s.fabric.ranks.set l [], stale := true,
                           held := s.fabric.held.filter (fun h => h.ldie != l),
                           waits := s.fabric.waits.filter (fun x => x.ldie != l),
                           blocked := s.fabric.blocked.filter fun b => b.ldie != l }
  { s with fabric := if l = 0 then { f with unacked := [], seen := [], landed := [], nodes := [], barriers := [], parts := [], verdicts := [] } else f }

/-- The dies in reset that a command names. -/
def State.beginReset (s : State) (dies : List Nat) : State :=
  { s with power := { s.power with resetting := s.power.resetting.filter (fun d => !dies.contains d) ++ dies } }

/-! ### The dies that a descriptor uses (R544) -/

/-- Kinds of descriptors that take time and reach device memory without a plan (R459), with the range of their device addresses. -/
def DescRef.range (d : DescRef) : Option (Nat × Nat) :=
  match d.kind with
  | 0x0D => some (fld d.bits 80 48, fld d.bits 192 32)
  | 0x0E => some (fld d.bits 64 48, fld d.bits 128 48)
  | _ => none

/-- The dies that a descriptor in progress uses; a PEER_LOST and a RANK_TABLE use the L-dies, which hold the rank table (R421), a PLAN_LOAD every die. -/
def State.descDies (s : State) (d : DescRef) : List Nat :=
  match d.range with
  | some (a, n) => s.rangeDies a n
  | none => if d.kind = 0x17 then [8 + fld d.bits 64 4] else if d.kind = 0x19 ∨ d.kind = 0x09 then [20, 21, 22, 23]
    else if d.kind = 0x01 then List.range 24 else []

end Sys2Proof.Machine
end

