-- ==== Sys2Proof/Machine/RegisterUnit.lean ====
section
/-! DEFINITION. Setup-register writes (R595–R616): the window, each register's checks and effect, and their rows. -/

namespace Sys2Proof.Machine

/-! ### Access (R481, R595–R599, R616) -/

/-- A refused write's cause (R612), or the state after an accepted one. -/
abbrev RegResult := Except Nat State

/-- A write refused with a cause where a condition holds, the conditions in order. -/
def refuseIf (checks : List (Bool × Nat)) (s : State) : RegResult :=
  match firstOf checks with
  | some c => .error c
  | none => .ok s

/-- Whether an offset lies in the identity, host-link or Cairn-mailbox block (R481, R596). -/
def linkedBlock (off : Nat) : Bool := decide (off < 0x200) || (decide (0x5000 ≤ off) && decide (off < 0x5100))

/-- A register write of 8 aligned bytes at an offset of a register (R598, R599): below LINKED it does not arrive. -/
def State.regWrite (s : State) (off : Nat) (f : State → RegResult) : State :=
  if s.power.hot.code < 3 then s
  else if s.power.hot == .linked && !linkedBlock off then s.illegalWrite false off 3
  else match f s with
    | .ok s' => s'
    | .error c => s.illegalWrite false off c

/-! ### Host-link and crest blocks (R51, R603, R604) -/

def writeLinkControl (v : Nat) (s : State) : RegResult :=
  refuseIf [(fld v 2 62 != 0 || fld v 0 2 == 0, 2)] { s with link := { s.link with cap := fld v 0 2 } }

/-- Offset of R47. -/
def writeWindowOffset (v : Nat) (s : State) : RegResult :=
  refuseIf [(fld v 0 12 != 0, 2), (!s.flight.isEmpty, 3)] { s with link := { s.link with windowOffset := BitVec.ofNat 64 v } }

def writeCrestPeriod (v : Nat) (s : State) : RegResult :=
  refuseIf [(decide (v < 2000) || decide (1000000 < v), 2), (s.plan.isSome, 3)] { s with crest := { s.crest with periodNext := v } }

def writeCrestControl (v : Nat) (s : State) : RegResult :=
  refuseIf [(fld v 20 44 != 0 || (bit v 1 && badAddress (fld v 2 18)), 2)] { s with crest := { s.crest with controlNext := v } }

/-! ### Control block and core map (R28, R146, R399, R544, R605, R606) -/

def writeArrayCurrent (v : Nat) (s : State) : RegResult :=
  refuseIf [(decide (64 < fld v 16 7) || bit v 23 || fld v 56 8 != 0, 2)] { s with arrays := { s.arrays with current := v } }

def writeBatchWait (v : Nat) (s : State) : RegResult :=
  refuseIf [(decide (65535 < v), 2)] { s with arrays := { s.arrays with batchWait := v } }

def writeThreshold (v : Nat) (s : State) : RegResult :=
  refuseIf [(v == 0 || decide (65535 < v), 2)] { s with arrays := { s.arrays with threshold := v } }

/-- The dies that a reset-control value names (R544), numbered as in the error log. -/
def resetDies (v : Nat) : List Nat := (List.range 24).filter fun d => bit v d

/-- Whether a die reset is forbidden (R544). -/
def State.resetForbidden (s : State) (v : Nat) : Bool :=
  s.plan.isSome || !s.talus.windows.isEmpty || s.talus.bound.isSome || (s.descs.any fun d => (s.descDies d).any fun x => (resetDies v).contains x)

/-- The die resets that a value names. -/
def State.resetNamed (s : State) (v : Nat) : State :=
  let one (s : State) (d : Nat) : State := if d < 8 then s.resetCdie d else if d < 20 then s.resetMdie (d - 8) else s.resetLdie (d - 20)
  ((resetDies v).foldl one s).beginReset (resetDies v)

/-- The reset control register (R544). -/
def writeResetControl (v : Nat) (s : State) : RegResult :=
  refuseIf [(fld v 24 8 != 0 || fld v 33 31 != 0 || (bit v 32 && fld v 0 24 != 0), 2),
            (fld v 0 24 != 0 && s.resetForbidden v, 3)]
    (if bit v 32 then s.deviceReset else s.resetNamed v)

/-- CORE_EXCHANGE (R28, R605, R606): the map as written changes; it takes over at the next plan load. -/
def writeCoreExchange (v : Nat) (s : State) : RegResult :=
  let n := fld v 0 8
  let die := n / 32
  let cls := coreClass n
  let p := s.coreIndex n
  let q := s.spareIndex die cls
  let listed (x d : Nat) : Option Nat := if x = d then none else some x
  refuseIf [(fld v 8 56 != 0, 2), (s.plan.isSome, 3), (bit (SMap.get 0 s.coreMap.failed die) q, 3)]
    { s with coreMap := { s.coreMap with index := SMap.set none s.coreMap.index n (listed q (s.fuseIndex n)),
                                         spare := SMap.set none s.coreMap.spare (2 * die + cls) (listed p (s.fuseSpare die cls)),
                                         moved := s.coreMap.moved ++ [n] } }

/-- CORE_FAILED of a C-die (R605, R606): the spare fields are read-only. -/
def writeCoreFailed (die v : Nat) (s : State) : RegResult :=
  refuseIf [(fld v 46 18 != 0, 2)] { s with coreMap := { s.coreMap with failed := SMap.set 0 s.coreMap.failed die (fld v 0 34) } }

/-! ### Ring block (R449, R482, R607, R608, R622) -/

def writeRingBase (i v : Nat) (s : State) : RegResult :=
  refuseIf [(fld v 0 12 != 0, 2), ((s.ring i).enable, 3)] (s.setRing i { s.ring i with base := BitVec.ofNat 64 v })

def writeRingIrqAddr (i v : Nat) (s : State) : RegResult :=
  refuseIf [(fld v 0 2 != 0 || (decide (i < 16) && v != 0), 2), ((s.ring i).enable, 3)] (s.setRing i { s.ring i with irqAddr := BitVec.ofNat 64 v })

def writeRingIrqData (i v : Nat) (s : State) : RegResult :=
  refuseIf [(fld v 32 32 != 0, 2), ((s.ring i).enable, 3)] (s.setRing i { s.ring i with irqData := BitVec.ofNat 32 v })

/-- RING_CONFIG (R607, R608). -/
def writeRingConfig (i v : Nat) (s : State) : RegResult :=
  let r := s.ring i
  let on := bit v 8
  let r' : Ring := { r with size := fld v 0 5, holdoff := fld v 16 16 }
  refuseIf [
    (on && r.enable, 3),
    (fld v 5 3 != 0 || fld v 9 7 != 0 || fld v 32 32 != 0, 2),
    (decide (fld v 0 5 < 6) || decide (16 < fld v 0 5) || (decide (i < 16) && fld v 16 16 != 0), 2),
    (r.enable && decide (16 ≤ i) && decide (i < 20) && r.reserved != 0, 3),
    (r.enable && i == eventRing && (s.power.hot == .ready || s.power.hot == .quiescing), 3)]
    (if on then
      let s' := s.setRing i { r' with enable := true, prod := 0, cons := 0, halted := false, holding := false, due := false, relinked := false }
      if i = eventRing then State.flushHeld { s' with eventsOpen := true } else s'
    else s.setRing i { r' with enable := false, halted := false, holding := false, due := false, relinked := false })

/-- Whether an enabled ring has an illegal base or size (R482). -/
def State.badRing (s : State) : Bool := s.rings.any fun (_, r) =>
  r.enable && (r.base.toNat % 4096 != 0 || decide (r.size < 6) || decide (16 < r.size))

/-- A ring that was enabled when the link trained again starts from index 0 (R488). -/
def Ring.restart (r : Ring) : Ring :=
  if r.relinked then { r with prod := 0, cons := 0, halted := false, holding := false, due := false, relinked := false } else r

/-- MODULE_ENABLE (R482, R488, R607). -/
def writeModuleEnable (v : Nat) (s : State) : RegResult :=
  refuseIf [(fld v 1 63 != 0 || !bit v 0, 2), (s.power.hot != .attested && s.power.hot != .ready, 3),
            (s.power.hot == .attested && s.badRing, 3)]
    (if s.power.hot = .attested then
      State.setHot { s with power := { s.power with enable := true }, rings := SMap.mapVals Ring.init Ring.restart s.rings } .ready
    else s)

/-! ### Power-limit block (R526, R538) -/

/-- Fields of the supply and thermal control register: warning levels in 10 mV, °C, °C and W. -/
def Power.warnVoltage (p : Power) : Nat := fld p.supply 0 10 * 10
def Power.warnStack (p : Power) : Nat := fld p.supply 24 7
def Power.warnPower (p : Power) : Nat := fld p.supply 32 12 * 10

/-- SUPPLY_THERMAL_CONTROL (R538). A new level that the input is already below starts a dip, with the input of that moment; no input, 0, is a
loss and no dip (R527, log 47). -/
def writeSupply (v : Nat) (s : State) : RegResult :=
  let outside (x lo hi : Nat) : Bool := decide (x < lo) || decide (hi < x)
  refuseIf [
    (outside (fld v 0 10) 520 580 || fld v 10 6 != 0 || outside (fld v 16 7) 85 110 || bit v 23 || outside (fld v 24 7) 70 95 || bit v 31 ||
      (fld v 32 12 != 0 && outside (fld v 32 12) 100 400) || fld v 44 20 != 0, 2)]
    (let i := fld s.monitor.input 0 16
     let dip := if s.power.dip.isNone && decide (0 < i) && decide (i < fld v 0 10 * 10) then some ⟨i, [s.crest.counter]⟩ else s.power.dip
     { s with power := { s.power with supply := v, dip := dip } })

/-! ### Port block (R402, R610, R611) -/

/-- FABRIC_ADDRESS: the slot field is read-only. A change clears the rank tables. -/
def writeFabricAddress (v : Nat) (s : State) : RegResult :=
  let f := s.fabric
  let changed := fld v 6 7 != f.rack || fld v 13 5 != f.pod
  refuseIf [
    (fld v 18 46 != 0, 2),
    (s.plan.isSome || f.ports.any (fun (_, p) => decide (p.state ≠ .disabled)), 3)]
    { s.rewriteTables (fun w => changed && w.isRank) with
      fabric := { f with
        rack := fld v 6 7, pod := fld v 13 5, ranks := if changed then [[], [], [], []] else f.ranks, stale := f.stale || changed } }

def writeResetAuthority (v : Nat) (s : State) : RegResult :=
  refuseIf [(fld v 19 45 != 0 || (bit v 18 && badAddress (fld v 0 18)), 2)] { s with fabric := { s.fabric with resetAuthority := v } }

/-- PORT_CONTROL: the cap counts from the next entry to DETECT. A write of enable 1 to a port that is already enabled changes nothing
(R611). -/
def writePortControl (p v : Nat) (s : State) : RegResult :=
  let k := { s.port p with cap := fld v 1 2 }
  refuseIf [
    (fld v 3 61 != 0 || decide (fld v 1 2 < 2), 2),
    (bit v 0 && decide (3 ≤ s.power.state.code), 3)]
    (if bit v 0 then (if k.state = .disabled then s.setPort p { k with state := .detect, capUsed := k.cap } else s)
    else ((s.setPort p k.off).reroute p (s.port p)).retryCollectives)

/-! ### Error-log block (R597, R612, R613) -/

def writeErrorStatus (v : Nat) (s : State) : RegResult :=
  refuseIf [(fld v 2 62 != 0, 2)]
    { s with err := { s.err with illegal := s.err.illegal && !bit v 0, illegalInfo := if bit v 0 then 0 else s.err.illegalInfo,
                                 losses := s.err.losses && !bit v 1 } }

def clearDrops (s : State) : RegResult := .ok { s with err := { s.err with stale := 0, holdDrops := 0 } }
def clearLinkLosses (s : State) : RegResult := .ok { s with err := { s.err with linkWrites := 0, linkErrors := 0 } }
def clearSupplyCounts (s : State) : RegResult := .ok { s with err := { s.err with dips := 0, overVolts := 0 } }
def clearEventsLost (s : State) : RegResult := .ok { s with err := { s.err with eventsLost := 0 } }
def clearMemCounts (i : Nat) (s : State) : RegResult := .ok { s with err := { s.err with mem := SMap.set ⟨0, 0, 0⟩ s.err.mem i ⟨0, 0, 0⟩ } }
def clearPortCounts (p : Nat) (s : State) : RegResult :=
  .ok { s with err := { s.err with retries := SMap.set 0 s.err.retries p 0, crcs := SMap.set 0 s.err.crcs p 0 } }

/-! ### Cairn mailbox (R561, R615) -/

def writeMailboxArg (i v : Nat) (s : State) : RegResult :=
  refuseIf [(s.mailbox.busy, 3)] { s with mailbox := { s.mailbox with args := SMap.set 0 s.mailbox.args i v } }

/-- MB_COMMAND: Cairn takes the command up in its turn, with the arguments as they stand. -/
def writeMailboxCommand (v : Nat) (s : State) : RegResult :=
  refuseIf [(fld v 8 56 != 0, 2), (s.mailbox.busy, 3)]
    { s with mailbox := { s.mailbox with code := v, busy := true },
             cairn := { s.cairn with queue := s.cairn.queue ++ [.mailbox v ((List.range 8).map fun i => SMap.get 0 s.mailbox.args i)] } }

/-! ### The window (R595, R596) -/

/-- The writable registers whose place counts: control block, core map and rings. -/
def ringRegister (off v : Nat) : Option (State → RegResult) :=
  if off < 0x1000 ∨ 0x1540 ≤ off then none
  else
    let i := (off - 0x1000) / 64
    match off % 64 with
    | 0x00 => some (writeRingBase i v)
    | 0x08 => some (writeRingConfig i v)
    | 0x10 => some (writeRingIrqAddr i v)
    | 0x18 => some (writeRingIrqData i v)
    | 0x20 => some .ok
    | 0x28 => some .ok
    | _ => none

/-- The registers of the error-log block. -/
def errorRegister (off v : Nat) : Option (State → RegResult) :=
  if off = 0x4000 then some (writeErrorStatus v)
  else if off = 0x4008 ∨ off = 0x4010 then some .ok
  else if off = 0x4018 then some clearDrops
  else if off = 0x4020 then some clearLinkLosses
  else if off = 0x4028 then some clearSupplyCounts
  else if off = 0x4030 then some clearEventsLost
  else if 0x4400 ≤ off ∧ off < 0x4A40 ∧ off % 64 < 56 then some (clearMemCounts ((off - 0x4400) / 8))
  else if 0x4C00 ≤ off ∧ off < 0x4D00 then some (clearPortCounts ((off - 0x4C00) / 8))
  else none

/-- The registers at fixed offsets; a read-only register takes a write without effect (R597). -/
def fixedRegister (off v : Nat) : Option (State → RegResult) :=
  if off < 0x40 ∨ off = 0x100 ∨ off = 0x210 ∨ off = 0x218 ∨ off = 0x220 ∨ off = 0x2008 ∨ off = 0x5008 then some .ok
  else if off = 0x108 then some (writeLinkControl v)
  else if off = 0x110 then some (writeWindowOffset v)
  else if off = 0x200 then some (writeCrestPeriod v)
  else if off = 0x208 then some (writeCrestControl v)
  else if off = 0x400 then some (writeArrayCurrent v)
  else if off = 0x408 then some (writeBatchWait v)
  else if off = 0x410 then some (writeThreshold v)
  else if off = 0x418 then some (writeResetControl v)
  else if off = 0x420 then some (writeCoreExchange v)
  else if off = 0x1600 then some (writeModuleEnable v)
  else if off = 0x2000 then some (writeSupply v)
  else if off = 0x3000 then some (writeFabricAddress v)
  else if off = 0x3008 then some (writeResetAuthority v)
  else if off = 0x5000 then some (writeMailboxCommand v)
  else none

/-- The register at an offset of 8 aligned bytes, as what a write of v does; none where the offset is reserved (R596). The crest-log
window takes no write (R614). -/
def registerAt (off v : Nat) : Option (State → RegResult) :=
  match fixedRegister off v with
  | some f => some f
  | none =>
    if 0x440 ≤ off ∧ off < 0x480 then some (writeCoreFailed ((off - 0x440) / 8) v)
    else if 0x800 ≤ off ∧ off < 0x1000 then some .ok
    else if 0x2100 ≤ off ∧ off < 0x2308 then some .ok
    else if 0x3100 ≤ off ∧ off < 0x3300 then
      (if off % 16 = 0 then some (writePortControl ((off - 0x3100) / 16) v) else some .ok)
    else if 0x5040 ≤ off ∧ off < 0x5080 then some (writeMailboxArg ((off - 0x5040) / 8) v)
    else match ringRegister off v with
      | some f => some f
      | none => errorRegister off v

/-- A write into the register window (R595, R596). -/
def State.writeRegister (s : State) (off width v : Nat) : State :=
  if s.power.hot.code < 3 then s
  else if width != 8 || off % 8 != 0 then s.illegalWrite false off 0
  else match registerAt off v with
    | none => s.illegalWrite false off 1
    | some f => s.regWrite off f

/-- A write into the doorbell page (R451): an index, or a write of another width, at another byte, or to a reserved slot. -/
def State.writeDoorbell (s : State) (off width v : Nat) : State :=
  if s.power.hot.code < 3 then s
  else if width != 4 || off % 64 != 0 then s.illegalWrite true off 0
  else if 0x540 ≤ off then s.illegalWrite true off 1
  else s.doorbell (off / 64) (v % 2 ^ 32)

/-! ### Rows -/

/-- CREST_PERIOD (R51, R604). -/
def execCrestPeriod (v : Word) (s : State) : Host.Outcome State Fault Refusal := .next (s.regWrite 0x200 (writeCrestPeriod v.toNat))

/-- CREST_CONTROL (R604). -/
def execCrestControl (v : Word) (s : State) : Host.Outcome State Fault Refusal := .next (s.regWrite 0x208 (writeCrestControl v.toNat))

/-- ARRAY_CURRENT_CONTROL (R146). -/
def execArrayCurrentControl (v : Word) (s : State) : Host.Outcome State Fault Refusal := .next (s.regWrite 0x400 (writeArrayCurrent v.toNat))

/-- BATCHING_WAIT (R146). -/
def execBatchingWait (v : Word) (s : State) : Host.Outcome State Fault Refusal := .next (s.regWrite 0x408 (writeBatchWait v.toNat))

/-- ZERO_STREAK_THRESHOLD (R399). -/
def execZeroStreakThreshold (v : Word) (s : State) : Host.Outcome State Fault Refusal := .next (s.regWrite 0x410 (writeThreshold v.toNat))

/-- C_RESET (R543–R545): a write of the reset control register that names C-dies. -/
def execCReset (v : Word) (s : State) : Host.Outcome State Fault Refusal := .next (s.regWrite 0x418 (writeResetControl v.toNat))

/-- M_RESET (R493, R543, R544): a write of the reset control register that names M-dies. -/
def execMReset (v : Word) (s : State) : Host.Outcome State Fault Refusal := .next (s.regWrite 0x418 (writeResetControl v.toNat))

/-- L_RESET (R543–R545): a write of the reset control register that names L-dies. -/
def execLReset (v : Word) (s : State) : Host.Outcome State Fault Refusal := .next (s.regWrite 0x418 (writeResetControl v.toNat))

/-- DEVICE_RESET (R544, R545): a write of the reset control register that names the device. -/
def execDeviceReset (v : Word) (s : State) : Host.Outcome State Fault Refusal := .next (s.regWrite 0x418 (writeResetControl v.toNat))

/-- CORE_EXCHANGE (R28, R605, R606). -/
def execCoreExchange (v : Word) (s : State) : Host.Outcome State Fault Refusal := .next (s.regWrite 0x420 (writeCoreExchange v.toNat))

/-- CORE_FAILED (R29, R605, R606). -/
def execCoreFailed (die : BitVec 3) (v : Word) (s : State) : Host.Outcome State Fault Refusal :=
  .next (s.regWrite (0x440 + 8 * die.toNat) (writeCoreFailed die.toNat v.toNat))

/-- RING_ENABLE (R449, R607, R608, R622): a write of RING_CONFIG. -/
def execRingEnable (ring : BitVec 5) (v : Word) (s : State) : Host.Outcome State Fault Refusal :=
  if 20 < ring.toNat then .refused .illFormed else .next (s.regWrite (0x1008 + 64 * ring.toNat) (writeRingConfig ring.toNat v.toNat))

/-- RING_DISABLE (R608): a write of RING_CONFIG. -/
def execRingDisable (ring : BitVec 5) (v : Word) (s : State) : Host.Outcome State Fault Refusal :=
  if 20 < ring.toNat then .refused .illFormed else .next (s.regWrite (0x1008 + 64 * ring.toNat) (writeRingConfig ring.toNat v.toNat))

/-- MODULE_ENABLE (R482, R607). -/
def execModuleEnable (v : Word) (s : State) : Host.Outcome State Fault Refusal := .next (s.regWrite 0x1600 (writeModuleEnable v.toNat))

/-- SUPPLY_THERMAL_CONTROL (R538). -/
def execSupplyThermalControl (v : Word) (s : State) : Host.Outcome State Fault Refusal := .next (s.regWrite 0x2000 (writeSupply v.toNat))

/-- FABRIC_ADDRESS (R610, R611). -/
def execFabricAddress (v : Word) (s : State) : Host.Outcome State Fault Refusal := .next (s.regWrite 0x3000 (writeFabricAddress v.toNat))

/-- PORT_ENABLE (R402, R610, R611): a write of PORT_CONTROL. -/
def execPortEnable (p : BitVec 5) (v : Word) (s : State) : Host.Outcome State Fault Refusal :=
  .next (s.regWrite (0x3100 + 16 * p.toNat) (writePortControl p.toNat v.toNat))

/-- PORT_DISABLE (R402, R543, R610): a write of PORT_CONTROL. -/
def execPortDisable (p : BitVec 5) (v : Word) (s : State) : Host.Outcome State Fault Refusal :=
  .next (s.regWrite (0x3100 + 16 * p.toNat) (writePortControl p.toNat v.toNat))

/-- ERROR_STATUS_CLEAR (R597, R613): a write of ERROR_STATUS. -/
def execErrorStatusClear (v : Word) (s : State) : Host.Outcome State Fault Refusal := .next (s.regWrite 0x4000 (writeErrorStatus v.toNat))

/-- COUNT_CLEAR (R597, R612): a write of a register of counts. -/
def execCountClear (offset : BitVec 17) (v : Word) (s : State) : Host.Outcome State Fault Refusal :=
  .next (s.writeRegister offset.toNat 8 v.toNat)

/-- REGISTER_WRITE (R451, R595–R616): any other write into the register window or the doorbell page. -/
def execRegisterWrite (doorbell : Bool) (offset : BitVec 17) (width : BitVec 8) (v : Word) (s : State) : Host.Outcome State Fault Refusal :=
  .next (if doorbell then s.writeDoorbell (offset.toNat % 4096) width.toNat v.toNat else s.writeRegister offset.toNat width.toNat v.toNat)

end Sys2Proof.Machine
end

