-- ==== Sys2Proof/Machine/CairnUnit.lean ====
section
/-! DEFINITION. Cairn (R547–R569, R571): boot, the mailbox commands, staging, the service control processors. -/

namespace Sys2Proof.Machine

/-! ### Boot (R554–R558) -/

/-- A boot (R554, R555): the keys and the log with its entry 0, then the next-boot slot, then the other. `err` says of a slot that a read of it
fails. -/
def Cairn.boot (k : Cairn) (err : Nat → Bool) : Cairn :=
  let fresh : Cairn := { slotA := k.slotA, slotB := k.slotB, nextSlot := k.nextSlot, rollback := k.rollback, revoked := k.revoked }
  let k := fresh.start
  let read (n : Nat) (bytes : List Byte) : Option (List Byte) := if err n then none else some bytes
  let a := k.nextSlot
  let b := 1 - a
  match k.slotReason a (read a), k.slot a with
  | none, some i => k.run a i
  | r, _ =>
    let k := { k with lastReason := r.getD 1 }
    match k.slotReason b (read b), k.slot b with
    | none, some i => k.run b i
    | r, _ => { k with lastReason := r.getD 1 }

/-- CAIRN_BOOT (R554–R558): during the soft start that a power enable has begun, or after a device reset. -/
def execCairnBoot (errA errB : Bool) (s : State) : Host.Outcome State Fault Refusal :=
  let due := !s.power.booted && (decide (2 ≤ s.power.hot.code) || (s.power.hot == .present && s.power.softStart))
  if due then
    .next { s with cairn := s.cairn.boot fun n => if n = 0 then errA else errB, power := { s.power with booted := true } }
  else .next s

/-! ### Records (R564–R566) -/

/-- The ordering code in ASCII, padded to 16 bytes (R2). -/
def OrderingCode.ascii : OrderingCode → List Byte
  | .l576 => [0x4B, 0x4E, 0x39, 0x32, 0x35, 0x30, 0x2D, 0x4C, 0x35, 0x37, 0x36] ++ List.replicate 5 0
  | .l384 => [0x4B, 0x4E, 0x39, 0x32, 0x35, 0x30, 0x2D, 0x4C, 0x33, 0x38, 0x34] ++ List.replicate 5 0

/-- The serial number (R594). -/
def serialNumber : List Byte := (List.range 16).map Config.serialByte

/-- The running slot as the records give it. -/
def Cairn.runningByte (k : Cairn) : Nat := k.running.getD 0xFF

/-- The identity public keys, which the keys that every boot derives give (R556). -/
def identityKey : List Byte := (List.range 32).map (Config.ed25519PublicByte ed25519Secret)
def identityMldsa : List Byte := (List.range 1952).map (Config.mldsaPublicByte mldsaSeed)

/-- Bytes 0 to 255 + 64n of the report (R565): what the identity keys sign. -/
def State.reportMessage (s : State) (nonce : List Nat) : List Byte :=
  let k := s.cairn
  let n := k.log.length
  leBytes 4 1 ++ leBytes 4 (3648 + 64 * n) ++ nonce.flatMap (leBytes 8) ++ serialNumber ++ s.code.ascii ++ leBytes 2 0xB0 ++ leBytes 2 k.runTag ++
    leBytes 1 s.power.hot.code ++ leBytes 1 k.runningByte ++ leBytes 1 k.rollback ++ leBytes 1 k.revoked ++ leBytes 4 k.logTotal ++
    leBytes 4 n ++ leBytes 48 k.accumulator ++ identityKey ++ sha3_384 identityMldsa ++
    List.replicate 40 0 ++ k.log.flatMap (leBytes 64)

/-- The report (R564, R565): 3,648 + 64n bytes, signed by both identity keys in Cairn SRAM, under FIPS 204 with an empty context string. -/
def State.report (s : State) (nonce : List Nat) : List Byte :=
  let m := s.reportMessage nonce
  let k := s.cairn.keys.getD ⟨[], []⟩
  m ++ (List.range 64).map (Config.ed25519SignByte k.ed25519 m) ++ (List.range 3309).map (Config.mldsaSignByte k.mldsa m []) ++
    List.replicate 19 0

/-- The certificates (R556) behind their length. -/
def certificates : List Byte := leBytes 4 Config.certLength.toNat ++ (List.range Config.certLength.toNat).map Config.certByte

/-- The security version of a slot as the status record gives it. -/
def Cairn.slotByte (k : Cairn) (n : Nat) : Nat := match k.slot n with
  | some i => i.version
  | none => 0xFF

/-- The status record (R566): 64 bytes. -/
def Cairn.status (k : Cairn) : List Byte :=
  leBytes 1 k.runningByte ++ leBytes 1 k.nextSlot ++ leBytes 1 k.rollback ++ leBytes 1 k.revoked ++ leBytes 2 k.runTag ++ leBytes 1 k.runVersion ++
    leBytes 1 k.lastReason ++ leBytes 4 k.firewall ++ k.restarts.flatMap (leBytes 1) ++ leBytes 1 (k.slotByte 0) ++ leBytes 1 (k.slotByte 1) ++
    List.replicate 46 0

/-! ### Staging (R567) -/

/-- A staging whose slot has been written (R567 steps 3 and 4): the slot is read back, and becomes the next-boot slot or invalid; where an invalid
one was the next-boot slot, the running slot takes its place. -/
def Cairn.readBack (k : Cairn) (slot : Nat) (bytes : List Byte) (read : Option (List Byte)) : Cairn × Option Nat :=
  let reason := match read with
    | none => some 8
    | some b => if badDigests ⟨b⟩ then some 6 else none
  match reason with
  | none => ({ k.setSlot slot (some ⟨bytes⟩) with nextSlot := slot }, none)
  | some r =>
    let next := if k.nextSlot = slot then k.running.getD k.nextSlot else k.nextSlot
    ({ k.setSlot slot none with nextSlot := next, lastReason := r }, some r)

/-- An image of the host staged (R567): the state, and the reason of a rejection. One at step 1 has written no slot. -/
def State.stage (s : State) (addr length : Nat) : State × Option Nat :=
  let slot := s.stageSlot
  let s' : State := if s.hostError addr length then s.linkError 4 0 noStep addr else s
  let s' : State := { s' with free := s.free + 1 }
  match s.hostImage addr length with
  | .error r => ({ s' with cairn := { s'.cairn with lastReason := r } }, some r)
  | .ok bytes =>
    let r := s'.cairn.readBack slot bytes (Config.slotRead s.free bytes)
    ({ s' with cairn := r.1 }, r.2)

/-! ### Mailbox commands (R559, R561, R562) -/

/-- Whether the hot-plug state lies in a range of states. -/
def State.hotIn (s : State) (lo hi : HotPlug) : Bool := decide (lo.code ≤ s.power.hot.code) && decide (s.power.hot.code ≤ hi.code)

/-- A record written to host memory where its address and area allow it (R562): the result. -/
def State.mailRecord (s : State) (addr : Nat) (short : Bool) (bs : List Byte) : State × Nat :=
  match firstOf [(short, 2), (addr % 64 != 0, 3), (!s.hotIn .linked .quiescing, 4)] with
  | some r => (s, r)
  | none => (s.hostWrite addr bs, 0)

/-- COMMIT_VERSION (R559). -/
def State.mailCommit (s : State) (v : Nat) : State × Nat :=
  let k := s.cairn
  if !(k.running.isSome && decide (k.rollback < v) && decide (v ≤ k.runVersion)) then (s, 2)
  else if !s.hotIn .linked .released then (s, 4)
  else
    let low : Bool := match k.slot k.nextSlot with
      | some i => decide (i.version < v)
      | none => false
    ({ s with cairn := { k with rollback := v, nextSlot := if low then k.running.getD k.nextSlot else k.nextSlot } }, 0)

/-- SET_BOOT_SLOT (R552). -/
def State.mailBootSlot (s : State) (n : Nat) : State × Nat :=
  if 1 < n then (s, 2)
  else if !s.hotIn .linked .released then (s, 4)
  else
    let t : State := { s with free := s.free + 1 }
    match s.cairn.slotReason n (Config.slotRead s.free) with
    | some r => ({ t with cairn := { t.cairn with lastReason := r } }, 5)
    | none => ({ t with cairn := { t.cairn with nextSlot := n } }, 0)

/-- REVOKE_KEY (R553). -/
def State.mailRevoke (s : State) (n : Nat) : State × Nat :=
  let k := s.cairn
  let used := (k.running.isSome && k.runKey == n) || (match k.slot k.nextSlot with
    | some i => i.key == n
    | none => false)
  let last := (List.range 4).all fun x => x == n || bit k.revoked x
  if 3 < n then (s, 2)
  else if used || last || s.plan.isSome || !s.hotIn .linked .released then (s, 4)
  else ({ s with cairn := { k with revoked := k.revoked ||| 1 <<< n } }, 0)

/-- STAGE_IMAGE (R567). -/
def State.mailStage (s : State) (addr length : Nat) : State × Nat :=
  match s.stageRefused addr length with
  | some r => (s, r)
  | none => match s.stage addr length with
    | (s', none) => (s', 0)
    | (s', some _) => (s', 5)

/-- What a mailbox command does, and its result (R562). -/
def State.mailCommand (s : State) (code : Nat) (args : List Nat) : State × Nat :=
  let arg (i : Nat) : Nat := args.getD i 0
  match code with
  | 1 =>
    let r := s.report (args.take 4)
    s.mailRecord (arg 4) (decide (arg 5 < 3648 + 64 * s.cairn.log.length)) r
  | 2 => if s.power.hot = .linked ∧ s.cairn.running.isSome = true then (s.setHot .attested, 0) else (s, 4)
  | 3 => s.mailRecord (arg 4) (decide (arg 5 < 4 + Config.certLength.toNat)) certificates
  | 4 => s.mailRecord (arg 4) false s.cairn.status
  | 5 => s.mailStage (arg 4) (arg 5)
  | 6 => s.mailCommit (arg 0)
  | 7 => s.mailBootSlot (arg 0)
  | 8 => s.mailRevoke (arg 0)
  | _ => (s, 1)

/-- MAILBOX_RESULT (R561, R562, R615): the command whose turn it is has been performed; the result is written and busy clears at once. -/
def execMailboxResult (s : State) : Host.Outcome State Fault Refusal :=
  match s.cairn.queue with
  | .mailbox code args :: rest =>
    let (s', r) := s.mailCommand code args
    .next { s' with cairn := { s'.cairn with queue := rest },
                    mailbox := { s'.mailbox with busy := false, result := r, count := satAdd 32 s'.mailbox.count 1 } }
  | _ => .next s

/-! ### Rows: MB_COMMAND writes (R561, R562, R615) -/

/-- A write of MB_COMMAND whose code is the row's. -/
def mailboxWrite (code : Nat) (v : Word) (s : State) : Host.Outcome State Fault Refusal :=
  if fld v.toNat 0 8 != code then .refused .illFormed else .next (s.regWrite 0x5000 (writeMailboxCommand v.toNat))

/-- GET_REPORT (R562, R564, R565): the command is queued; its effect comes with MAILBOX_RESULT. -/
def execGetReport (v : Word) (s : State) : Host.Outcome State Fault Refusal := mailboxWrite 1 v s

/-- ACCEPT (R480, R555, R562). -/
def execAccept (v : Word) (s : State) : Host.Outcome State Fault Refusal := mailboxWrite 2 v s

/-- GET_CERTS (R556, R562). -/
def execGetCerts (v : Word) (s : State) : Host.Outcome State Fault Refusal := mailboxWrite 3 v s

/-- GET_STATUS (R562, R566). -/
def execGetStatus (v : Word) (s : State) : Host.Outcome State Fault Refusal := mailboxWrite 4 v s

/-- STAGE_IMAGE (R562, R567). -/
def execStageImage (v : Word) (s : State) : Host.Outcome State Fault Refusal := mailboxWrite 5 v s

/-- COMMIT_VERSION (R559, R562). -/
def execCommitVersion (v : Word) (s : State) : Host.Outcome State Fault Refusal := mailboxWrite 6 v s

/-- SET_BOOT_SLOT (R552, R562). -/
def execSetBootSlot (v : Word) (s : State) : Host.Outcome State Fault Refusal := mailboxWrite 7 v s

/-- REVOKE_KEY (R553, R562). -/
def execRevokeKey (v : Word) (s : State) : Host.Outcome State Fault Refusal := mailboxWrite 8 v s

/-- UNKNOWN_MAILBOX_COMMAND (R562, R615): any other code; Cairn answers with result 1. -/
def execUnknownMailboxCommand (v : Word) (s : State) : Host.Outcome State Fault Refusal :=
  let c := fld v.toNat 0 8
  if 1 ≤ c ∧ c ≤ 8 then .refused .illFormed else .next (s.regWrite 0x5000 (writeMailboxCommand v.toNat))

/-! ### Service control processors (R548, R571) -/

/-- PROCESSOR_RESTART (R571): a type-4 log entry and the count. The restart is one instant: that events of the processor's duties may be late, and a
port in EQUALISE may enter FAULT, are commands of their own or their absence (log 84). -/
def execProcessorRestart (p : BitVec 2) (s : State) : Host.Outcome State Fault Refusal :=
  if s.processors then
    let s' := s.appendLog 4 s.cairn.runVersion s.cairn.runTag p.toNat s.cairn.runBody
    .next { s' with cairn := { s'.cairn with restarts := s'.cairn.restarts.modify p.toNat fun n => satAdd 8 n 1 } }
  else .next s

/-- FIREWALLED_ACCESS (R548): counted, and nothing else. -/
def execFirewalledAccess (_ : BitVec 2) (s : State) : Host.Outcome State Fault Refusal :=
  if s.processors then .next { s with cairn := { s.cairn with firewall := satAdd 32 s.cairn.firewall 1 } } else .next s

end Sys2Proof.Machine
end

