-- ==== Sys2Proof/Machine/FabricUnit.lean ====
section
/-! DEFINITION. The fabric unit (R245, R247, R248, R362): FSEND and BSEND. -/

namespace Sys2Proof.Machine

def Word.aperture (w : Nat) : Nat := fld w 57 6

/-- Source address, offset and length of an FSEND (R247). -/
def fsendArgs (x : Issue) (s : State) : Nat × Nat × Nat := (fld (x.reg s 0) 0 48, fld (x.reg s 1) 0 40, fld (x.reg s 2) 0 32)

/-- Whether an FSEND may read a range: HBM3, the program area, a core store or accumulator memory (R247). -/
def State.sendable (s : State) (a n : Nat) : Bool := decide (a < hostBase) && s.reachable a n

/-- Issue checks of FSEND (R222, R247). -/
def checkFsend (x : Issue) (s : State) : Option IssueRefusal :=
  let (a, off, n) := fsendArgs x s
  firstOf [
    (x.anyStain s [0, 1, 2], byStain),
    (n == 0, badField),
    (!s.sendable a n || (match s.apertureRank (Word.aperture x.word) with
      | some (_, e) => decide (rankBytes e < off + n)
      | none => true), outOfRange),
    (a % 8 != 0 || off % 8 != 0 || n % 8 != 0, misaligned)]

/-- FSEND (R247): the words with their stain, cut into packets; a lost rank's are discarded (R424). -/
def applyFsend (x : Issue) (s : State) : State :=
  let w := x.word
  let (a, off, n) := fsendArgs x s
  match s.apertureRank (Word.aperture w) with
  | none => s
  | some (_, e) =>
    let bs := s.load a n
    let s := s.noteRead a n
    if rankLost e then s
    else s.sendTransfer 0 {
      type := 0x01, address := rankAddress e, old := rankOld e, step := x.step, ochre := s.predecessorOpen x.step, target := off,
      signal := if bit w 63 then some (fld w 70 8, fld w 64 6) else none } bs

/-- Issue checks of BSEND (R222, R242, R248). -/
def checkBsend (x : Issue) (s : State) : Option IssueRefusal :=
  firstOf [
    (x.anyStain s [0, 1], byStain),
    ((tileRegion (x.reg s 0)).bad, badField),
    ((s.apertureRank (Word.aperture x.word)).isNone, outOfRange)]

/-- One element of a BSEND: its bfloat16, stain, whether it was flushed to zero, and the flags of its conversion (R103, R248). -/
structure SendElem where
  code : Nat
  stain : Bool
  flushed : Bool
  flags : Nat
  deriving DecidableEq, Repr

def sendElem (v : Nat × Bool) : SendElem :=
  let r := fpBF16.convert .nearest false (f32 v.1)
  ⟨r.code, v.2, r.code % 2 ^ 15 == 0 && v.1 % 2 ^ 31 != 0, r.flags v.2⟩

/-- The elements of the region, row by row (R248). -/
def bsendElems (x : Issue) (s : State) : List SendElem :=
  let g := tileRegion (x.reg s 0)
  g.rows.flatMap fun i => g.cols.map fun j => sendElem (s.accRead x.core (128 * fld x.word 63 5 + i) j (bit x.word 68))

/-- BSEND (R248, R362): packets of 512 elements with the bucket tag, element offset and flush count. -/
def applyBsend (x : Issue) (s : State) : State :=
  let w := x.word
  let es := bsendElems x s
  let first := fld (x.reg s 1) 0 32
  let s := s.noteTileInput x.core ((if bit w 68 then 2 else 1) + (fld w 63 5) <<< 2) (tileRegion (x.reg s 0))
  let s := s.raise x (es.foldl (fun f e => f ||| e.flags) 0)
  match s.apertureRank (Word.aperture w) with
  | none => s
  | some (_, e) =>
    if rankLost e then s
    else
      let id := s.fabric.nextTransfer
      let s := { s with fabric := { s.fabric with nextTransfer := (id + 1) % 2 ^ 32 } }
      (chunks 512 (es.length / 512 + 1) es).zipIdx.foldl (fun s (part, i) =>
        s.sendData 0 (s.makePacket {
          type := 0x10, address := rankAddress e, old := rankOld e, step := x.step, ochre := s.predecessorOpen x.step,
          tag := fld w 69 16, rank := s.ownRank.getD (2 ^ 17 - 1), offset := (first + 512 * i) % 2 ^ 32, count := part.length,
          flushes := (part.filter SendElem.flushed).length, index := i, transfer := id, length := 2 * es.length }
          (padTo8 (part.flatMap fun el => (leBytes 2 el.code).map fun b => (b, el.stain))))) s

end Sys2Proof.Machine
end

