-- ==== Sys2Proof/Machine/ReduceUnit.lean ====
section
/-! DEFINITION. The reduction unit (R209–R213): RREG and RTROW. -/

namespace Sys2Proof.Machine

/-- One node of the reduction tree: the binary32 code, the lane index it carries, its stain. -/
structure RNode where
  code : Nat
  lane : Nat
  stain : Bool
  deriving DecidableEq, Repr

/-- Whether ARGMAX or ARGMIN chooses the right child, whose lanes are higher (R211). -/
def choosesRight (op a b : Nat) : Bool :=
  if (f32 a).isNaN then false
  else if (f32 b).isNaN then true
  else if op == 4 then (f32 a).below (f32 b) else (f32 b).below (f32 a)

/-- The node operation of R209 on two present children. -/
def RNode.join (op : Nat) (a b : RNode) : RNode :=
  let t := a.stain || b.stain
  match op with
  | 0 => ⟨(addF32 a.code b.code).code, a.lane, t⟩
  | 1 => ⟨(addF32 a.code b.code).code, a.lane, t⟩
  | 2 => ⟨(toF32 ((f32 a.code).max' (f32 b.code))).code, a.lane, t⟩
  | 3 => ⟨minF32 a.code b.code, a.lane, t⟩
  | _ =>
    let c := if choosesRight op a.code b.code then b else a
    ⟨(toF32 (f32 c.code)).code, c.lane, t⟩

/-- One level of R210: a single present child passes up unchanged, no present child gives none. -/
def joinLevel (op : Nat) : List (Option RNode) → List (Option RNode)
  | some a :: some b :: rest => some (a.join op b) :: joinLevel op rest
  | some a :: none :: rest => some a :: joinLevel op rest
  | none :: b :: rest => b :: joinLevel op rest
  | l => l

/-- The leaf of a present lane: RSSQ squares it first (R209). -/
def reduceLeaf (op : Nat) (lane : Nat) (v : Nat × Bool) : RNode :=
  ⟨if op == 1 then (mulF32 v.1 v.1).code else v.1, lane, v.2⟩

/-- The tree of R210 over lane positions 0 to 127, of which those with a value are present: result and flags (R212). -/
def reduce (op : Nat) (lanes : List (Option (Nat × Bool))) : RNode × Nat :=
  let leaves := lanes.zipIdx.map fun (v, i) => v.map (reduceLeaf op i)
  let top := ((List.range 7).foldl (fun l _ => joinLevel op l) leaves).headD none
  let r := top.getD ⟨0, 0, false⟩
  let finite := lanes.all fun v => match v with
    | some a => (f32 a.1).isFinite
    | none => true
  let f := if r.stain then 0
    else (if nonfiniteF32 r.code then fNonfinite else 0) ||| (if finite && (f32 r.code).isInf then fOverflow else 0)
  (r, f)

def Word.reduceOp (w : Nat) : Nat := fld w 57 3

/-- RREG (R209): the result, with the lane index beside it for ARGMAX and ARGMIN, goes to a scalar register. -/
def applyRreg (x : Issue) (s : State) : State :=
  let op := Word.reduceOp x.word
  let l := (s.core x.core).vl
  let (r, f) := reduce op ((List.range 128).map fun j => if j < l then some (x.lane s 1 j) else none)
  (s.onCore x.core fun k => k.setS (Word.slot x.word 0) (r.code + (if 3 < op then r.lane <<< 32 else 0)) r.stain).raise x f

/-- The kernel-input field that reads an RTROW's source. -/
def rtrowField (w : Nat) : Nat := fld w 60 2 + (fld w 62 5) <<< 2 + (fld w 67 4) <<< 8

/-- Issue checks of RTROW (R209, R222). -/
def checkRtrow (x : Issue) (s : State) : Option IssueRefusal :=
  firstOf [(x.regStain s 1, byStain), ((tileRegion (x.reg s 1)).bad, badField)]

/-- The reduction of tile row i of a region. -/
def rtrowOne (x : Issue) (s : State) (g : TileRegion) (i : Nat) : RNode × Nat :=
  reduce (Word.reduceOp x.word) ((List.range 128).map fun j =>
    if g.x0 ≤ j ∧ j < g.x0 + g.nx then some (s.kernelInput x.core (rtrowField x.word) i j) else none)

/-- RTROW (R209): row i of the region goes to lane i of vd; for ARGMAX and ARGMIN the index goes to lane i of vd + 1. -/
def applyRtrow (x : Issue) (s : State) : State :=
  let w := x.word
  let g := tileRegion (x.reg s 1)
  let rs := g.rows.map fun i => (i, rtrowOne x s g i)
  let vd := Word.slot w 0
  let s := s.noteTileInput x.core (rtrowField w) g
  let s := s.onCore x.core fun k => k.setLanes vd (rs.map fun (i, r, _) => (i, r.code, r.stain))
  let s := if 3 < Word.reduceOp w then s.onCore x.core fun k => k.setLanes (vd + 1) (rs.map fun (i, r, _) => (i, r.lane, r.stain)) else s
  s.raise x (rs.foldl (fun f (_, _, fl) => f ||| fl) 0)

end Sys2Proof.Machine
end

