-- ==== Sys2Proof/Machine/WindowUnit.lean ====
section
/-! DEFINITION. The address generator (R249–R273): window descriptors, WRUN and WPOOL. -/

namespace Sys2Proof.Machine

/-! ### Descriptor and geometry -/

/-- One dimension of a window (R257); the pads are those of R253 under causal-time. -/
structure WDim where
  size : Nat
  k : Nat
  mode : Nat
  stride : Nat
  dil : Nat
  padLo : Nat
  padHi : Nat
  origin : Nat
  count : Nat
  bufOrigin : Nat
  bufCount : Nat
  pitch : Nat
  deriving DecidableEq, Repr

/-- A window descriptor: its header bits and its four dimensions (R255–R257). -/
structure Window where
  h : Nat
  dims : List WDim
  deriving DecidableEq, Repr

/-- Dimension entry d of the 192 bytes of a descriptor, as a number. -/
def dimBits (desc d : Nat) : Nat := fld desc (512 + 256 * d) 256

/-- A dimension entry decoded, its causal pads put in (R253). -/
def decodeDim (e : Nat) : WDim :=
  let causal := fld e 24 2 == 2
  let k := fld e 16 8
  let dil := fld e 48 16
  { size := fld e 0 16, k := k, mode := fld e 24 2, stride := fld e 32 16, dil := dil,
    padLo := if causal then dil * (k - 1) else fld e 64 16, padHi := fld e 80 16,
    origin := fld e 96 16, count := fld e 112 16 + 1, bufOrigin := fld e 128 16, bufCount := fld e 144 16 + 1, pitch := fld e 160 32 }

def decodeWindow (desc : Nat) : Window := ⟨fld desc 0 512, (List.range 4).map fun d => decodeDim (dimBits desc d)⟩

def Window.kind (v : Window) : Nat := fld v.h 0 4
def Window.sf (v : Window) : Nat := fld v.h 4 4
/-- Bits of one stored streaming element: of an array operand for WRUN, where format 0 names one bfloat16 half of a split pair
(R125, R237; log 27), of the format itself for WPOOL. -/
def Window.elemBits (v : Window) : Nat := if v.kind < 3 then arrayBits v.sf else Machine.elemBits v.sf
def Window.tf (v : Window) : Nat := fld v.h 8 4
def Window.mode (v : Window) : Nat := fld v.h 12 2
def Window.start (v : Window) : Bool := bit v.h 14
def Window.indexOut (v : Window) : Bool := bit v.h 15
def Window.pack (v : Window) : Nat := 2 ^ fld v.h 16 2
def Window.divisor (v : Window) : Bool := bit v.h 18
def Window.cIn (v : Window) : Nat := fld v.h 32 16
def Window.cOut (v : Window) : Nat := fld v.h 48 7 + 1
def Window.cb (v : Window) : Nat := fld v.h 56 7 + 1
def Window.pad (v : Window) : Nat := fld v.h 64 16
def Window.row (v : Window) : Nat := fld v.h 80 12
def Window.second (v : Window) : Nat := fld v.h 96 12
def Window.base (v : Window) : Nat := fld v.h 128 32
def Window.scaleBase (v : Window) : Nat := fld v.h 160 32
def Window.weights (v : Window) : Nat := fld v.h 192 32
def Window.weightScales (v : Window) : Nat := fld v.h 224 32
def Window.weightPitch (v : Window) : Nat := fld v.h 256 32

/-- Output size of a dimension (R251). -/
def WDim.out (d : WDim) : Int :=
  ((d.size : Int) + d.padLo + d.padHi - d.dil * (d.k - 1 : Nat) - 1) / (d.stride : Int) + 1

/-- Whether the window is empty (R252). -/
def Window.isEmpty (v : Window) : Bool := v.dims.any fun d => decide (d.out ≤ 0)

/-- Whether the region holds output positions (kinds 0, 2, 3, 4) rather than input positions (R258). -/
def Window.overOutputs (v : Window) : Bool := v.kind == 0 || v.kind == 2 || v.kind == 3 || v.kind == 4

/-- Positions of ranges per dimension in ascending order, the last dimension fastest (R258). -/
def product : List (List Nat) → List (List Nat)
  | [] => [[]]
  | xs :: rest => xs.flatMap fun x => (product rest).map fun p => x :: p

def Window.region (v : Window) : List (List Nat) := product (v.dims.map fun d => (List.range d.count).map fun i => d.origin + i)

/-- The number of region positions. -/
def Window.m (v : Window) : Nat := (v.dims.map WDim.count).prod

/-- The number of taps. -/
def Window.taps (v : Window) : Nat := (v.dims.map WDim.k).prod

/-- A tap's index (R250). -/
def tapIndex (dims : List WDim) (j : List Nat) : Nat := (List.zip dims j).foldl (fun n (d, x) => n * d.k + x) 0

/-- The taps in tap order. -/
def Window.allTaps (v : Window) : List (List Nat) := product (v.dims.map fun d => List.range d.k)

/-- The coordinate that output o and tap j read in one dimension (R250). -/
def WDim.coord (d : WDim) (o j : Nat) : Int := (o : Int) * d.stride - d.padLo + (j : Int) * d.dil

/-- Whether a coordinate is in the image. -/
def WDim.inside (d : WDim) (c : Int) : Bool := decide (0 ≤ c) && decide (c < d.size)

/-- The element that output o and tap j read in one dimension: clamped under edge-replicate, none for the pad constant (R253). -/
def WDim.element (d : WDim) (o j : Nat) : Option Nat :=
  let c := d.coord o j
  if d.inside c then some c.toNat else if d.mode == 1 then some (max 0 (min c ((d.size : Int) - 1))).toNat else none

/-- All of a list, where each is there. -/
def allSome {α : Type} : List (Option α) → Option (List α)
  | [] => some []
  | none :: _ => none
  | some a :: rest => (allSome rest).map fun l => a :: l

/-- The element that an output and a tap read (R254): none for the pad constant. -/
def Window.element (v : Window) (o j : List Nat) : Option (List Nat) :=
  allSome ((List.zip v.dims (List.zip o j)).map fun (d, o, j) => d.element o j)

/-- Whether a tap is in the image in every dimension. -/
def Window.inImage (v : Window) (o j : List Nat) : Bool :=
  (List.zip v.dims (List.zip o j)).all fun (d, o, j) => d.inside (d.coord o j)

/-- The output from which tap j reaches input position i in one dimension (R264). -/
def WDim.source (d : WDim) (i j : Nat) : Option Nat :=
  let n := (i : Int) + d.padLo - (j : Int) * d.dil
  if 0 ≤ n ∧ n % d.stride = 0 ∧ n / d.stride < d.out then some (n / d.stride).toNat else none

/-- That output in all dimensions: none where the tap is absent. -/
def Window.source (v : Window) (i j : List Nat) : Option (List Nat) :=
  allSome ((List.zip v.dims (List.zip i j)).map fun (d, i, j) => d.source i j)

/-- Core-store byte offset of a buffer element, channel 0, from the input base (R259). -/
def Window.offset (v : Window) (c : List Nat) : Nat := ((List.zip v.dims c).map fun (d, c) => (c - d.bufOrigin) * d.pitch).sum

/-! ### Checks (R255–R258, R266) -/

/-- A pairing that R122 refuses: binary32 with another format, MXINT8, a residue pair or a reserved code. -/
def badPairing (sf tf : Nat) : Bool := decide (9 < sf) || decide (9 < tf) || ((sf == 0) != (tf == 0))

/-- Rows that the operator writes from its first row. -/
def Window.rows (v : Window) : Nat := if v.kind == 2 then v.taps * v.cIn else v.m

/-- Channels that a WRUN of kind 0 or 1 reduces over. -/
def Window.reduced (v : Window) : Nat := if v.kind == 1 then v.cOut else v.cIn

/-- Illegal header values of a WRUN, by kind, rows that break R167 among them (R256, R266). -/
def Window.badRun (v : Window) : Bool :=
  let mx := isMX v.sf || isMX v.tf
  decide (2 < v.kind) || badPairing v.sf v.tf || (v.kind == 2 && mx) || v.mode == 3 ||
    (v.mode == 1 && !rowsInEvenHandle v.row v.rows) || v.indexOut || v.divisor ||
    (v.kind == 2 && v.pack != 1) || (v.kind != 2 && decide (128 < v.pack * v.cb)) ||
    (v.kind != 2 && mx && (v.cb % 32 != 0 || v.reduced % 32 != 0)) || v.cIn == 0 || (v.kind == 1 && decide (128 < v.cIn)) ||
    (v.kind == 1 && v.dims.any fun d => d.mode == 1)

/-- Illegal header values of a WPOOL, by kind (R256). -/
def Window.badPool (v : Window) : Bool :=
  decide (v.kind < 3) || decide (6 < v.kind) || decide (4 < v.sf) || (decide (4 < v.kind) && v.sf != 0) || v.tf != 0 || v.mode != 0 ||
    (v.indexOut && v.kind != 3) || (v.divisor && v.kind != 4 && v.kind != 6) || v.pack != 1 || v.cIn == 0 || decide (128 < v.cIn) ||
    (v.indexOut && rowsOverlap v.row v.second v.m)

/-- Reserved fields and the pad constant (R256). -/
def Window.badHeader (v : Window) : Bool :=
  fld v.h 19 13 != 0 || bit v.h 55 || bit v.h 63 || fld v.h 92 4 != 0 || fld v.h 108 20 != 0 || fld v.h 288 224 != 0 ||
    (isMX v.sf && v.pad != 0) || (Machine.elemBits v.sf == 8 && decide (255 < v.pad))

/-- Illegal values of dimension entry d (R257). -/
def badDim (e d : Nat) : Bool :=
  fld e 0 16 == 0 || fld e 16 8 == 0 || fld e 24 2 == 3 || (fld e 24 2 == 2 && (d != 0 || fld e 64 32 != 0)) || fld e 26 6 != 0 ||
    fld e 32 16 == 0 || fld e 48 16 == 0 || fld e 192 64 != 0

/-- A region or buffer outside its limits (R257, R258). -/
def Window.badRegion (v : Window) : Bool :=
  (v.dims.any fun d =>
    let o := d.out.toNat
    let (r, b) := if v.overOutputs then (o, d.size) else (d.size, o)
    decide (r < d.origin + d.count) || decide (b < d.bufOrigin + d.bufCount))

/-- The buffer coordinates of one dimension that the taps of the region fetch (R258, R264, R270–R272). -/
def Window.fetched (v : Window) (d : WDim) : List Nat :=
  let pos := (List.range d.count).map fun i => d.origin + i
  let taps := List.range d.k
  if v.overOutputs then
    pos.flatMap fun o => taps.filterMap fun j =>
      if v.kind == 4 && v.divisor && !d.inside (d.coord o j) then none else d.element o j
  else if v.kind == 1 then pos.flatMap fun i => taps.filterMap fun j => d.source i j
  else (List.range d.out.toNat).filter fun o => taps.any fun j =>
    (match d.element o j with
      | some c => decide (d.origin ≤ c) && decide (c < d.origin + d.count)
      | none => false) && !(v.kind == 6 && v.divisor && !d.inside (d.coord o j))

/-- The coordinates fetched in every dimension; empty where no element is fetched at all. -/
def Window.needs (v : Window) : List (List Nat) :=
  let f := v.dims.map v.fetched
  if f.any List.isEmpty then [] else f

/-- Whether a needed element lies outside the buffer. -/
def Window.outsideBuffer (v : Window) : Bool :=
  (List.zip v.dims v.needs).any fun (d, cs) => cs.any fun c => decide (c < d.bufOrigin) || decide (d.bufOrigin + d.bufCount ≤ c)

/-- Bytes of one position's channels in the buffer. -/
def Window.channelBytes (v : Window) : Nat :=
  let n := if v.kind == 1 then v.cOut else v.cIn
  (v.elemBits * n + 7) / 8

/-- Whether the needed elements, or their scales, run beyond the core store. -/
def Window.beyondInput (v : Window) : Bool :=
  if v.needs.isEmpty then false
  else
    let top := v.offset (v.needs.map fun cs => cs.foldl max 0) + v.channelBytes
    decide (storeBytes < v.base + top) || (isMX v.sf && decide (storeBytes < v.scaleBase + cdiv top (blockBytes v.sf)))

/-- Rows of weights, and elements in each (R259); dy positions of kind 2. -/
def Window.weightRows (v : Window) : Nat × Nat :=
  match v.kind with
  | 0 => if isMX v.tf then (v.taps * v.cOut, v.cIn) else (v.taps * v.cIn, v.cOut)
  | 1 => (v.taps * v.cIn, v.cOut)
  | _ => (v.m, v.cOut)

/-- Whether weights, their scales, dy or winner indices run beyond the core store. -/
def Window.beyondWeights (v : Window) : Bool :=
  if v.kind < 3 then
    let (rows, n) := v.weightRows
    decide (storeBytes < v.weights + (rows - 1) * v.weightPitch + arrayBytes v.tf n) ||
      (isMX v.tf && decide (storeBytes < v.weightScales + rows * n / 32))
  else if v.kind == 5 then
    let top := (v.dims.map fun d => (d.bufCount - 1) * d.pitch).sum + 4 * v.cIn
    decide (storeBytes < v.weights + top) || decide (storeBytes < v.base + top)
  else false

/-- A misaligned base or pitch (R255–R257); R256 asks no boundary of a scale base. -/
def Window.misalignedBase (v : Window) : Bool :=
  v.base % 64 != 0 || v.weights % 64 != 0 || v.weightPitch % 64 != 0 ||
    v.dims.any fun d => d.pitch % 4 != 0 || (isMX v.sf && d.pitch % blockBytes v.sf != 0)

/-- The descriptor that slot A names, with whether any of its words is stained; none beyond the core store. -/
def windowBits (x : Issue) (s : State) : Option (Nat × Bool) :=
  if storeBytes < x.reg s 0 + 192 then none else some (numOf (s.load (storeAddr x.core (x.reg s 0)) 192))

/-- The window of an instruction; an all-zero one where it cannot be read. -/
def windowOf (x : Issue) (s : State) : Window := decodeWindow ((windowBits x s).getD (0, false)).1

/-- The words that the issue checks of a window instruction read: the descriptor. -/
def windowWords (x : Issue) (s : State) : List (Nat × Nat) :=
  if storeBytes < x.reg s 0 + 192 then [] else [(storeAddr x.core (x.reg s 0), 192)]

/-- Winner indices of the buffer of a kind 5 window: a stained one refuses (R271). -/
def indexStained (x : Issue) (s : State) (v : Window) : Bool :=
  v.kind == 5 && (product (v.dims.map fun d => (List.range d.bufCount).map fun i => d.bufOrigin + i)).any fun o =>
    s.stainedAt (storeAddr x.core (v.weights + v.offset o)) (4 * v.cIn)

/-- The checks of R255 that a window that is not empty takes after its field values, the descriptor's own boundary among the alignment
checks (R252). R255 gives a stained index word (R271) no place in its order: here it stands once the ranges are known to hold, before
the alignment (the model's choice, log 27). -/
def Window.lateChecks (v : Window) (x : Issue) (s : State) : List (Bool × IssueRefusal) :=
  [(v.badRegion, badField),
   (decide (4096 < v.row + v.rows) || (v.indexOut && decide (4096 < v.second + v.m)), outOfRange),
   (v.outsideBuffer || v.beyondInput || v.beyondWeights, outOfRange),
   (indexStained x s v, byStain),
   (x.reg s 0 % 64 != 0 || v.misalignedBase, misaligned)]

/-- Issue checks of WRUN and WPOOL, in the order of R255; slots read as addresses, indices or selections come first (R222). -/
def checkWindow (x : Issue) (s : State) (slots : List Nat) (ledger : Bool) (bad : Window → Bool) : Option IssueRefusal :=
  match windowBits x s with
  | none => firstOf [(x.anyStain s slots, byStain), (true, outOfRange)]
  | some (desc, stain) =>
    let v := decodeWindow desc
    let dimsBad := (List.range 4).any fun d => badDim (dimBits desc d) d
    firstOf ([
      (x.anyStain s slots || stain, byStain),
      (dimsBad || v.badHeader || bad v || (ledger && s.badLedger (x.reg s 2)), badField)] ++ (if !dimsBad && v.isEmpty then [] else v.lateChecks x s))

def checkWrun (x : Issue) (s : State) : Option IssueRefusal := checkWindow x s [0, 1, 2] true Window.badRun
def checkWpool (x : Issue) (s : State) : Option IssueRefusal := checkWindow x s [0] false Window.badPool

/-! ### Elements -/

/-- Channel c of the buffer element at coordinates p (R259): code, E8M0 code and stain. -/
def Window.bufElem (v : Window) (s : State) (core : Nat) (p : List Nat) (c : Nat) : Elem :=
  let e := v.offset p
  let b := v.elemBits
  let lo := 8 * (v.base + e) + b * c
  let bs := s.load (storeAddr core (lo / 8)) ((lo % 8 + b + 7) / 8)
  let r := numOf bs
  if isMX v.sf then
    let sc := s.loadByte (storeAddr core (v.scaleBase + (e + c / 32 * blockBytes v.sf) / blockBytes v.sf))
    ⟨fld r.1 (lo % 8) b, sc.1.toNat, r.2 || sc.2⟩
  else ⟨fld r.1 (lo % 8) b, 0x7F, r.2⟩

/-- The pad constant as an element; never stained (R253, R262). Its 16 bits stand in the low bits of a wider code: of a binary32
stream of WPOOL the upper half is 0 (R256 does not say how 16 bits give such a code; the model's choice, log 27). -/
def Window.padElem (v : Window) : Elem := ⟨v.pad, 0x7F, false⟩

/-- Element i of stored weight row r, with its scale where the weights are MX (R259); n elements in a row. -/
def Window.weight (v : Window) (s : State) (core r n i : Nat) : Elem :=
  let b := arrayBits v.tf
  let lo := 8 * (v.weights + r * v.weightPitch) + b * i
  let w := numOf (s.load (storeAddr core (lo / 8)) ((lo % 8 + b + 7) / 8))
  if isMX v.tf then
    let sc := s.loadByte (storeAddr core (v.weightScales + r * n / 32 + i / 32))
    ⟨fld w.1 (lo % 8) b, sc.1.toNat, w.2 || sc.2⟩
  else ⟨fld w.1 (lo % 8) b, 0x7F, w.2⟩

/-! ### WRUN (R260–R267) -/

/-- One pass of a kind 0 or 1 product: the group of taps and the block's channels (R260). -/
structure WPass where
  taps : List (List Nat)
  channels : List Nat
  deriving DecidableEq, Repr

/-- The pieces of 8 taps of one dimension. -/
def segments (k : Nat) : List (List Nat) := chunks 8 (k / 8 + 1) (List.range k)

/-- Tuples, one piece of each dimension. -/
def tuples : List (List (List Nat)) → List (List (List Nat))
  | [] => [[]]
  | xs :: rest => xs.flatMap fun x => (tuples rest).map fun p => x :: p

/-- The groups of one tuple of segments: each (j0, j1, j2) with up to P consecutive j3. -/
def tupleGroups (p : Nat) (segs : List (List Nat)) : List (List (List Nat)) :=
  let last := segs.getLastD []
  (product segs.dropLast).flatMap fun j => (chunks p (last.length + 1) last).map fun g => g.map fun x => j ++ [x]

/-- The passes of kinds 0 and 1 in the order of R260. -/
def Window.passes (v : Window) : List WPass :=
  let blocks := chunks v.cb (v.reduced / v.cb + 1) (List.range v.reduced)
  ((tuples (v.dims.map fun d => segments d.k)).flatMap (tupleGroups v.pack)).flatMap fun g => blocks.map fun b => ⟨g, b⟩

/-- Row i of the stationary set of a pass, as (tap index, channel), taps outermost (R261). -/
def WPass.krows (p : WPass) : List (List Nat × Nat) := p.taps.flatMap fun t => p.channels.map fun c => (t, c)

/-- The stationary set of a pass (R259, R261, R264). -/
def Window.passSet (v : Window) (s : State) (core : Nat) (p : WPass) : StatSet :=
  let n := if v.kind == 1 then v.cIn else v.cOut
  let col (j : Nat) : List Elem := p.krows.map fun (t, c) =>
    let tap := tapIndex v.dims t
    if v.kind == 1 then v.weight s core (tap * v.cIn + j) v.cOut c
    else if isMX v.tf then v.weight s core (tap * v.cOut + j) v.cIn c
    else v.weight s core (tap * v.cIn + c) v.cOut j
  { fmt := v.tf, k := p.krows.length, n := n, cols := (List.range n).map col }

/-- The streaming vector of a region position: none where a tap of kind 1 is absent (R261, R264). -/
def Window.passVector (v : Window) (s : State) (core : Nat) (p : WPass) (pos : List Nat) : List (Option Elem) :=
  p.krows.map fun (t, c) =>
    if v.kind == 1 then (v.source pos t).map fun o => v.bufElem s core o c
    else match v.element pos t with
      | some e => some (v.bufElem s core e c)
      | none => some v.padElem

/-- A column's block result over the rows that have a product; +0, unstained, where none has (R121, R264, R265). Both formats bfloat16 run as one
ordinary bfloat16 pass: R122 and R125 want three split passes of it, and R237 gives split parts to PASS alone (DESIGN CHOICE, log 27). -/
def partialResult (q : Int) (sf tf : Nat) (as : List (Option Elem)) (bs : List Elem) : Rounded × Bool :=
  let ps := (List.zip as bs).filterMap fun (a, b) => a.map fun e => (e, b)
  columnResult 0 q sf tf (ps.map Prod.fst) (ps.map Prod.snd)

/-- The vectors of one pass through its set into consecutive rows (R261). -/
def State.windowPass (s : State) (x : Issue) (v : Window) (q : Int) (set : StatSet) (vs : List (List (Option Elem))) (row : Nat)
    (start : Bool) (index : Nat) : State :=
  let s := vs.zipIdx.foldl (fun s (a, i) =>
    s.addRow x.core x.step (row + i) v.mode start index (set.cols.map fun c => partialResult q v.sf v.tf a c)) s
  s.onCore x.core fun k => { k with active := some set, loading := none }

/-- The passes of kind 2 (R267): a block of 128 positions and a tap. -/
def Window.gradPasses (v : Window) : List (List (Nat × List Nat) × Nat × List Nat) :=
  let ps := v.region.zipIdx.map fun (p, i) => (i, p)
  (chunks 128 (ps.length / 128 + 1) ps).zipIdx.flatMap fun (b, i) => v.allTaps.map fun t => (b, i, t)

/-- The set of a kind 2 pass: dy of the block's positions. -/
def Window.gradSet (v : Window) (s : State) (core : Nat) (b : List (Nat × List Nat)) : StatSet :=
  { fmt := v.tf, k := b.length, n := v.cOut, cols := (List.range v.cOut).map fun j => b.map fun (m, _) => v.weight s core m v.cOut j }

/-- The vectors of a kind 2 pass: channel c of x at each position of the block for the tap. -/
def Window.gradVectors (v : Window) (s : State) (core : Nat) (b : List (Nat × List Nat)) (t : List Nat) : List (List (Option Elem)) :=
  (List.range v.cIn).map fun c => b.map fun (_, p) =>
    match v.element p t with
    | some e => some (v.bufElem s core e c)
    | none => some v.padElem

/-- The counts of the reads of weight rows, or of dy of kind 2, with their scales (R259, R503). -/
def State.noteWeights (s : State) (core : Nat) (v : Window) : State :=
  let (rows, n) := v.weightRows
  let s := (List.range rows).foldl (fun s r => s.noteRead (storeAddr core (v.weights + r * v.weightPitch)) (arrayBytes v.tf n)) s
  if isMX v.tf then s.noteRead (storeAddr core v.weightScales) (rows * n / 32) else s

/-- The counts of the reads of one buffer element's channels, with its scales (R259, R503). -/
def State.noteElement (s : State) (core : Nat) (v : Window) (p : List Nat) : State :=
  let s := s.noteRead (storeAddr core (v.base + v.offset p)) v.channelBytes
  if isMX v.sf then
    s.noteRead (storeAddr core (v.scaleBase + v.offset p / blockBytes v.sf)) (cdiv v.channelBytes (blockBytes v.sf))
  else s

/-- The counts of the reads of the descriptor, of the needed buffer elements, of the weights, and of the winner indices (R503): each
once. -/
def State.noteWindow (s : State) (x : Issue) (v : Window) : State :=
  let s := s.noteRead (storeAddr x.core (x.reg s 0)) 192
  let s := if v.kind < 3 then s.noteWeights x.core v else s
  let s := if v.kind = 5 then
      (product (v.dims.map fun d => (List.range d.bufCount).map fun i => d.bufOrigin + i)).foldl (fun s o =>
        s.noteRead (storeAddr x.core (v.weights + v.offset o)) (4 * v.cIn)) s
    else s
  if v.needs.isEmpty then s
  else (product (v.needs.map List.dedup)).foldl (fun s p => s.noteElement x.core v p) s

/-- WRUN (R252, R260–R268). An empty one issues the batching queue, as every pass issued directly does, and leaves the active and the loaded set as
they are: R268 takes the loaded set away when it completes, R252 has it write nothing, and it has no last pass (DESIGN CHOICE, log 27). -/
def applyWrun (x : Issue) (s : State) : State :=
  let s := s.issueBatch x.core
  let v := windowOf x s
  if v.isEmpty then s.raise x fEmptyWindow
  else
    let q := s.ledgerQ (x.reg s 2) x.step
    let base := x.reg s 1
    let s0 := s
    let s := s.noteWindow x v
    if v.kind == 2 then
      v.gradPasses.zipIdx.foldl (fun s ((b, i, t), n) =>
        s.windowPass x v q (v.gradSet s0 x.core b) (v.gradVectors s0 x.core b t) (v.row + tapIndex v.dims t * v.cIn)
          (v.start && i == 0) ((base + n) % 2 ^ 32)) s
    else
      v.passes.zipIdx.foldl (fun s (p, n) =>
        s.windowPass x v q (v.passSet s0 x.core p) (v.region.map (v.passVector s0 x.core p)) v.row (v.start && n == 0) ((base + n) % 2 ^ 32)) s

/-! ### WPOOL (R269–R273) -/

/-- A pooled value: binary32 code, stain, and whether a rounding on its way overflowed. -/
structure PVal where
  code : Nat
  stain : Bool
  overflow : Bool := false
  deriving DecidableEq, Repr

/-- The value of a tap at an output, channel c, widened to binary32 (R254, R269). -/
def Window.value (v : Window) (s : State) (core : Nat) (o j : List Nat) (c : Nat) : PVal :=
  let e := match v.element o j with
    | some p => v.bufElem s core p c
    | none => v.padElem
  ⟨widen v.sf e.code, e.stain, false⟩

/-- Sum of two pooled values by ADD. -/
def PVal.add (a b : PVal) : PVal := let r := addF32 a.code b.code; ⟨r.code, a.stain || b.stain, a.overflow || b.overflow || r.overflow⟩

/-- DIV by a count as a binary32 operand: a count above 2²⁴ is rounded to nearest even on the way (R270 does not say how a count
becomes an operand of DIV; the model's choice, log 27). -/
def PVal.div (a : PVal) (n : Nat) : PVal := let r := divF32 a.code (natF32 n); ⟨r.code, a.stain, a.overflow || r.overflow⟩

/-- Contributions added in order; +0, unstained, of none (R272). -/
def PVal.sum : List PVal → PVal
  | [] => ⟨0, false, false⟩
  | a :: rest => rest.foldl PVal.add a

/-- Max-pool (R269): the value and the winner's tap index; stained where any value read is. A NaN winner is delivered as the
canonical NaN with sign 0, as an operation's result is under R189, whatever sign R88 keeps on widening (the model's choice, log 27). -/
def Window.maxPool (v : Window) (s : State) (core : Nat) (o : List Nat) (c : Nat) : PVal × Nat :=
  let vals := v.allTaps.map fun j => v.value s core o j c
  match vals with
  | [] => (⟨0, false, false⟩, 0)
  | a :: rest =>
    let (best, w) := rest.zipIdx.foldl (fun (b, w) (x, i) => if choosesRight 4 b.code x.code then (x, i + 1) else (b, w)) (a, 0)
    (⟨(toF32 (f32 best.code)).code, vals.any PVal.stain, false⟩, w)

/-- Taps that count at an output (R270). -/
def Window.counted (v : Window) (o : List Nat) : List (List Nat) := v.allTaps.filter fun j => !v.divisor || v.inImage o j

/-- Average-pool (R270). -/
def Window.avgPool (v : Window) (s : State) (core : Nat) (o : List Nat) (c : Nat) : PVal :=
  let js := v.counted o
  if js.isEmpty then ⟨0, false, false⟩ else (PVal.sum (js.map fun j => v.value s core o j c)).div js.length

/-- The winner index of a buffer output, channel c (R271): the index buffer has the origins and the pitches of the dy buffer, since
R259 gives it 4 bytes a channel and the descriptor holds no others (the model's choice, log 27). -/
def Window.winner (v : Window) (s : State) (core : Nat) (o : List Nat) (c : Nat) : Nat :=
  s.num (storeAddr core (v.weights + v.offset o + 4 * c)) 4

/-- dy of a buffer output, channel c. -/
def Window.dy (v : Window) (s : State) (core : Nat) (o : List Nat) (c : Nat) : PVal :=
  let r := numOf (s.load (storeAddr core (v.base + v.offset o + 4 * c)) 4)
  ⟨r.1, r.2, false⟩

/-- The tap of an index (R250). -/
def tapOf (dims : List WDim) (n : Nat) : List Nat :=
  (dims.reverse.foldl (fun (acc, n) d => (n % d.k :: acc, n / d.k)) (([] : List Nat), n)).1

/-- Buffer outputs in ascending position. -/
def Window.buffer (v : Window) : List (List Nat) := product (v.dims.map fun d => (List.range d.bufCount).map fun i => d.bufOrigin + i)

/-- Max-pool gradient of an input position (R271). -/
def Window.maxGrad (v : Window) (s : State) (core : Nat) (i : List Nat) (c : Nat) : PVal :=
  PVal.sum (v.buffer.filterMap fun o =>
    let w := v.winner s core o c
    if w < v.taps ∧ v.element o (tapOf v.dims w) = some i then some (v.dy s core o c) else none)

/-- Average-pool gradient of an input position (R272): outputs ascending, then taps. -/
def Window.avgGrad (v : Window) (s : State) (core : Nat) (i : List Nat) (c : Nat) : PVal :=
  PVal.sum (v.buffer.flatMap fun o =>
    let js := v.counted o
    (js.filter fun j => v.element o j == some i).map fun _ => (v.dy s core o c).div js.length)

/-- The result of a region position, channel c, by kind. -/
def Window.pooled (v : Window) (s : State) (core : Nat) (p : List Nat) (c : Nat) : PVal :=
  match v.kind with
  | 3 => (v.maxPool s core p c).1
  | 4 => v.avgPool s core p c
  | 5 => v.maxGrad s core p c
  | _ => v.avgGrad s core p c

/-- The flags of a pooled lane (R192, R273). -/
def PVal.flags (p : PVal) : Nat :=
  if p.stain then 0 else (if nonfiniteF32 p.code then fNonfinite else 0) ||| (if p.overflow then fOverflow else 0)

/-- Whether an index word of the buffer routes nowhere for its value (R271). -/
def Window.strayIndex (v : Window) (s : State) (core : Nat) : Bool :=
  v.kind == 5 && v.buffer.any fun o => (List.range v.cIn).any fun c => decide (v.taps ≤ v.winner s core o c)

/-- WPOOL (R252, R269–R273): lanes 0 to C − 1 of consecutive rows, and the winners' rows beside them. -/
def applyWpool (x : Issue) (s : State) : State :=
  let v := windowOf x s
  if v.isEmpty then s.raise x fEmptyWindow
  else
    let cs := List.range v.cIn
    let rows := v.region.map fun p => cs.map fun c => v.pooled s x.core p c
    let wins := if v.indexOut then v.region.map fun p => cs.map fun c => let r := v.maxPool s x.core p c; (r.2, r.1.stain) else []
    let stray := v.strayIndex s x.core
    let s := s.noteWindow x v
    let s := rows.zipIdx.foldl (fun s (r, m) =>
      s.put (x.core + 1) (accAddr x.core (v.row + m) 0) (laneBytes (r.map fun p => (p.code, p.stain)))) s
    let s := wins.zipIdx.foldl (fun s (r, m) => s.put (x.core + 1) (accAddr x.core (v.second + m) 0) (laneBytes r)) s
    s.raise x ((rows.flatten.foldl (fun f p => f ||| p.flags) 0) ||| (if stray then fPermRange else 0))

end Sys2Proof.Machine
end

