-- ==== Sys2Proof/Machine/KvUnit.lean ====
section
/-! DEFINITION. The KV fetch unit (R279–R312): the mask program, the paged table, KVREAD, KVAPPEND and KVFLUSH. -/

namespace Sys2Proof.Machine

/-! ### The mask program (R283–R287) -/

/-- Fields of the mask program, bits numbered from byte 64 of the descriptor (R286). -/
def maskCausal (m : Nat) : Nat := fld m 0 2
def maskWindow (m : Nat) : Bool := bit m 2
def maskSegments (m : Nat) : Bool := bit m 3
def maskSkip (m : Nat) : Bool := bit m 4
def maskBounds (m : Nat) : Nat := fld m 5 3
def maskF (m : Nat) : Nat := fld m 8 24
def maskW (m : Nat) : Nat := fld m 32 16
def maskRt (m : Nat) : Nat := fld m 48 16
def maskRy (m : Nat) : Nat := fld m 64 16
def maskRx (m : Nat) : Nat := fld m 80 16
def maskQ0 (m : Nat) : Nat := fld m 96 32
def maskRows (m : Nat) : Nat := fld m 128 7 + 1
def maskQb (m : Nat) : Nat := fld m 144 16
def maskList (m : Nat) : Nat := fld m 160 32
def maskCount (m : Nat) : Nat := fld m 192 16

/-- Boundary n of the mask program, for n from 1 to 6. -/
def maskBound (m n : Nat) : Nat := fld m (32 * n + 192) 32

/-- The boundaries that the program uses. -/
def maskUsed (m : Nat) : List Nat := (List.range (maskBounds m)).map fun i => maskBound m (i + 1)

/-- Illegal values of the mask program (R286). -/
def badMask (m : Nat) : Bool :=
  maskBounds m == 7 || maskF m == 0 || maskW m == 0 || fld m 135 9 != 0 || fld m 208 16 != 0 || fld m 416 96 != 0 ||
    !ascending (maskUsed m) || (List.range 6).any fun i => decide (maskBounds m ≤ i) && maskBound m (i + 1) != 0

/-- Distance of two numbers. -/
def dist (a b : Nat) : Nat := (a - b) + (b - a)

/-- The number of used boundaries that are at most t (R283). -/
def segOf (m t : Nat) : Nat := ((maskUsed m).filter fun b => decide (b ≤ t)).length

/-- Whether query row i and local key u, at position k, are kept, by every rule but the block skip (R284). -/
def pairKept (m kvLen k0 i u : Nat) : Bool :=
  let q := maskQ0 m + i
  let k := k0 + u
  let fr (t : Nat) : Nat := t / maskF m
  let y (t : Nat) : Nat := t % maskF m / maskW m
  let x (t : Nat) : Nat := t % maskW m
  decide (i < maskRows m) && decide (u < kvLen) &&
    (match maskCausal m with
      | 0 => true
      | 1 => decide (fr k ≤ fr q)
      | 2 => decide (fr k < fr q)
      | _ => decide (k ≤ q)) &&
    (maskRt m == 0 || decide (dist (fr q) (fr k) ≤ maskRt m)) &&
    (!maskWindow m || (decide (dist (y q) (y k) ≤ maskRy m) && decide (dist (x q) (x k) ≤ maskRx m))) &&
    (!maskSegments m || segOf m q == segOf m k)

/-- The skip list's entries with their stain (R287); empty where it does not lie in the core store. -/
def skipEntries (s : State) (c m : Nat) : List (Nat × Bool) :=
  if storeBytes < maskList m + 4 * maskCount m then []
  else (List.range (maskCount m)).map fun i => numOf (s.load (storeAddr c (maskList m + 4 * i)) 4)

/-- Whether the block skip rule drops a whole block (R284, R287). -/
def blockSkipped (s : State) (c m kb : Nat) : Bool :=
  maskSkip m && decide (kb < 65536) && (skipEntries s c m).any fun e => e.1 == kb + maskQb m <<< 16

/-- The kept pairs of a block: row by row, key by key (R284). -/
def keptRows (s : State) (c m kb kvLen k0 : Nat) : List (List Bool) :=
  let skipped := blockSkipped s c m kb
  (List.range 128).map fun i => (List.range 128).map fun j => !skipped && pairKept m kvLen k0 i (128 * kb + j)

/-- Whether a block is EMPTY (R285). -/
def emptyBlock (rows : List (List Bool)) : Bool := rows.all fun r => r.all fun b => !b

/-! ### The paged table (R294–R298) -/

/-- What the checks of a table word found, in the classes of R222. -/
structure Found where
  stain : Bool := false
  bad : Bool := false
  range : Bool := false
  misaligned : Bool := false
  deriving DecidableEq, Repr

def Found.join (a b : Found) : Found :=
  ⟨a.stain || b.stain, a.bad || b.bad, a.range || b.range, a.misaligned || b.misaligned⟩

def Found.ok (f : Found) : Bool := !f.stain && !f.bad && !f.range && !f.misaligned

/-- Whether a word that was found so ends the walk: where only a list that it names is misaligned, the walk goes on, since R222 ranks
what the list's words show before the alignment. -/
def Found.ends (f : Found) : Bool := f.stain || f.bad || f.range

/-- The refusals of what was found, in the order of R222. -/
def Found.checks (f : Found) : List (Bool × IssueRefusal) :=
  [(f.stain, byStain), (f.bad, badField), (f.range, outOfRange), (f.misaligned, Sys2Proof.Machine.misaligned)]

/-- Whether a KV access may reach a range of device memory (R222). -/
def State.kvRange (s : State) (a n : Nat) : Bool := decide (a < fabricBase) && s.reachable a n

/-- Whether a table or ring range lies in the interleaved view (R294, R308). -/
def State.interleaved (s : State) (a n : Nat) : Bool := decide (a < stackView) && s.reachable a n

/-- Header fields (R294). -/
def kvSeqs (h : Nat) : Nat := fld h 0 16
def kvD (h : Nat) : Nat := if bit h 16 then 128 else 64
def kvG (h : Nat) : Nat := fld h 17 3
def kvFmt (h : Nat) : Nat := fld h 20 4

/-- Cache formats: FP8 E4M3, bfloat16 and binary16. -/
def cacheFmt (f : Nat) : Bool := 1 ≤ f && f ≤ 3

/-- Bytes of an element of a cache format. -/
def cacheBytes (f : Nat) : Nat := if f == 3 then 1 else 2

/-- The table header at a base: its bits and what its checks find. -/
def State.kvHeader (s : State) (base : Nat) : Nat × Found :=
  if !s.interleaved base 64 then (0, { range := true })
  else
    let (h, t) := numOf (s.load base 64)
    (h, { stain := t, bad := kvSeqs h == 0 || decide (3 < kvG h) || !cacheFmt (kvFmt h) || fld h 24 488 != 0 })

/-- Sequence entry fields (R296). -/
def seqLen (q : Nat) : Nat := fld q 0 32
def seqCap (q : Nat) : Nat := fld q 32 16
def seqList (q : Nat) (values : Bool) : Nat := if values then fld q 128 48 else fld q 64 48

/-- Sequence entry n of a table: its bits and what its checks find. -/
def State.kvSeq (s : State) (base n : Nat) : Nat × Found :=
  let a := base + 64 + 32 * n
  if !s.interleaved a 32 then (0, { range := true })
  else
    let (q, t) := numOf (s.load a 32)
    (q, { stain := t, bad := decide (256 * seqCap q < seqLen q) || fld q 48 16 != 0 || fld q 112 16 != 0 || fld q 176 80 != 0,
          misaligned := seqList q false % 16 != 0 || seqList q true % 16 != 0 })

/-- Page entry fields (R297). -/
def pageBase (e : Nat) : Nat := fld e 0 28 * 4096
def pageFill (e : Nat) : Nat := fld e 28 9
def pageScale (e h : Nat) : Nat := fld e (64 + 8 * h) 8

/-- Bytes of a page (R295). -/
def pageBytes (h : Nat) : Nat := 256 * 2 ^ kvG h * kvD h * cacheBytes (kvFmt h)

/-- Checks of a page entry read in slot n of a sequence of a length (R297). -/
def State.pageFound (s : State) (h len n : Nat) (values : Bool) (e : Nat) : Found :=
  { bad := pageFill e != min 256 (len - 256 * n) || (!bit e 37 && decide (n < cdiv len 256)) || bit e 38 != values || fld e 39 25 != 0,
    range := !s.interleaved (pageBase e) (pageBytes h) }

/-- The page entry of slot n of a list, and what its checks find. -/
def State.kvPage (s : State) (h q n : Nat) (values : Bool) : Nat × Found :=
  let a := seqList q values + 16 * n
  if !s.kvRange a 16 then (0, { range := true })
  else
    let (e, t) := numOf (s.load a 16)
    (e, { s.pageFound h (seqLen q) n values e with stain := t })

/-! ### KVREAD (R300–R305) -/

/-- Fields of a KVREAD descriptor (R300). -/
def kvLinear (d : Nat) : Bool := bit d 0
def kvValues (d : Nat) : Bool := bit d 2
def kvFirst (d : Nat) : Bool := bit d 3
def kvLast (d : Nat) : Bool := bit d 4
def kvHead (d : Nat) : Nat := fld d 5 3
def kvQuery (d : Nat) : Nat := fld d 8 4
def kvMaskBuf (d : Nat) : Nat := fld d 12 3
def kvSeqNum (d : Nat) : Nat := fld d 16 16
def kvKb (d : Nat) : Nat := fld d 32 32
def kvBase (d : Nat) : Nat := fld d 64 48
def kvLen (d : Nat) : Nat := fld d 128 32
def kvK0 (d : Nat) : Nat := fld d 160 32
def kvPitch (d : Nat) : Nat := fld d 192 32
def kvMask (d : Nat) : Nat := fld d 512 512

/-- The page slot of a descriptor's key block (R302). -/
def kvSlot (d : Nat) : Nat := kvKb d / 2

/-- Illegal descriptor values that need no table (R300). -/
def badKvDesc (d : Nat) : Bool :=
  decide (1 < fld d 0 2) || (kvValues d && (kvFirst d || kvLast d || kvMaskBuf d != 0)) || decide (5 < kvMaskBuf d) || bit d 15 ||
    (kvLinear d && (kvHead d != 0 || !cacheFmt (fld d 224 4))) || !([1, 2, 3, 5] : List Nat).contains (kvQuery d) || fld d 112 16 != 0 ||
    (!kvLinear d && (kvLen d != 0 || kvPitch d != 0 || fld d 224 8 != 0)) || fld d 229 3 != 0 || fld d 240 272 != 0 || badMask (kvMask d)

/-- What a walk gives: header fields and whether the header stands, length, page entry, and what was found. -/
structure Walk where
  header : Nat
  headed : Bool
  len : Nat
  page : Nat
  found : Found
  deriving DecidableEq, Repr

/-- The look-aside entry of a descriptor (R303). -/
def lookAside? (k : CoreState) (d : Nat) : Option LookAside :=
  k.lookAside.find? fun e => e.base == kvBase d && e.seq == kvSeqNum d && e.values == kvValues d && e.slot == kvSlot d

/-- Which words of a walk come from a look-aside entry instead of memory: the header, the length, the page entry. -/
structure Versions where
  header : Bool := false
  len : Bool := false
  page : Bool := false
  deriving DecidableEq, Repr

/-- The walk of a paged KVREAD over one version of each word (R302): the checks of a word are made where it comes from memory, and the
page entry is read only where the block is not EMPTY. The page list is named by the sequence entry in memory. -/
def walkWith (s : State) (core d : Nat) (e : LookAside) (v : Versions) : Walk :=
  let (h', fh') := s.kvHeader (kvBase d)
  let (h, fh) := if v.header then (e.header, {}) else (h', fh')
  if fh.ends then ⟨h, false, 0, 0, fh⟩
  else if kvSeqs h ≤ kvSeqNum d then ⟨h, true, 0, 0, fh.join { range := true }⟩
  else
    let (q', fq') := s.kvSeq (kvBase d) (kvSeqNum d)
    let q := if v.len then setFld q' 0 32 e.length else q'
    let fq := if v.len then {} else fq'
    if fq.ends || emptyBlock (keptRows s core (kvMask d) (kvKb d) (seqLen q) (kvK0 d)) then ⟨h, true, seqLen q, 0, fh.join fq⟩
    else if v.page then ⟨h, true, seqLen q, e.page, fh.join fq⟩
    else
      let (pg, fp) := s.kvPage h q (kvSlot d) (kvValues d)
      ⟨h, true, seqLen q, pg, ((fh.join fq).join fq').join fp⟩

/-- An entry of no page. -/
def LookAside.none : LookAside := ⟨0, 0, false, 0, 0, 0, 0⟩

/-- The walk of a paged KVREAD in memory. -/
def walkMemory (s : State) (core d : Nat) : Walk := walkWith s core d LookAside.none {}

/-- The walk of a paged KVREAD. Where a look-aside entry differs from memory, which version of each word is used is not
determined (R304). -/
def walkPaged (s : State) (core d : Nat) : Walk :=
  let w := walkMemory s core d
  match lookAside? (s.core core) d with
  | none => w
  | some e =>
    if w.found.ok && walkWith s core d e ⟨true, true, true⟩ == w then w
    else walkWith s core d e ⟨Config.staleHit s.free, Config.staleHit (s.free + 1), Config.staleHit (s.free + 2)⟩

/-- The walk of a linear KVREAD: its header fields from the descriptor. -/
def walkLinear (d : Nat) : Walk :=
  ⟨1 + (b2n (bit d 228)) <<< 16 + (fld d 224 4) <<< 20, true, kvLen d, 0, {}⟩

def walkOf (s : State) (core d : Nat) : Walk := if kvLinear d then walkLinear d else walkPaged s core d

/-- The descriptor that slot A names, with its stain; none beyond the core store. -/
def kvDescBits (x : Issue) (s : State) (n : Nat) : Option (Nat × Bool) :=
  if storeBytes < x.reg s 0 + n then none else some (numOf (s.load (storeAddr x.core (x.reg s 0)) n))

/-- Bytes that a KVREAD writes (R301). -/
def kvOutBytes (h : Nat) (values : Bool) : Nat :=
  128 * kvD h * cacheBytes (kvFmt h) + (if kvFmt h == 3 then 4 * (if values then kvD h else 128) else 0)

/-- Tokens of the block that lie in the sequence. -/
def kvTokens (d len : Nat) : Nat := min 128 (len - 128 * kvKb d)

/-- Whether a linear KVREAD that is not EMPTY reads beyond what it may reach (R222, R300): the whole span from its block's first token to its
last counts, the gaps that a larger pitch leaves included (R222 speaks of the address range and R300 of no gaps; DESIGN CHOICE, log 28). -/
def linearBeyond (s : State) (core d : Nat) : Bool :=
  let w := walkLinear d
  let bytes := kvD w.header * cacheBytes (kvFmt w.header)
  !emptyBlock (keptRows s core (kvMask d) (kvKb d) w.len (kvK0 d)) &&
    !s.kvRange (kvBase d + 128 * kvKb d * kvPitch d) ((kvTokens d w.len - 1) * kvPitch d + bytes)

/-- Issue checks of KVREAD (R222, R286, R287, R298, R300, R301). A table header is read also at a base off its 64-byte boundary, so what
it shows ranks before MISALIGNED as R222 orders the classes (R300 does not say whether such a header is read; the model's choice,
log 29). An instruction that its descriptor or its skip list already refuses walks no table, so that what a table word shows neither refuses it nor
marks its refusal (R298 and R222 do not say; the model's choice, log 29). -/
def checkKvread (x : Issue) (s : State) : Option IssueRefusal :=
  match kvDescBits x s 128 with
  | none => firstOf [(x.anyStain s [0, 1], byStain), (true, outOfRange)]
  | some (d, stain) =>
    let m := kvMask d
    let skip := if maskSkip m then skipEntries s x.core m else []
    let bad := badKvDesc d || !ascending (skip.map Prod.fst)
    let w := if bad then walkLinear 0 else walkOf s x.core d
    let h := w.header
    let sized := w.headed && !bad
    firstOf ([
      (x.anyStain s [0, 1] || stain || skip.any Prod.snd || (!bad && w.found.stain), byStain),
      (bad || w.found.bad || (sized && ((!kvLinear d && decide (2 ^ kvG h ≤ kvHead d)) ||
        (cacheBytes (kvFmt h) == 2 && decide (2 < kvQuery d)))), badField),
      (w.found.range || decide (storeBytes < maskList m + 4 * maskCount m) ||
        (sized && (decide (storeBytes < x.reg s 1 + kvOutBytes h (kvValues d)) || (kvLinear d && linearBeyond s x.core d))), outOfRange),
      (w.found.misaligned || x.reg s 0 % 64 != 0 || x.reg s 1 % 64 != 0 || kvBase d % 64 != 0 || maskList m % 4 != 0 ||
        (kvLinear d && kvPitch d % 64 != 0), misaligned)])

/-- Device address of local key u of the block's head (R295, R300). -/
def tokenAddr (d : Nat) (w : Walk) (u : Nat) : Nat :=
  if kvLinear d then kvBase d + u * kvPitch d
  else pageBase w.page + (kvHead d * 256 + u % 256) * kvD w.header * cacheBytes (kvFmt w.header)

/-- The elements of local key u: +0 beyond the sequence or in an EMPTY block (R285, R292, R302). -/
def tokenBytes (s : State) (d : Nat) (w : Walk) (empty : Bool) (u : Nat) : List (Byte × Bool) :=
  let n := kvD w.header * cacheBytes (kvFmt w.header)
  if empty || decide (w.len ≤ u) then List.replicate n (0, false) else s.load (tokenAddr d w u) n

/-- The page's scale for the head, or the linear scale; that of an EMPTY paged block is open, below 0xFF (R292). -/
def kvScale (d : Nat) (w : Walk) (empty : Bool) : Byte :=
  if kvLinear d then BitVec.ofNat 8 (fld d 232 8)
  else if empty then BitVec.ofNat 8 (Config.emptyScale d).val
  else BitVec.ofNat 8 (pageScale w.page (kvHead d))

/-- The destination's bytes (R301): stored rows, transposed for values, then the scale array of an FP8 block. -/
def kvOut (s : State) (d : Nat) (w : Walk) (empty : Bool) : List (Byte × Bool) :=
  let e := cacheBytes (kvFmt w.header)
  let dim := kvD w.header
  let keys := (List.range 128).map fun j => tokenBytes s d w empty (128 * kvKb d + j)
  let data := if kvValues d then
      (List.range dim).flatMap fun i => keys.flatMap fun row => (row.drop (i * e)).take e
    else keys.flatten
  let used := (if kvValues d then 128 else dim) / 32
  let scale := kvScale d w empty
  let one := List.replicate used (scale, false) ++ List.replicate (4 - used) (0x7F, false)
  if kvFmt w.header == 3 then data ++ ((List.range (if kvValues d then dim else 128)).flatMap fun _ => one) else data

/-- The mask tile's rows (R288). -/
def maskRow (m i : Nat) (row : List Bool) : List (Byte × Bool) :=
  row.map fun k => (if k && decide (i < maskRows m) then 0x38 else 0, false)

/-- The row-live register after a block (R289), and the flag that a last block raises. -/
def rowLiveAfter (d old : Nat) (rows : List (List Bool)) : Nat × Nat :=
  let start := if kvFirst d then 0 else old
  let live := rows.zipIdx.foldl (fun n (r, i) => if r.any id && !bit n i then n + 2 ^ i else n) start
  let missing := (List.range (maskRows (kvMask d))).any fun i => !bit live i
  (live, if kvLast d && missing then fAllMasked else 0)

/-- The mask tile, the row-live register and ALL_MASKED of a KVREAD of keys (R288, R289). -/
def State.kvMaskTile (s : State) (x : Issue) (d : Nat) (rows : List (List Bool)) : State :=
  let (live, fl) := rowLiveAfter d (s.core x.core).rowLive rows
  let s := rows.zipIdx.foldl (fun s (r, i) => s.putTile x.core (kvMaskBuf d) (512 * i) (maskRow (kvMask d) i r)) s
  (s.onCore x.core fun k => { k with rowLive := live }).raise x fl

/-- The look-aside buffer after a paged walk (R303): the entry used comes first, and the least recently used goes. An EMPTY block, for
which no page entry is read, leaves no entry on a miss and keeps the old words on a hit (R303 does not say; the model's choice,
log 29). -/
def CoreState.lookUsed (k : CoreState) (d : Nat) (w : Walk) (empty : Bool) : CoreState :=
  match lookAside? k d with
  | some e => { k with lookAside := (if empty then e else { e with header := w.header, length := w.len, page := w.page }) :: k.lookAside.erase e }
  | none =>
    if empty then k
    else { k with lookAside := (⟨kvBase d, kvSeqNum d, kvValues d, kvSlot d, w.header, w.len, w.page⟩ :: k.lookAside).take 64 }

/-- The table words that the walk of a paged KVREAD reads in memory (R302): the header, the sequence entry, the page entry, each as far as the
one before it stands; none on a look-aside hit. -/
def walkReads (s : State) (core d : Nat) : List (Nat × Nat) :=
  let a := kvBase d + 64 + 32 * kvSeqNum d
  let h := s.kvHeader (kvBase d)
  let q := s.kvSeq (kvBase d) (kvSeqNum d)
  let p := seqList q.1 (kvValues d) + 16 * kvSlot d
  if kvLinear d || (lookAside? (s.core core) d).isSome || !s.interleaved (kvBase d) 64 then []
  else if h.2.ends || decide (kvSeqs h.1 ≤ kvSeqNum d) || !s.interleaved a 32 then [(kvBase d, 64)]
  else if q.2.ends || emptyBlock (keptRows s core (kvMask d) (kvKb d) (seqLen q.1) (kvK0 d)) || !s.kvRange p 16 then [(kvBase d, 64), (a, 32)]
  else [(kvBase d, 64), (a, 32), (p, 16)]

/-- What the issue checks of a KVREAD read (R300, R302): the descriptor, the skip list, the table words. -/
def kvreadWords (x : Issue) (s : State) : List (Nat × Nat) :=
  match kvDescBits x s 128 with
  | none => []
  | some (d, _) =>
    let m := kvMask d
    let skip := if maskSkip m && decide (maskList m + 4 * maskCount m ≤ storeBytes) then [(storeAddr x.core (maskList m), 4 * maskCount m)] else []
    (storeAddr x.core (x.reg s 0), 128) :: skip ++ (if badKvDesc d then [] else walkReads s x.core d)

/-- Reads of several ranges, with their counts and events (R503). -/
def State.noteReads (s : State) (l : List (Nat × Nat)) : State := l.foldl (fun s r => s.noteRead r.1 r.2) s

/-- Counts and events of the words that a KVREAD reads (R503). -/
def State.kvNote (s : State) (x : Issue) (d : Nat) (w : Walk) (empty : Bool) : State :=
  let s := s.noteReads (kvreadWords x s)
  if empty then s
  else (List.range (kvTokens d w.len)).foldl
    (fun s j => s.noteRead (tokenAddr d w (128 * kvKb d + j)) (kvD w.header * cacheBytes (kvFmt w.header))) s

/-- KVREAD (R285, R288, R289, R301–R303). -/
def applyKvread (x : Issue) (s : State) : State :=
  let d := ((kvDescBits x s 128).getD (0, false)).1
  let w := walkOf s x.core d
  let rows := keptRows s x.core (kvMask d) (kvKb d) w.len (kvK0 d)
  let empty := emptyBlock rows
  let out := kvOut s d w empty
  let s1 := (s.kvNote x d w empty).put (x.core + 1) (storeAddr x.core (x.reg s 1)) out
  let s2 := if kvValues d then s1 else s1.kvMaskTile x d rows
  let s3 := if kvLinear d then s2 else s2.onCore x.core fun k => k.lookUsed d w empty
  { s3 with free := s3.free + 3 }

/-! ### KVAPPEND (R306–R312) -/

/-- Fields of a KVAPPEND descriptor (R306). -/
def apTable (d : Nat) : Nat := fld d 0 48
def apRing (d : Nat) : Nat := fld d 64 48
def apSource (d : Nat) (values : Bool) : Nat := if values then fld d 160 32 else fld d 128 32
def apList (d : Nat) : Nat := fld d 192 32
def apEntries (d : Nat) : Nat := fld d 224 7 + 1
def apBF16 (d : Nat) : Bool := fld d 232 4 == 2
def apHeadroom (d : Nat) : Nat := fld d 236 2

/-- Illegal values of a KVAPPEND descriptor (R306). -/
def badAppend (d : Nat) : Bool :=
  fld d 48 16 != 0 || fld d 112 16 != 0 || bit d 231 || (fld d 232 4 != 0 && fld d 232 4 != 2) || fld d 238 274 != 0

/-- Bytes of a source element. -/
def apWidth (d : Nat) : Nat := if apBF16 d then 2 else 4

/-- The append list's entries with their stain (R306); empty where the list does not lie in the core store. -/
def appendEntries (s : State) (core d : Nat) : List (Nat × Bool) :=
  if storeBytes < apList d + 8 * apEntries d then []
  else (List.range (apEntries d)).map fun i => numOf (s.load (storeAddr core (apList d + 8 * i)) 8)

/-- Sequence and count of an append-list entry. -/
def entrySeq (e : Nat) : Nat := fld e 0 16
def entryCount (e : Nat) : Nat := fld e 16 9

/-- Whether an append-list entry is illegal (R306). -/
def badEntry (e : Nat) : Bool := entryCount e == 0 || decide (256 < entryCount e) || fld e 25 39 != 0

/-- Free-page ring header fields (R308). -/
def ringProducer (h : Nat) : Nat := fld h 0 32
def ringConsumer (h : Nat) : Nat := fld h 32 32
def ringSize (h : Nat) : Nat := fld h 64 5
def ringOwner (h : Nat) : Nat := fld h 72 8

/-- Frames that a ring holds. -/
def ringHeld (h : Nat) : Nat := (ringProducer h + 2 ^ 32 - ringConsumer h) % 2 ^ 32

/-- The ring header at a base: its bits and what its checks find, the owner apart (R308). -/
def State.kvRing (s : State) (base : Nat) : Nat × Found :=
  if !s.interleaved base 64 then (0, { range := true })
  else
    let (h, t) := numOf (s.load base 64)
    let bad := decide (2 ^ ringSize h < ringHeld h) || decide (ringSize h < 4) || decide (20 < ringSize h) ||
      fld h 69 3 != 0 || fld h 80 432 != 0
    (h, { stain := t, bad := bad })

/-- The frame at ring index n: a number and what was found. -/
def State.ringFrame (s : State) (base h n : Nat) : Nat × Found :=
  let a := base + 64 + 8 * (n % 2 ^ ringSize h)
  if !s.interleaved a 8 then (0, { range := true })
  else
    let (v, t) := numOf (s.load a 8)
    (fld v 0 28, { stain := t })

/-- The scale code of a head's source elements that land in a page (R110, R311). -/
def kvScaleCode (fmt headroom : Nat) (vs : List Val) : Nat :=
  let amax := vs.foldl (fun (a : Val) v => if v.isFinite && decide (a.cmp v.abs < 0) then v.abs else a) (.zero false)
  match fmt, amax with
  | 3, .fin m e => (max 0 (min 254 ((Val.fin m e).ilog2 - 8 + headroom + 127))).toNat
  | _, _ => 0x7F

/-- A source value: bfloat16 or binary32, with its stain. -/
def sourceElem (s : State) (core d : Nat) (a : Nat) : Val × Bool :=
  let r := numOf (s.load (storeAddr core a) (apWidth d))
  (if apBF16 d then fpBF16.decode r.1 else f32 r.1, r.2)

/-- The conversion of a source value into the cache format (R311). -/
def cacheElem (fmt scale : Nat) (v : Val) : Rounded :=
  if fmt == 3 then (if scale == 255 then { code := 0x7F, nonfinite := true } else fpE4M3.convert .nearest true (v.scale (127 - scale)))
  else (fpOf fmt).convert .nearest false v

/-- What a KVAPPEND has done so far: the state, what was found, statuses in order, frames taken, flags raised; the table and ring words that
it has read, and the ranges outside the core store that it writes. -/
structure Appending where
  s : State
  found : Found := {}
  status : List Nat := []
  taken : Nat := 0
  flags : Nat := 0
  reads : List (Nat × Nat) := []
  writes : List (Nat × Nat) := []

/-- One part of an entry: its tokens of one kind that land in one page (R310, R311). -/
structure PagePart where
  values : Bool
  /-- Slot and its page entry, before the append; whether the page had fill 0. -/
  slot : Nat
  page : Nat
  fresh : Bool
  /-- First token of the page, and the source token of it, and how many. -/
  first : Nat
  source : Nat
  count : Nat
  deriving DecidableEq, Repr

/-- The source address of element i of head h of source token t (R306). -/
def sourceAddr (d hd : Nat) (values : Bool) (t h i : Nat) : Nat :=
  apSource d values + ((t * 2 ^ kvG hd + h) * kvD hd + i) * apWidth d

/-- The elements of one head of a part: by token, then element. -/
def partElems (s : State) (core d hd : Nat) (p : PagePart) (h : Nat) : List (Val × Bool) :=
  (List.range p.count).flatMap fun t => (List.range (kvD hd)).map fun i => sourceElem s core d (sourceAddr d hd p.values (p.source + t) h i)

/-- One part written: the tokens of every head, the page entry with its fill and, on a fresh page, its scales. -/
def Appending.part (a : Appending) (core d hd q : Nat) (p : PagePart) : Appending :=
  let fmt := kvFmt hd
  let heads := (List.range (2 ^ kvG hd)).map fun h =>
    let es := partElems a.s core d hd p h
    let scale := if p.fresh then kvScaleCode fmt (apHeadroom d) (es.map Prod.fst) else pageScale p.page h
    let tainted := p.fresh && fmt == 3 && es.any Prod.snd
    (h, scale, tainted, es.map fun (v, t) => (cacheElem fmt scale v, t || tainted))
  let s := heads.foldl (fun s (h, _, _, rs) =>
    s.put (core + 1) (pageBase p.page + (h * 256 + p.first) * kvD hd * cacheBytes fmt)
      (rs.flatMap fun (r, t) => (leBytes (cacheBytes fmt) r.code).map fun b => (b, t))) a.s
  let scales := (List.range 8).map fun h => match heads[h]? with
    | some (_, scale, _, _) => BitVec.ofNat 8 scale
    | none => 0x7F
  let slotAt := seqList q p.values + 16 * p.slot
  let low := setFld (fld p.page 0 64) 28 9 (p.first + p.count)
  let s := s.putNum (core + 1) slotAt 8 low false
  let s := if p.fresh then s.put (core + 1) (slotAt + 8) (scales.map fun b => (b, heads.any fun (_, _, t, _) => t)) else s
  { a with s := s, flags := heads.foldl (fun f (_, _, _, rs) => rs.foldl (fun f (r, t) => f ||| r.flags t) f) a.flags }

/-- The parts of an entry for one kind, slot by slot; a new slot's page entry carries its frame (R310). Frame n of the entry's is
frames[n]. -/
def entryParts (s : State) (hd q n base : Nat) (frames : List Nat) (values : Bool) : List (PagePart × Found) :=
  let len := seqLen q
  let last := (len + n - 1) / 256
  (List.range (last - len / 256 + 1)).map fun i =>
    let slot := len / 256 + i
    let lo := max len (256 * slot)
    let hi := min (len + n) (256 * slot + 256)
    let fresh := decide (len ≤ 256 * slot)
    let number := 2 * (slot - cdiv len 256) + b2n values
    let (page, f) := if fresh then
        let e := frames.getD number 0 + 2 ^ 37 + (b2n values) <<< 38
        (e, ({ range := !s.interleaved (pageBase e) (pageBytes hd) || !s.kvRange (seqList q values + 16 * slot) 16 } : Found))
      else s.kvPage hd q slot values
    (⟨values, slot, page, fresh, lo - 256 * slot, base + (lo - len), hi - lo⟩, f)

/-- The look-aside entries that an append of n tokens to a sequence of a length changes (R303). -/
def State.lookAppended (s : State) (core d seq len n : Nat) : State :=
  let q := (s.kvSeq (apTable d) seq).1
  let mend (e : LookAside) : LookAside :=
    if e.base == apTable d && e.seq == seq then
      let changed := decide (len / 256 ≤ e.slot) && decide (e.slot ≤ (len + n - 1) / 256)
      let page := if changed then (numOf (s.load (seqList q e.values + 16 * e.slot) 16)).1 else e.page
      { e with length := len + n, page := page }
    else e
  s.onCore core fun k => { k with lookAside := k.lookAside.map mend }

/-- One status entry (R307). -/
def statusEntry (status frames len : Nat) : Nat := status + frames <<< 8 + (len % 2 ^ 32) <<< 16

/-- One list entry of a KVAPPEND (R310); base is the total of the counts before it. -/
def Appending.entry (a : Appending) (core d hd rh : Nat) (e base : Nat) : Appending :=
  let seq := entrySeq e
  let n := entryCount e
  if kvSeqs hd ≤ seq then
    { a with status := a.status ++ [statusEntry stOutOfRange 0 (Config.noLength d a.status.length).toNat] }
  else
    let (q, fq) := a.s.kvSeq (apTable d) seq
    let a := { a with found := a.found.join fq, s := a.s.noteRead (apTable d + 64 + 32 * seq) 32, reads := a.reads ++ [(apTable d + 64 + 32 * seq, 32)] }
    let len := seqLen q
    let p := cdiv (len + n) 256 - cdiv len 256
    if !fq.ok then { a with status := a.status ++ [0] }
    else if 256 * seqCap q < len + n then { a with status := a.status ++ [statusEntry stOutOfRange 0 len] }
    else if ringHeld rh < a.taken + 2 * p then { a with status := a.status ++ [statusEntry stKvExhausted 0 len] }
    else
      let frames := (List.range (2 * p)).map fun i => a.s.ringFrame (apRing d) rh (ringConsumer rh + a.taken + i)
      let parts : List (PagePart × Found) := entryParts a.s hd q n base (frames.map Prod.fst) false ++ entryParts a.s hd q n base (frames.map Prod.fst) true
      let found := (frames.map Prod.snd ++ parts.map Prod.snd).foldl Found.join a.found
      let list (p : PagePart) : Nat × Nat := (seqList q p.values + 16 * p.slot, 16)
      let ring := (List.range (2 * p)).map fun i => (apRing d + 64 + 8 * ((ringConsumer rh + a.taken + i) % 2 ^ ringSize rh), 8)
      let words := ring ++ ((parts.map Prod.fst).filter fun p => !p.fresh).map list
      let wrote : List (Nat × Nat) := parts.flatMap fun x => [list x.1, (pageBase x.1.page, pageBytes hd)]
      let a := { a with reads := a.reads ++ words, writes := a.writes ++ wrote }
      if !found.ok then { a with found := found, status := a.status ++ [0] }
      else
        let a := { a with s := a.s.noteReads words }
        let a := parts.foldl (fun a (p, _) => a.part core d hd q p) { a with found := found }
        let s := a.s.putNum (core + 1) (apTable d + 64 + 32 * seq) 4 (len + n) false
        let s := s.putNum (core + 1) (apRing d + 4) 4 (ringConsumer rh + a.taken + 2 * p) false
        { a with s := s.lookAppended core d seq len n, taken := a.taken + 2 * p,
                 status := a.status ++ [statusEntry stDone (2 * p) len] }

/-- A KVAPPEND run over its list (R310). -/
def appendRun (core d hd rh : Nat) (es : List Nat) (s : State) : Appending :=
  (es.foldl (fun (st : Appending × Nat) e => (st.1.entry core d hd rh e st.2, st.2 + entryCount e)) ({ s := s }, 0)).1

/-- Bytes of the K source, or of the V source. -/
def sourceBytes (d hd : Nat) (es : List Nat) : Nat := (es.map entryCount).sum * 2 ^ kvG hd * kvD hd * apWidth d

/-- The run that the checks of a KVAPPEND make beforehand (R298, R310): every word that it uses is checked, whatever else is out of range; where
the ring header does not stand no entry takes a frame; none where the table header, the descriptor or the list is bad (R222 and R298 do not say
whether the words behind are then read; the model's choice, log 29). -/
def appendChecked (x : Issue) (s : State) (d : Nat) : Option Appending :=
  let es := (appendEntries s x.core d).map Prod.fst
  let (hd, fh) := s.kvHeader (apTable d)
  let (rh, fr) := s.kvRing (apRing d)
  if fh.ok && !(badAppend d || es.any badEntry) then some (appendRun x.core d hd (if fr.ok then rh else 0) es s) else none

/-- What the issue checks of a KVAPPEND read: the descriptor, the list, the headers of the table and of the ring, and the words that the run
reads. -/
def kvappendWords (x : Issue) (s : State) : List (Nat × Nat) :=
  match kvDescBits x s 64 with
  | none => []
  | some (d, _) =>
    (storeAddr x.core (x.reg s 0), 64) ::
      (if apList d + 8 * apEntries d ≤ storeBytes then [(storeAddr x.core (apList d), 8 * apEntries d)] else []) ++
      (if s.interleaved (apTable d) 64 then [(apTable d, 64)] else []) ++ (if s.interleaved (apRing d) 64 then [(apRing d, 64)] else []) ++
      (match appendChecked x s d with
        | some a => a.reads
        | none => [])

/-- The ranges outside the core store that a KVAPPEND reads and writes. -/
def kvappendRanges (x : Issue) (s : State) : List (Nat × Nat) :=
  match kvDescBits x s 64 with
  | none => []
  | some (d, _) =>
    (apTable d, 64) :: (apRing d, 64) :: (match appendChecked x s d with
      | some a => a.reads ++ a.writes
      | none => [])

/-- Issue checks of KVAPPEND (R222, R298, R306–R308, R312). The headers of the table and of the ring are read also at a base off its 64-byte
boundary, so what they show ranks before MISALIGNED (R306 does not say whether such a header is read; the model's choice, log 29). -/
def checkKvappend (x : Issue) (s : State) : Option IssueRefusal :=
  match kvDescBits x s 64 with
  | none => firstOf [(x.anyStain s [0, 1], byStain), (true, outOfRange)]
  | some (d, stain) =>
    let list := appendEntries s x.core d
    let es := list.map Prod.fst
    let (hd, fh) := s.kvHeader (apTable d)
    let (rh, fr) := s.kvRing (apRing d)
    let bad := badAppend d || es.any badEntry
    let f := fh.join fr
    let beyond := decide (storeBytes < apList d + 8 * apEntries d) || decide (storeBytes < x.reg s 1 + 8 * apEntries d) ||
      (fh.ok && (decide (storeBytes < apSource d false + sourceBytes d hd es) || decide (storeBytes < apSource d true + sourceBytes d hd es)))
    let off := x.reg s 0 % 64 != 0 || x.reg s 1 % 8 != 0 || apTable d % 64 != 0 || apRing d % 64 != 0 || apSource d false % 64 != 0 ||
      apSource d true % 64 != 0 || apList d % 8 != 0
    let run := ((appendChecked x s d).map Appending.found).getD {}
    let all := (f.join run).join { stain := x.anyStain s [0, 1] || stain || list.any Prod.snd, bad := bad, range := beyond, misaligned := off }
    firstOf (all.checks ++ [(ringOwner rh != x.core, wrongState)])

/-- KVAPPEND (R307, R310, R311): the appends, then the status vector. -/
def applyKvappend (x : Issue) (s : State) : State :=
  let d := ((kvDescBits x s 64).getD (0, false)).1
  let es := (appendEntries s x.core d).map Prod.fst
  let hd := (s.kvHeader (apTable d)).1
  let rh := (s.kvRing (apRing d)).1
  let s0 := ((s.noteRead (storeAddr x.core (x.reg s 0)) 64).noteRead (storeAddr x.core (apList d)) (8 * apEntries d)).noteRead
    (storeAddr x.core (apSource d false)) (sourceBytes d hd es)
  let s1 := ((s0.noteRead (storeAddr x.core (apSource d true)) (sourceBytes d hd es)).noteRead (apTable d) 64).noteRead (apRing d) 64
  let a := appendRun x.core d hd rh es s1
  let s2 := a.s.put (x.core + 1) (storeAddr x.core (x.reg s 1)) (a.status.flatMap fun v => (leBytes 8 v).map fun b => (b, false))
  s2.raise x a.flags

/-- KVFLUSH (R303). -/
def applyKvflush (x : Issue) (s : State) : State := s.onCore x.core fun k => { k with lookAside := [] }

end Sys2Proof.Machine
end

