-- ==== Sys2Proof/Machine/Sequencer.lean ====
section
/-! DEFINITION. A core's sequencer (R176–R178, R214, R216–R233): interlocks, issue, the operations it performs itself, loops, holds,
and the hand-over of every other instruction to its unit. -/

namespace Sys2Proof.Machine

/-! ### What an instruction reads and writes (R177, R214, R228)

Resources are numbered: vector registers from 0, tile buffers from 32, kernel slots from 40, scalar registers from 64,
accumulator tiles from 100. -/

def resV (n : Nat) : Nat := n
def resT (n : Nat) : Nat := 32 + n
def resK (n : Nat) : Nat := 40 + n
def resS (n : Nat) : Nat := 64 + n
def resA (n : Nat) : Nat := 100 + n

/-- The tiles of accumulator rows [r, r + m), and in compensated mode the low tile beside each (R167, R177). -/
def resRows (r m : Nat) (pair : Bool) : List Nat :=
  (List.range ((r + m - 1) / 128 - r / 128 + 1)).flatMap fun i =>
    if pair then [resA (r / 128 + i), resA (r / 128 + i + 1)] else [resA (r / 128 + i)]

/-- The own tiles that a range of device addresses touches (R229). -/
def resDevice (c a n : Nat) : List Nat :=
  let lo := accBase + c * 2 ^ 21
  if n = 0 ∨ a + n ≤ lo ∨ lo + 2 ^ 21 ≤ a then []
  else resRows ((max a lo - lo) / 512) ((min (a + n) (lo + 2 ^ 21) - lo + 511) / 512 - (max a lo - lo) / 512) false

/-- The scalar registers in the slots of a list. -/
def resSlots (w : Nat) (l : List Nat) : List Nat := l.map fun i => resS (Word.slot w i)

/-- The vector registers in the slots of a list. -/
def resVecs (w : Nat) (l : List Nat) : List Nat := l.map fun i => resV (Word.slot w i)

/-- A kernel input's resources (R243). -/
def resInput (f : Nat) : List Nat :=
  let id := fld f 2 5
  match fld f 0 2 with
  | 0 => [resT id]
  | 1 => [resA id]
  | 2 => [resA id, resA (id + 1)]
  | _ => [resV id]

/-- A kernel output's resource (R243). -/
def resOutput (f : Nat) : Nat := if bit f 0 then resA (fld f 1 5) else resT (fld f 1 5)

/-- The rows of a COPY's or FILL's place, as resources (R214, R229). -/
def resPlace (c : Nat) (p : Place) (h : Shape) (a pitch : Nat) : List Nat :=
  match p with
  | .tile t => [resT t]
  | .device => (h.starts a pitch).flatMap fun r => resDevice c r h.bytes

/-- Scalar registers that an instruction reads (R220: only those that its operation reads). -/
def scalarReads (o : CoreOp) (w : Nat) : List Nat :=
  match o with
  | .salu => resSlots w (if bit w 61 then [1] else [1, 2])
  | .sld => resSlots w [1]
  | .sst => resSlots w [0, 1]
  | .loadset => resSlots w [0, 1]
  | .pass | .enq => resSlots w [0, 1, 2, 3]
  | .matvec => resSlots w [0, 1, 2, 3] ++ (List.range 3).map fun i => resS (Word.slot w 4 + i)
  | .combine | .vsetvl | .kload | .wpool => resSlots w [0]
  | .vcvt => resSlots w ((if isMX (fld w 57 4) then [2] else []) ++ (if fld w 65 2 == 1 then [3] else []) ++ (if bit w 82 then [4] else []))
  | .vmovs | .rtrow => resSlots w [1]
  | .vld | .vst => if fld w 57 2 == 2 then resSlots w [1] else []
  | .kapply => resSlots w ([0, 1] ++ (if fld w 61 2 == 1 then [3] else []) ++ (if bit w 120 then [4] else [])) ++
      (List.range 8).map fun i => resS (Word.slot w 2 + i)
  | .wrun => resSlots w [0, 1, 2]
  | .copy | .fill | .dsplit => resSlots w [0, 1, 2, 3]
  | .fsend => resSlots w [0, 1, 2]
  | .bsend | .kvread | .kvappend => resSlots w [0, 1]
  | _ => []

/-- Kernel inputs of the image in a KAPPLY's slot. -/
def kapplyFields (x : Issue) (s : State) : List Nat := kapplyInputs x.word ((kapplyImage x s).headD 0)

/-- The device range that a linear KVREAD may read (R229, R300): the tokens of its block. -/
def linearRange (x : Issue) (s : State) : Option (Nat × Nat) :=
  match kvDescBits x s 128 with
  | some (d, _) =>
    let w := walkLinear d
    if kvLinear d && decide (0 < kvTokens d w.len) then
      some (kvBase d + 128 * kvKb d * kvPitch d, (kvTokens d w.len - 1) * kvPitch d + kvD w.header * cacheBytes (kvFmt w.header))
    else none
  | none => none

/-- The table and page words of a paged KVREAD, which a page list in the core's own accumulator memory makes it interlock on (R229, R296). -/
def kvreadPages (x : Issue) (s : State) : List (Nat × Nat) :=
  match kvDescBits x s 128 with
  | some (d, _) => if badKvDesc d then [] else walkReads s x.core d
  | none => []

/-- Resources other than scalar registers that an instruction reads. -/
def unitReads (o : CoreOp) (x : Issue) (s : State) : List Nat :=
  let w := x.word
  let c := x.core
  match o with
  | .combine => ((combineList x s).filter fun e => fld e.1 0 8 == c).flatMap fun e =>
      resA (fld e.1 8 5) :: (if bit w 78 then [resA (fld e.1 8 5 + 1)] else [])
  | .vop => resVecs w ([[1], [1, 2], [1, 2, 3]].getD (vopArity (fld w 57 6) - 1) [1, 2, 3])
  | .vcvt | .vsplit | .rreg => resVecs w [1]
  | .vperm => resVecs w [1, 2]
  | .vld => match fld w 57 2 with
    | 0 => [resT (fld w 59 3)]
    | 1 => resRows (fld w 62 12) 1 (bit w 76)
    | _ => []
  | .vst => resVecs w [0]
  | .kapply => resK (fld w 57 4) :: (kapplyFields x s).flatMap resInput
  | .rtrow => resInput (rtrowField w)
  | .copy => resPlace c (placeOf w 57 58) (copyShape x s) (x.reg s 0) (copyShape x s).src
  | .dsplit => resDevice c (x.reg s 0) (4 * dsplitCount x s)
  | .fsend => resDevice c (fsendArgs x s).1 (fsendArgs x s).2.2
  | .bsend => resA (fld w 63 5) :: (if bit w 68 then [resA (fld w 63 5 + 1)] else [])
  | .kvread => match linearRange x s with
    | some (a, n) => resDevice c a n
    | none => (kvreadPages x s).flatMap fun r => resDevice c r.1 r.2
  | .kvappend => (kvappendRanges x s).flatMap fun r => resDevice c r.1 r.2
  | _ => []

/-- Resources that an instruction writes. -/
def unitWrites (o : CoreOp) (x : Issue) (s : State) : List Nat :=
  let w := x.word
  let c := x.core
  match o with
  | .sli | .salu | .sld | .sid | .sflag | .rreg => resSlots w [0]
  | .pass => resRows (fld w 80 12) (fld w 68 12 + 1) (fld w 105 2 == 1) ++
      (match passSet x s with
        | some t => if 128 < t.n then resRows (fld w 92 12) (fld w 68 12 + 1) (fld w 105 2 == 1) else []
        | none => [])
  | .enq => resRows (fld w 68 12) 1 (fld w 81 2 == 1)
  | .matvec => resRows (fld w 65 12) ((fld (matvecReg x s 0) 32 20 + 127) / 128) (fld w 77 2 == 1)
  | .tclr => [resA (fld w 57 5)]
  | .combine => if fld w 65 8 == c then resA (fld w 73 5) :: (if bit w 78 then [resA (fld w 73 5 + 1)] else []) else []
  | .vop | .vperm | .vmovs | .vld => resVecs w [0]
  | .vcvt => resVecs w [0] ++ (if isMX (fld w 61 4) then resSlots w [2] else [])
  | .vsplit => [resV (Word.slot w 0), resV (Word.slot w 0 + 1)]
  | .vst => match fld w 57 2 with
    | 0 => [resT (fld w 59 3)]
    | 1 => resRows (fld w 62 12) 1 false
    | _ => []
  | .kload => [resK (fld w 57 4)]
  | .kapply => (kapplyOuts ((kapplyImage x s).headD 0)).map fun i => resOutput (kapplyOut w i)
  | .rtrow => resV (Word.slot w 0) :: (if 3 < Word.reduceOp w then [resV (Word.slot w 0 + 1)] else [])
  | .wrun => resRows (windowOf x s).row (windowOf x s).rows ((windowOf x s).mode == 1)
  | .wpool => resRows (windowOf x s).row (windowOf x s).rows false ++
      (if (windowOf x s).indexOut then resRows (windowOf x s).second (windowOf x s).m false else [])
  | .copy => resPlace c (placeOf w 61 62) (copyShape x s) (x.reg s 1) (copyShape x s).dst
  | .fill => resPlace c (placeOf w 61 62) (copyShape x s) (x.reg s 1) (copyShape x s).dst
  | .dsplit => resDevice c (x.reg s 1) (2 * dsplitCount x s) ++ resDevice c (x.reg s 2) (2 * dsplitCount x s)
  | .kvread => match kvDescBits x s 128 with
    | some (d, _) => if kvValues d then [] else [resT (kvMaskBuf d)]
    | none => []
  | .kvappend => (kvappendRanges x s).flatMap fun r => resDevice c r.1 r.2
  | _ => []

/-- Whether an instruction is of the chain class (R176). -/
def CoreOp.chain : CoreOp → Bool
  | .pass | .enq | .flush | .matvec | .wrun => true
  | _ => false

/-- Whether an instruction must wait for an operation begun before it (R177, R214, R228). -/
def Pend.conflicts (p : Pend) (chain : Bool) (reads writes : List Nat) : Bool :=
  !(p.chain && chain) && (p.writes.any (fun r => reads.contains r || writes.contains r) || p.reads.any fun r => writes.contains r)

/-- The rows of a place as device ranges. -/
def placeRanges (p : Place) (h : Shape) (a pitch : Nat) : List (Nat × Nat) :=
  match p with
  | .tile _ => []
  | .device => (h.starts a pitch).map fun r => (r, h.bytes)

/-- The device ranges that an instruction's unit reads or writes over the mesh (R38, R493). -/
def unitRanges (o : CoreOp) (x : Issue) (s : State) : List (Nat × Nat) :=
  let h := copyShape x s
  match o with
  | .copy => placeRanges (placeOf x.word 57 58) h (x.reg s 0) h.src ++ placeRanges (placeOf x.word 61 62) h (x.reg s 1) h.dst
  | .fill => placeRanges (placeOf x.word 61 62) h (x.reg s 1) h.dst
  | .dsplit => [(x.reg s 0, 4 * dsplitCount x s), (x.reg s 1, 2 * dsplitCount x s), (x.reg s 2, 2 * dsplitCount x s)]
  | .combine => (combineList x s).map (fun e => (accAddr (fld e.1 0 8) (128 * fld e.1 8 5) 0, 65536)) ++
      [(accAddr (fld x.word 65 8) (128 * fld x.word 73 5) 0, 65536)]
  | .fsend => [((fsendArgs x s).1, (fsendArgs x s).2.2), (fabricBase, 8)]
  | .bsend => [(fabricBase, 8)]
  | .kvread => match linearRange x s, kvDescBits x s 128 with
    | some r, _ => [r]
    | none, some (d, _) =>
      if kvLinear d then []
      else
        let w := walkOf s x.core d
        [(kvBase d, 64), (kvBase d + 64 + 32 * kvSeqNum d, 32), (pageBase w.page, if w.page = 0 then 0 else pageBytes w.header)] ++
          walkReads s x.core d
    | none, none => []
  | .kvappend => kvappendRanges x s
  | _ => []

/-- Whether an interlock holds an instruction. A scalar register is waited for first, since the rest is found through it; an access to a
stack waits until its poisoning is done (R493). -/
def State.interlocked (s : State) (o : CoreOp) (x : Issue) : Bool :=
  let ops := (s.core x.core).ops
  ops.any (fun p => p.conflicts false (scalarReads o x.word) []) ||
    ops.any (fun p => p.conflicts o.chain (unitReads o x s) (unitWrites o x s)) ||
    (!s.power.poisoning.isEmpty && (unitRanges o x s).any fun r => s.poisonHeld r.1 r.2)

/-- Whether a mesh transfer of an instruction has no path, or its unit already holds one that has none (R38, R218). -/
def State.heldUp (s : State) (o : CoreOp) (x : Issue) : Bool :=
  (s.core x.core).ops.any (fun p => p.stuck && p.unit == o.unit) ||
    (s.partitioned && (unitRanges o x s).any fun r => (s.reachDies r.1 r.2).any fun d => s.noPath (x.core / 32) d)

/-! ### Operations of the sequencer itself (R231, R232) -/

/-- The second operand of a SALU, with its stain. -/
def saluSecond (x : Issue) (s : State) : Nat × Bool :=
  if bit x.word 61 then (unsigned 64 (signed 32 (fld x.word 64 32)), false) else (x.reg s 2, x.regStain s 2)

/-- A SALU function on two 64-bit values (R232). -/
def salu (f a b : Nat) : Nat :=
  match f with
  | 0 => (a + b) % 2 ^ 64
  | 1 => (a + 2 ^ 64 - b) % 2 ^ 64
  | 2 => (a * b) % 2 ^ 64
  | 3 => a &&& b
  | 4 => a ||| b
  | 5 => a ^^^ b
  | 6 => (a <<< (b % 64)) % 2 ^ 64
  | 7 => a >>> (b % 64)
  | _ => unsigned 64 (signed 64 a / (2 ^ (b % 64) : Nat))

/-- SLI (R228). -/
def applySli (x : Issue) (s : State) : State := s.onCore x.core fun k => k.setS (Word.slot x.word 0) (fld x.word 64 64) false

/-- SALU (R228, R232). -/
def applySalu (x : Issue) (s : State) : State :=
  let b := saluSecond x s
  s.onCore x.core fun k => k.setS (Word.slot x.word 0) (salu (fld x.word 57 4) (x.reg s 1) b.1) (x.regStain s 1 || b.2)

/-- Effective offset of SLD and SST: base plus the signed immediate, in 64 bits (R232). -/
def sldOffset (x : Issue) (s : State) : Nat := (x.reg s 1 + unsigned 64 (signed 32 (fld x.word 64 32))) % 2 ^ 64

/-- Issue checks of SLD and SST (R222, R232). -/
def checkSld (x : Issue) (s : State) : Option IssueRefusal :=
  firstOf [
    (x.regStain s 1, byStain),
    (decide (0x7FFFF8 < sldOffset x s), outOfRange),
    (sldOffset x s % 8 != 0, misaligned)]

/-- SLD (R228, R231). -/
def applySld (x : Issue) (s : State) : State :=
  let a := storeAddr x.core (sldOffset x s)
  let r := numOf (s.load a 8)
  (s.noteRead a 8).onCore x.core fun k => k.setS (Word.slot x.word 0) r.1 r.2

/-- SST (R231): the register with its stain. -/
def applySst (x : Issue) (s : State) : State := s.saveNum (storeAddr x.core (sldOffset x s)) 8 (x.reg s 0) (x.regStain s 0)

/-- The value that a SID gives (R232). -/
def sidValue (x : Issue) (s : State) : Nat :=
  match fld x.word 57 2 with
  | 0 => x.core
  | 1 => s.ownRank.getD (2 ^ 64 - 1)
  | 2 => x.step
  | _ => s.planCrest

/-- SID (R231). -/
def applySid (x : Issue) (s : State) : State := s.onCore x.core fun k => k.setS (Word.slot x.word 0) (sidValue x s) false

/-- SFLAG (R231): the flag bank of the instruction's step; a parity failure of the bank marks the step's contribution (R492). -/
def applySflag (x : Issue) (s : State) : State :=
  (if (s.core x.core).bankParity x.step then s.markStain x.step else s).onCore x.core fun k => k.setS (Word.slot x.word 0) (k.bank x.step) false

/-- TSIG (R226, R231). -/
def applyTsig (x : Issue) (s : State) : State := s.addToken (fld x.word 63 8) (fld x.word 57 6) (fld x.word 71 16)

/-- Token and threshold of a TWAIT or FRECV (R226). -/
def waitToken (w : Nat) : Nat := fld w 57 6
def waitCount (w : Nat) : Nat := fld w 63 16

/-- A wait that is met subtracts its threshold (R226). -/
def applyWait (x : Issue) (s : State) : State :=
  s.onCore x.core fun k => k.setToken (waitToken x.word) (k.token (waitToken x.word) - waitCount x.word)

/-- CBEGIN (R56): a block opens at instruction index 0. -/
def applyCbegin (x : Issue) (s : State) : State := s.onCore x.core fun k => { k with index := 0, loops := [] }

/-! ### Checks and effects, by instruction -/

/-- The checks that an instruction's issue makes on registers, memory and unit state (R221, R222). -/
def checkIssue (o : CoreOp) (x : Issue) (s : State) : Option IssueRefusal :=
  match o with
  | .sld => checkSld x s
  | .sst => checkSld x s
  | .loadset => checkLoadset x s
  | .pass => checkPass x s
  | .enq => checkEnq x s
  | .matvec => checkMatvec x s
  | .combine => checkCombine x s
  | .vcvt => checkVcvt x s
  | .vperm => checkVperm x s
  | .vsetvl => checkVsetvl x s
  | .vld => checkRowMove x s
  | .vst => checkRowMove x s
  | .kload => checkKload x s
  | .kapply => checkKapply x s
  | .rtrow => checkRtrow x s
  | .wrun => checkWrun x s
  | .wpool => checkWpool x s
  | .copy => checkCopy x s
  | .fill => checkFill x s
  | .dsplit => checkDsplit x s
  | .fsend => checkFsend x s
  | .bsend => checkBsend x s
  | .kvread => checkKvread x s
  | .kvappend => checkKvappend x s
  | _ => none

/-- The words of device memory that an instruction's issue checks read, whatever they find (R221, R222, R503); none where the register that
names them is stained. -/
def issueReads (o : CoreOp) (x : Issue) (s : State) : List (Nat × Nat) :=
  if x.regStain s 0 then []
  else match o with
  | .combine => if listReadable x s then [(storeAddr x.core (x.reg s 0), 2 * (fld x.word 57 8 + 1))] else []
  | .kload => [(storeAddr x.core (x.reg s 0), 4 * (kloadWords x s).length)]
  | .wrun => windowWords x s
  | .wpool => windowWords x s
  | .kvread => kvreadWords x s
  | .kvappend => kvappendWords x s
  | _ => []

/-- What an instruction does. -/
def applyIssue (o : CoreOp) (x : Issue) (s : State) : State :=
  match o with
  | .nop => s
  | .cbegin => applyCbegin x s
  | .cend => s
  | .loop => s
  | .twait => applyWait x s
  | .tsig => applyTsig x s
  | .sli => applySli x s
  | .salu => applySalu x s
  | .sld => applySld x s
  | .sst => applySst x s
  | .sid => applySid x s
  | .sflag => applySflag x s
  | .loadset => applyLoadset x s
  | .pass => applyPass x s
  | .enq => applyEnq x s
  | .flush => applyFlush x s
  | .matvec => applyMatvec x s
  | .tclr => applyTclr x s
  | .combine => applyCombine x s
  | .vop => applyVop x s
  | .vcvt => applyVcvt x s
  | .vsplit => applyVsplit x s
  | .vperm => applyVperm x s
  | .vsetvl => applyVsetvl x s
  | .vmovs => applyVmovs x s
  | .vld => applyVld x s
  | .vst => applyVst x s
  | .kload => applyKload x s
  | .kapply => applyKapply x s
  | .rreg => applyRreg x s
  | .rtrow => applyRtrow x s
  | .wrun => applyWrun x s
  | .wpool => applyWpool x s
  | .copy => applyCopy x s
  | .fill => applyFill x s
  | .dsplit => applyDsplit x s
  | .fsend => applyFsend x s
  | .frecv => applyWait x s
  | .bsend => applyBsend x s
  | .kvread => applyKvread x s
  | .kvappend => applyKvappend x s
  | .kvflush => applyKvflush x s

/-- The table words of a fabric aperture: the entry of the rank bound to it. -/
def State.apertureWords (s : State) (i : Nat) : List TableWord := match s.apertureRank i with
  | some (r, _) => [.rank 0 r]
  | none => []

/-- The table words that an instruction uses (R500): the ledger entries that it converts under, the entries of the ranks that it addresses,
the bucket that it sends to. -/
def tableReads (o : CoreOp) (x : Issue) (s : State) : List TableWord :=
  let place (p : Place) (a : Nat) : List TableWord := if p == .device && inFabric a then s.apertureWords (apertureAt a).1 else []
  let entry (flag : Nat) : List TableWord := (x.ledger s flag).toList.map TableWord.scale
  match o with
  | .pass | .enq => ledgerWords (x.reg s 3)
  | .matvec => ledgerWords (matvecReg x s 2)
  | .wrun => ledgerWords (x.reg s 2)
  | .vcvt => entry 82
  | .kapply => entry 120
  | .fsend => s.apertureWords (Word.aperture x.word)
  | .bsend => .bucket (fld x.word 69 16) :: s.apertureWords (Word.aperture x.word)
  | .copy => place (placeOf x.word 57 58) (x.reg s 0) ++ place (placeOf x.word 61 62) (x.reg s 1)
  | .fill => place (placeOf x.word 61 62) (x.reg s 1)
  | .dsplit => place .device (x.reg s 0) ++ place .device (x.reg s 1) ++ place .device (x.reg s 2)
  | _ => []

/-! ### Position in the block (R233) -/

/-- A loop frame that has not yet recorded the instruction at index i records it. -/
def LoopFrame.record (t : Waiting) (i : Nat) (f : LoopFrame) : LoopFrame :=
  if f.first + f.body.length == i && decide (i ≤ f.last) then { f with body := f.body ++ [t] } else f

/-- What follows the instruction at index i: the open loops, the body to run again, and the next index. -/
def closeLoops (i : Nat) : List LoopFrame → List LoopFrame × List Waiting × Nat
  | [] => ([], [], i + 1)
  | f :: fs =>
    if i == f.last then
      if 1 < f.left then ({ f with left := f.left - 1 } :: fs, f.body, f.first) else closeLoops i fs
    else (f :: fs, [], i + 1)

/-- Whether a LOOP may open: at most 4 deep, within the enclosing body (R233). -/
def loopFits (k : CoreState) (w : Nat) : Bool :=
  decide (k.loops.length < 4) && (match k.loops with
    | [] => true
    | f :: _ => decide (k.index + fld w 73 13 ≤ f.last))

/-- The core past an instruction that opens no loop: the index moves on, and a loop body runs again where iterations are left. -/
def CoreState.step (k : CoreState) (t : Waiting) : CoreState :=
  let (fs, again, next) := closeLoops k.index (k.loops.map (LoopFrame.record t k.index))
  { k with loops := fs, index := next, waiting := again ++ k.waiting }

/-- The core past one instruction that has run. -/
def CoreState.advance (k : CoreState) (t : Waiting) : CoreState :=
  let i := k.index
  if t.op == .loop && loopFits k t.word then
    { k with loops := ⟨i + 1, i + fld t.word 73 13, fld t.word 57 16, []⟩ :: k.loops.map (LoopFrame.record t i), index := i + 1 }
  else k.step t

/-! ### Issue (R218, R221, R223, R226) -/

/-- The instruction as the core issues it. -/
def State.issueOf (s : State) (c : Nat) (t : Waiting) : Issue :=
  let b := s.blockStep
  { core := c, word := t.word, step := if Word.stepBefore t.word then stepBefore b else b, crest := s.planCrest, index := (s.core c).index }

/-- Whether an instruction retires without effect (R223, R626). In a crest that carries only the tail of the step before, so does
every instruction of the step itself. -/
def State.retires (s : State) (x : Issue) : Bool :=
  (if Word.stepBefore x.word then (s.step? x.step).isNone else s.tailOnly) ||
    (Word.variant x.word == 1 && !s.priming x.step) || (Word.variant x.word == 2 && s.priming x.step)

/-- Batched entries whose queue has been issued no longer wait in it. -/
def CoreState.unqueue (k : CoreState) : CoreState :=
  if k.batch.isEmpty then { k with ops := k.ops.map fun p => { p with queued := false } } else k

/-- The operation that a unit begins (R57). -/
def pendOf (o : CoreOp) (x : Issue) (s : State) : Pend :=
  { unit := o.unit, reads := unitReads o x s, writes := unitWrites o x s, chain := o.chain, queued := o == .enq, word := x.word,
    dies := ((unitRanges o x s).flatMap fun r => s.reachDies r.1 r.2).dedup }

/-- The state with the sequencer held on an instruction, which stays first. -/
def State.holdOn (s : State) (c : Nat) (t : Waiting) (h : Hold) : State :=
  s.onCore c fun k => { k with hold := some h, waiting := t :: k.waiting, fetched := true }

/-- Whether the increment of an instruction's sig has no path from its core to the other: it is held there (R38). -/
def State.sigHeld (s : State) (c w : Nat) : Bool := s.partitioned && Word.sig w && s.noPath (c / 32) (Word.sigCore w / 32)

/-- The state with an instruction retired at the sequencer: its sig applied, the position moved on. -/
def State.retire (s : State) (c : Nat) (t : Waiting) : State :=
  if s.sigHeld c t.word then s.holdOn c t .mesh else (s.signal t.word).onCore c fun k => k.advance t

/-- An instruction that retires without effect (R221, R223, R626): its sig is applied; a LOOP opens no loop, so the instructions after it are
those of no body. -/
def State.retireUnrun (s : State) (c : Nat) (t : Waiting) : State :=
  if s.sigHeld c t.word then s.holdOn c t .mesh else (s.signal t.word).onCore c fun k => k.step t

/-- The CEND of a block waits until the block has finished (R57); the batching queue issues (R148). -/
def State.endBlock (s : State) (c : Nat) (t : Waiting) : State := ((s.issueBatch c).onCore c CoreState.unqueue).holdOn c t .block

/-- An instruction refused at issue (R221): it is not performed, so that a LOOP opens no loop; its sig increment is still applied, and the block
still finishes with its CEND. A KVREAD's open choices are used up. -/
def State.refused (s : State) (c : Nat) (t : Waiting) (x : Issue) (r : IssueRefusal) : State :=
  let s := s.refuseIssue x r
  if t.op == .cend then s.endBlock c t
  else State.retireUnrun { s with free := s.free + (if t.op == .kvread then 3 else 0) } c t

/-- An instruction performed: the sequencer's own retire at once, a unit's are outstanding until they complete. One whose mesh transfer has
no path begins and is held, without effect (R38); one that uses an uncorrectable table word has no effect (R500). -/
def State.perform (s : State) (c : Nat) (t : Waiting) (x : Issue) : State :=
  if t.op.unit == 0 then (applyIssue t.op x s).retire c t
  else if s.heldUp t.op x then
    s.onCore c fun k => ({ k with ops := k.ops ++ [{ pendOf t.op x s with queued := false, stuck := true }] } : CoreState).advance t
  else
    let s' := s.useTables (tableReads t.op x s) (applyIssue t.op x)
    let p := { pendOf t.op x s with sends := (s.fabric.nextTransfer, s'.fabric.nextTransfer), key := s.writerKey (c + 1) }
    ({ s' with serial := s.serial + 1 } : State).onCore c fun k => ({ k with ops := k.ops ++ [p] } : CoreState).unqueue.advance t

/-- The instructions that frame a block. They run whatever the step select and the variant say (R223, R626): what they bound stands for the whole
block, which could not end without its CEND (DESIGN CHOICE, log 87). -/
def CoreOp.frame : CoreOp → Bool
  | .cbegin | .cend => true
  | _ => false

/-- Whether the word that a core fetches reads stained (R489). -/
def State.fetchStained (s : State) (c : Nat) : Bool := (s.core c).imem.stained 8 ((s.core c).fetchAt (s.core c).index) 16

/-- Whether a wait reads a token that has lost its parity (R492). -/
def CoreState.waitParity (k : CoreState) (t : Waiting) : Bool :=
  (t.op == .twait || t.op == .frecv) && k.parity.contains (.token (waitToken t.word))

/-- One fetched instruction at the sequencer. Work of a step that an ABORT stopped ends without effect (R396). -/
def State.issueFetched (s : State) (c : Nat) (t : Waiting) : State :=
  let x := s.issueOf c t
  let k := s.core c
  if s.stopped x.step && !t.op.frame then s.onCore c fun k => k.step t
  else if s.retires x && !t.op.frame then s.retireUnrun c t
  else if t.op == .tsig && s.partitioned && s.noPath (c / 32) (fld t.word 63 8 / 32) then s.holdOn c t .mesh
  else if k.waitParity t then s.refused c t x byStain
  else if (t.op == .twait || t.op == .frecv) && decide (k.token (waitToken t.word) < waitCount t.word) then
    s.holdOn c t (.token (waitToken t.word) (waitCount t.word))
  else if s.interlocked t.op x then s.holdOn c t .interlock
  else if t.op == .sflag && !k.ops.isEmpty then s.holdOn c t .flags
  else if t.op == .cend then s.endBlock c t
  else match checkIssue t.op x s with
    | some r => (s.noteReads (issueReads t.op x s)).refused c t x r
    | none => s.perform c t x

/-- One instruction at the sequencer: it is fetched, once, and a word that its instruction memory delivers stained is refused (R489). -/
def State.issue (s : State) (c : Nat) (t : Waiting) : State :=
  let k := s.core c
  if k.fetched then (s.setCore c { k with fetched := false }).issueFetched c t
  else if s.fetchStained c then (s.noteFetch c k.index).refused c t (s.issueOf c t) byStain
  else (s.noteFetch c k.index).issueFetched c t

/-- The instructions that wait at a core issue in order until one holds (R178). The count bounds the executed instructions of one
block: 8,190 of a body, 65,535 times in each of 4 loops (R233). -/
def State.drain : Nat → Nat → State → State
  | 0, _, s => s
  | n + 1, c, s =>
    match (s.core c).hold, (s.core c).waiting with
    | none, t :: rest => State.drain n c ((s.onCore c fun k => { k with waiting := rest }).issue c t)
    | _, _ => s

def drainFuel : Nat := 2 ^ 80

/-- Whether the running crest gives a core no block, or none that has not finished: such a core issues no instruction (R59). -/
def State.blockless (s : State) (c : Nat) : Bool := !s.crest.units.contains ⟨0, c⟩

/-- An instruction reaches the sequencer: it issues at once, or waits behind the held one (R178). A core without clock, or without a block
in the crest (R59), takes none. -/
def State.submit (s : State) (c : Nat) (t : Waiting) : State :=
  if !s.clocked || s.blockless c then s
  else if (s.core c).hold.isSome then s.onCore c fun k => { k with waiting := k.waiting ++ [t] }
  else State.drain drainFuel c (s.issue c t)

/-- The sequencer goes on with its held instruction and those behind it. -/
def State.resume (s : State) (c : Nat) : State := State.drain drainFuel c (s.onCore c fun k => { k with hold := none })

/-- The meaning of an instruction's row: a word that the plan load refuses never reaches a core (R220). -/
def issueWord (o : CoreOp) (c : BitVec 8) (w : IWord) (s : State) : Host.Outcome State Fault Refusal :=
  match wordStatus o w.toNat with
  | some st => .refused (.refusedAtLoad st)
  | none => .next (s.submit c.toNat ⟨o, w.toNat⟩)

end Sys2Proof.Machine
end

