-- ==== Sys2Proof/Machine/CoreRows.lean ====
section
/-! DEFINITION. The core rows of the table: every core instruction, and the events at a core. -/

namespace Sys2Proof.Machine

/-- NOP (R231). -/
def execNop (c : BitVec 8) (w : IWord) (s : State) : Host.Outcome State Fault Refusal := issueWord .nop c w s

/-- CBEGIN (R56, R231). -/
def execCbegin (c : BitVec 8) (w : IWord) (s : State) : Host.Outcome State Fault Refusal := issueWord .cbegin c w s

/-- CEND (R57, R148, R231: the batching queue issues, and CEND retires when the block has finished). -/
def execCend (c : BitVec 8) (w : IWord) (s : State) : Host.Outcome State Fault Refusal := issueWord .cend c w s

/-- LOOP (R233: the body that follows runs count times). -/
def execLoop (c : BitVec 8) (w : IWord) (s : State) : Host.Outcome State Fault Refusal := issueWord .loop c w s

/-- TWAIT (R226: holds until the token reaches n, and subtracts n). -/
def execTwait (c : BitVec 8) (w : IWord) (s : State) : Host.Outcome State Fault Refusal := issueWord .twait c w s

/-- TSIG (R226, R231). -/
def execTsig (c : BitVec 8) (w : IWord) (s : State) : Host.Outcome State Fault Refusal := issueWord .tsig c w s

/-- SLI (R228). -/
def execSli (c : BitVec 8) (w : IWord) (s : State) : Host.Outcome State Fault Refusal := issueWord .sli c w s

/-- SALU (R228, R232). -/
def execSalu (c : BitVec 8) (w : IWord) (s : State) : Host.Outcome State Fault Refusal := issueWord .salu c w s

/-- SLD (R228, R231, R232). -/
def execSld (c : BitVec 8) (w : IWord) (s : State) : Host.Outcome State Fault Refusal := issueWord .sld c w s

/-- SST (R231, R232). -/
def execSst (c : BitVec 8) (w : IWord) (s : State) : Host.Outcome State Fault Refusal := issueWord .sst c w s

/-- SID (R232). -/
def execSid (c : BitVec 8) (w : IWord) (s : State) : Host.Outcome State Fault Refusal := issueWord .sid c w s

/-- SFLAG (R231: waits for every earlier operation of the core). -/
def execSflag (c : BitVec 8) (w : IWord) (s : State) : Host.Outcome State Fault Refusal := issueWord .sflag c w s

/-- LOADSET (R130, R234–R236). -/
def execLoadset (c : BitVec 8) (w : IWord) (s : State) : Host.Outcome State Fault Refusal := issueWord .loadset c w s

/-- PASS (R120, R234–R238). -/
def execPass (c : BitVec 8) (w : IWord) (s : State) : Host.Outcome State Fault Refusal := issueWord .pass c w s

/-- ENQ (R147, R148). -/
def execEnq (c : BitVec 8) (w : IWord) (s : State) : Host.Outcome State Fault Refusal := issueWord .enq c w s

/-- FLUSH (R148). -/
def execFlush (c : BitVec 8) (w : IWord) (s : State) : Host.Outcome State Fault Refusal := issueWord .flush c w s

/-- MATVEC (R150, R151, R234, R239); the plan load refuses it in the block of a general core (R23). -/
def execMatvec (c : BitVec 8) (w : IWord) (s : State) : Host.Outcome State Fault Refusal :=
  if c.toNat % 32 < 30 then .refused (.refusedAtLoad stBadField) else issueWord .matvec c w s

/-- TCLR (R156). -/
def execTclr (c : BitVec 8) (w : IWord) (s : State) : Host.Outcome State Fault Refusal := issueWord .tclr c w s

/-- COMBINE (R173–R175, R241). -/
def execCombine (c : BitVec 8) (w : IWord) (s : State) : Host.Outcome State Fault Refusal := issueWord .combine c w s

/-- VOP (R185, R188–R193). -/
def execVop (c : BitVec 8) (w : IWord) (s : State) : Host.Outcome State Fault Refusal := issueWord .vop c w s

/-- VCVT (R194, R626). -/
def execVcvt (c : BitVec 8) (w : IWord) (s : State) : Host.Outcome State Fault Refusal := issueWord .vcvt c w s

/-- VSPLIT (R194). -/
def execVsplit (c : BitVec 8) (w : IWord) (s : State) : Host.Outcome State Fault Refusal := issueWord .vsplit c w s

/-- VPERM (R186, R187). -/
def execVperm (c : BitVec 8) (w : IWord) (s : State) : Host.Outcome State Fault Refusal := issueWord .vperm c w s

/-- VSETVL (R184). -/
def execVsetvl (c : BitVec 8) (w : IWord) (s : State) : Host.Outcome State Fault Refusal := issueWord .vsetvl c w s

/-- VMOVS (R242). -/
def execVmovs (c : BitVec 8) (w : IWord) (s : State) : Host.Outcome State Fault Refusal := issueWord .vmovs c w s

/-- VLD (R185, R242, R244). -/
def execVld (c : BitVec 8) (w : IWord) (s : State) : Host.Outcome State Fault Refusal := issueWord .vld c w s

/-- VST (R154, R185, R242, R244). -/
def execVst (c : BitVec 8) (w : IWord) (s : State) : Host.Outcome State Fault Refusal := issueWord .vst c w s

/-- KLOAD (R197). -/
def execKload (c : BitVec 8) (w : IWord) (s : State) : Host.Outcome State Fault Refusal := issueWord .kload c w s

/-- KAPPLY (R202–R208). -/
def execKapply (c : BitVec 8) (w : IWord) (s : State) : Host.Outcome State Fault Refusal := issueWord .kapply c w s

/-- RREG (R209–R212). -/
def execRreg (c : BitVec 8) (w : IWord) (s : State) : Host.Outcome State Fault Refusal := issueWord .rreg c w s

/-- RTROW (R209–R213). -/
def execRtrow (c : BitVec 8) (w : IWord) (s : State) : Host.Outcome State Fault Refusal := issueWord .rtrow c w s

/-- WRUN (R260–R268). -/
def execWrun (c : BitVec 8) (w : IWord) (s : State) : Host.Outcome State Fault Refusal := issueWord .wrun c w s

/-- WPOOL (R269–R273). -/
def execWpool (c : BitVec 8) (w : IWord) (s : State) : Host.Outcome State Fault Refusal := issueWord .wpool c w s

/-- COPY (R246, R461). -/
def execCopy (c : BitVec 8) (w : IWord) (s : State) : Host.Outcome State Fault Refusal := issueWord .copy c w s

/-- FILL (R246, R494). -/
def execFill (c : BitVec 8) (w : IWord) (s : State) : Host.Outcome State Fault Refusal := issueWord .fill c w s

/-- DSPLIT (R125, R246). -/
def execDsplit (c : BitVec 8) (w : IWord) (s : State) : Host.Outcome State Fault Refusal := issueWord .dsplit c w s

/-- FSEND (R247). -/
def execFsend (c : BitVec 8) (w : IWord) (s : State) : Host.Outcome State Fault Refusal := issueWord .fsend c w s

/-- FRECV (R226, R247: executes in the sequencer). -/
def execFrecv (c : BitVec 8) (w : IWord) (s : State) : Host.Outcome State Fault Refusal := issueWord .frecv c w s

/-- BSEND (R248, R362). -/
def execBsend (c : BitVec 8) (w : IWord) (s : State) : Host.Outcome State Fault Refusal := issueWord .bsend c w s

/-- KVREAD (R285–R289, R300–R304). -/
def execKvread (c : BitVec 8) (w : IWord) (s : State) : Host.Outcome State Fault Refusal := issueWord .kvread c w s

/-- KVAPPEND (R306–R312). -/
def execKvappend (c : BitVec 8) (w : IWord) (s : State) : Host.Outcome State Fault Refusal := issueWord .kvappend c w s

/-- KVFLUSH (R303). -/
def execKvflush (c : BitVec 8) (w : IWord) (s : State) : Host.Outcome State Fault Refusal := issueWord .kvflush c w s

/-! ### Events at a core -/

/-- The first operation of a unit that no longer waits in the batching queue, and the others; none where the mesh holds it (R38). -/
def takeOp (u : Nat) : List Pend → Option (Pend × List Pend)
  | [] => none
  | p :: rest =>
    if p.unit == u && !p.queued then (if p.stuck then none else some (p, rest))
    else (takeOp u rest).map fun (q, l) => (q, p :: l)

/-- The core after the completion of its operations so far: a held SFLAG goes on once none is outstanding (R231). -/
def State.afterComplete (s : State) (c : Nat) : State :=
  if (s.core c).ops.isEmpty && decide ((s.core c).hold = some .flags) then s.resume c else s

/-- INSTRUCTION_COMPLETE (R57, R229): the oldest operation that the unit has begun completes, and its sig is applied; the merge entries
that hold a write of it retire (R496). A send completes once its last packet is in a port buffer, and nothing whose sig has no path (R38). -/
def execInstructionComplete (c : BitVec 8) (unit : BitVec 4) (s : State) : Host.Outcome State Fault Refusal :=
  match takeOp unit.toNat (s.core c.toNat).ops with
  | none => .next s
  | some (p, rest) => if s.unsent p.sends || s.sigHeld c.toNat p.word then .next s else .next ((((s.retireOwned p.key).onCore c.toNat fun k => { k with ops := rest }).signal p.word).afterComplete c.toNat)

/-- TOKEN_WAIT_MET (R226): a held TWAIT or FRECV whose token has reached n subtracts n, and issue resumes. -/
def execTokenWaitMet (c : BitVec 8) (s : State) : Host.Outcome State Fault Refusal :=
  match (s.core c.toNat).hold with
  | some (.token k n) => if s.clocked && decide (n ≤ (s.core c.toNat).token k) then .next (s.resume c.toNat) else .next s
  | _ => .next s

/-- Whether the instruction on which an interlock holds a core may now begin. -/
def State.interlockFree (s : State) (c : Nat) : Bool :=
  match (s.core c).hold, (s.core c).waiting with
  | some .interlock, t :: _ => !s.interlocked t.op (s.issueOf c t)
  | _, _ => false

/-- INTERLOCK_RELEASE (R177, R178, R214, R228). -/
def execInterlockRelease (c : BitVec 8) (s : State) : Host.Outcome State Fault Refusal :=
  if s.clocked && s.interlockFree c.toNat then .next (s.resume c.toNat) else .next s

/-- BATCH_WAIT_EXPIRY (R148): the batching queue issues as one pass. -/
def execBatchWaitExpiry (c : BitVec 8) (s : State) : Host.Outcome State Fault Refusal :=
  if s.clocked then .next ((s.issueBatch c.toNat).onCore c.toNat CoreState.unqueue) else .next s

/-- BLOCK_FINISH (R57): CEND retires once no operation of the block is outstanding; the core has finished its block, behind
whose CEND no instruction stands. -/
def execBlockFinish (c : BitVec 8) (s : State) : Host.Outcome State Fault Refusal :=
  let k := s.core c.toNat
  match k.hold, k.waiting with
  | some .block, t :: _ =>
    if k.ops.isEmpty && !s.sigHeld c.toNat t.word then
      let s := (s.signal t.word).onCore c.toNat fun k => { k with index := 0, loops := [], hold := none, waiting := [], fetched := false }
      .next { s with crest := { s.crest with units := s.crest.units.erase ⟨0, c.toNat⟩ } }
    else .next s
  | _, _ => .next s

end Sys2Proof.Machine
end

