-- ==== Sys2Proof/Machine/MdieProgram.lean ====
section
/-! DEFINITION. M-die programs (R324, R325, R381–R385): the eleven words, in program order, with their waits; and their rows. -/

namespace Sys2Proof.Machine

/-! ### Words (R324, R381) -/

def MOp.code : MOp → Nat
  | .pack => 1 | .unpack => 2 | .ship => 3 | .fetch => 4 | .fwait => 5 | .update => 6 | .vcontrib => 7 | .rerun => 8 | .ostage => 9
  | .gather => 10 | .cwait => 11

/-- Whether a word is a codec operation. -/
def MOp.codec (o : MOp) : Bool := decide (o.code < 5)

/-- The status with which a plan load refuses a word by itself (R324, R381); none for a legal word of this name. -/
def mwordStatus (o : MOp) (w : Nat) : Option Nat :=
  firstOf [
    (o.code != fld w 0 4, stBadKind),
    (if o.codec then fld w 82 46 != 0 else fld w 21 107 != 0, stBadField),
    ((o == .cwait && fld w 10 10 != 0) || (o == .vcontrib && fld w 4 16 != 0), stBadField)]

/-- Fields of a codec word. -/
def mEntry (w : Nat) : Nat := fld w 4 14
def mFirst (w : Nat) : Nat := fld w 18 32
def mCount (w : Nat) : Nat := fld w 50 32 + 1

/-- Fields of the other words. -/
def mTag (w : Nat) : Nat := fld w 4 16
def mGroup (w : Nat) : Nat := fld w 4 6
def mBefore (o : MOp) (w : Nat) : Bool := !o.codec && bit w 20

/-- The step of a word (R381); one that an ABORT's crest left unfinished keeps its own (R396). -/
def State.mStep (s : State) (t : MWord) : Nat := t.carried.getD (if mBefore t.op t.word then stepBefore s.blockStep else s.blockStep)

/-- The entry that a codec word serves: declared, on this M-die, of the word's policy, its range within the tensor (R324). -/
def State.codecEntry (s : State) (m : Nat) (t : MWord) : Option ActEntry :=
  match s.plan.bind fun p => p.acts[mEntry t.word]? with
  | none => none
  | some e =>
    let policy := if t.op == .pack || t.op == .unpack then 1 else 2
    let whole := e.codec != 2 || (mFirst t.word % e.frameBlocks == 0 && mCount t.word % e.frameBlocks == 0)
    if e.mdie == m && e.policy == policy && decide (mFirst t.word + mCount t.word ≤ e.blocks) && whole then some e else none

/-- The bucket and group of a word on its own M-die. -/
def State.wordBucket (s : State) (m : Nat) (t : MWord) : Option (Plan × Bucket × Group) :=
  match s.plan with
  | none => none
  | some p => match p.bucket? (mTag t.word) with
    | none => none
    | some b => match p.groups[b.group]? with
      | some g => if b.mdie == m then some (p, b, g) else none
      | none => none

/-- The host's factor for a group in a step (R391). -/
def State.hostFactor (s : State) (step g : Nat) : Option Nat :=
  (s.step? step).bind fun r => (r.clips.find? fun c => c.group == g).map ClipFactor.factor

/-! ### Waits (R381, R383, R391) -/

/-- Whether a word reads or writes its M-die's stack. -/
def MOp.onStack : MOp → Bool
  | .fwait | .cwait | .vcontrib => false
  | _ => true

/-- The ranges of the interleaved view that a codec word reads or writes: its blocks of the home region, and of the scale array (R317, R340). -/
def State.wordRanges (s : State) (m : Nat) (t : MWord) : List (Nat × Nat) :=
  if !t.op.codec then []
  else match s.codecEntry m t with
    | some e => (e.home + 4096 * mFirst t.word, 4096 * mCount t.word) ::
        (if e.scaled then [(scaleAt e (mFirst t.word) 0, 128 * mCount t.word)] else [])
    | none => []

/-- Whether a word must wait: for its own condition, or for a stack that it reaches while that is being poisoned (R493). The waits of a step
that is no longer in flight have ended (R396). -/
def State.mWaits (s : State) (m : Nat) (t : MWord) : Bool :=
  let n := s.mStep t
  (t.op.onStack && s.power.poisoning.contains m) ||
    (!s.power.poisoning.isEmpty && (s.wordRanges m t).any fun r => s.poisonHeld r.1 r.2) || match t.op with
  | .fwait => (match s.wordBucket m t with
    | some (_, b, _) => s.inFlight n && (s.folded b.tag n).isNone
    | none => false)
  | .update => (match s.wordBucket m t with
    | some (_, b, g) => s.inFlight n && ((s.folded b.tag n).isNone || (g.software && (s.hostFactor n b.group).isNone))
    | none => false)
  | .cwait => s.inFlight n && (s.group? (mGroup t.word)).isSome && (s.hostFactor n (mGroup t.word)).isNone
  | .rerun => s.inFlight n && (match s.step? n with
    | some r => r.verdict.isNone
    | none => false)
  | .ostage => (match s.wordBucket m t, s.step? (stepBefore n) with
    | some (_, b, _), some r => r.flying && !r.updated.contains b.tag
    | _, _ => false)
  | _ => false

/-- Whether a word retires without effect: its step has completed or was never submitted (R381), its step was aborted (R396), or it is not
work of the step before in a crest that runs only that step's tail. -/
def State.mRetires (s : State) (t : MWord) : Bool :=
  s.stopped (s.mStep t) || if mBefore t.op t.word || t.carried.isSome then (s.step? (s.mStep t)).isNone else s.tailOnly

/-! ### OSTAGE and GATHER (R383, R433) -/

/-- Whether a GATHER's copies for the destinations given go out as one multicast (R433): several modules, no KN8120, the same address and
signal for each. -/
def multicasts (ds : List (Dest × Nat)) : Bool :=
  match ds with
  | x :: y :: rest => (x :: y :: rest).all fun d =>
      !rankOld d.2 && d.1.addr == x.1.addr && d.1.signal == x.1.signal && d.1.token == x.1.token && d.1.core == x.1.core
  | _ => false

/-- A bucket's bfloat16 parameters in a bank, sent to its distribution list in list order; copies for lost ranks are discarded. A GATHER
whose every copy for another module has the same address sends those as one multicast, at the place of the first (R433, log 30). -/
def State.distribute (s : State) (p : Plan) (b : Bucket) (bank type step : Nat) (ochre : Bool) : State :=
  let bs := s.load (p.itemAddr b bank 0) (2 * b.len)
  let s := s.noteRead (p.itemAddr b bank 0) (2 * b.len)
  let live := (b.dist.map fun d => (d, s.rankEntry 0 d.rank)).filter fun d => !rankLost d.2 && rankValid d.2
  let others := live.filter fun d => rankAddress d.2 != s.address
  let o : Outgoing := { type := type, address := s.address, step := step, ochre := ochre }
  let signal (d : Dest) : Option (Nat × Nat) := if d.signal then some (d.core, d.token) else none
  let send (s : State) (d : Dest × Nat) : State :=
    s.sendTransfer (b.mdie / 3) { o with address := rankAddress d.2, old := rankOld d.2, target := d.1.addr, signal := signal d.1 } bs
  let multi (s : State) (d : Dest) : State :=
    s.sendTransfer (b.mdie / 3) { o with span := s.spanOf (others.map fun x => x.1.rank), list := b.tag, signal := signal d } bs
  if type == 0x02 && multicasts others then
    live.foldl (fun s d =>
      if rankAddress d.2 == s.address then send s d else if others.head? == some d then multi s d.1 else s) s
  else live.foldl send s

/-- OSTAGE (R383): the parameters of the step before, from its ochre bank while it is in flight, else from the committed bank. -/
def State.ostageBucket (s : State) (p : Plan) (b : Bucket) (step : Nat) : State :=
  let open' := s.predecessorOpen step
  s.distribute p b (if open' then s.ochreBank (stepBefore step) else s.store.bank) 0x11 step open'

/-! ### Effects -/

/-- The table words that a program word uses (R500): its program, its entry, its bucket with the group, the kernels and the list. -/
def State.wordTables (s : State) (m : Nat) (t : MWord) : List TableWord :=
  TableWord.program m :: if t.op.codec then [.act (mEntry t.word)]
  else match t.op with
    | .vcontrib => []
    | .cwait => [.group (mGroup t.word)]
    | .fwait => [.bucket (mTag t.word)]
    | o => match s.wordBucket m t with
      | none => [.bucket (mTag t.word)]
      | some (_, b, g) => [.bucket b.tag, .group b.group] ++
          (if o == .ostage || o == .gather then .dist b.tag :: b.dist.map (fun d => .rank (m / 3) d.rank)
           else if g.optimizer == 4 then .kernel m g.kernelA :: (if g.kernelBOn then [.kernel m g.kernelB] else []) else [])

/-- The effect of a word whose tables are good. -/
def State.mEffect (s : State) (m : Nat) (t : MWord) : State :=
  let n := s.mStep t
  match t.op with
  | .pack => (match s.codecEntry m t with
    | some e => s.packRange e m (mEntry t.word) n (mFirst t.word) (mCount t.word)
    | none => s)
  | .ship => (match s.codecEntry m t with
    | some e => s.packRange e m (mEntry t.word) n (mFirst t.word) (mCount t.word)
    | none => s)
  | .unpack => (match s.codecEntry m t with
    | some e => s.unpackRange e m (mEntry t.word) n (mFirst t.word) (mCount t.word)
    | none => s)
  | .fetch => (match s.codecEntry m t with
    | some e => s.fetchRange e m (mEntry t.word) n (mFirst t.word) (mCount t.word)
    | none => s)
  | .fwait => s
  | .cwait => s
  | .vcontrib => s
  | .update => (match s.wordBucket m t with
    | some (p, b, g) =>
      if s.inFlight n then
        (s.updateBucket p b g n (if g.software then (s.hostFactor n b.group).getD one32 else one32) 0).updStep n fun r =>
          { r with updated := r.updated ++ [b.tag] }
      else s
    | none => s)
  | .rerun => (match s.wordBucket m t, (s.step? n).bind StepRec.verdict with
    | some (p, b, g), some v =>
      let f := v.factors.getD b.group one32
      if s.inFlight n && v.code == 1 && belowOne f then s.updateBucket p b g n f 1 else s
    | _, _ => s)
  | .ostage => (match s.wordBucket m t with
    | some (p, b, _) => s.ostageBucket p b n
    | none => s)
  | .gather => (match s.wordBucket m t with
    | some (p, b, _) => s.distribute p b s.store.bank 0x02 n (s.predecessorOpen n)
    | none => s)

/-- What a word does when it runs: nothing where a table word that it uses is uncorrectable (R500). A VCONTRIB hands over when it
finishes. -/
def State.mApply (s : State) (m : Nat) (t : MWord) : State :=
  if t.op == .vcontrib then s else s.useTables (s.wordTables m t) fun s => s.mEffect m t

/-- The dies, beside its own, with which a word transfers: the M-dies of its home region's stacks, the H-die for a host copy, the M-die's L-die
for what goes on the fabric, for a talus copy L-die 0 (log 77). -/
def State.mReach (s : State) (m : Nat) (t : MWord) : List Nat :=
  (s.wordRanges m t).flatMap (fun r => s.rangeDies r.1 r.2) ++ match t.op with
  | .ship | .fetch => (s.codecEntry m t).toList.map fun e => if e.talus then 20 else 24
  | .ostage | .gather | .vcontrib => [20 + m / 3]
  | _ => []

/-- Whether the mesh transfer of a word has no path (R38). -/
def State.mHeldUp (s : State) (m : Nat) (t : MWord) : Bool := s.partitioned && (s.mReach m t).any fun d => s.noPath (8 + m) d

/-- A word runs: its effect, or none where the mesh holds it (R38). -/
def State.mRun (s : State) (m : Nat) (t : MWord) : State :=
  if s.mHeldUp m t then s.setMdie m { s.mdie m with busy := some t, held := false, stuck := true, sends := (0, 0) }
  else
    let s' := (s.setMdie m { s.mdie m with busy := some t, held := false, stuck := false }).mApply m t
    s'.setMdie m { s'.mdie m with sends := (s.fabric.nextTransfer, s'.fabric.nextTransfer) }

/-! ### Program order (R325, R381) -/

/-- The words of an M-die's program in the crest that runs. -/
def State.programWords (s : State) (m : Nat) : Nat :=
  match s.crest.running, s.plan with
  | some r, some p =>
    let ws : List Work := match r.inserted with
      | some (n, i) => (((p.work.segments.find? fun g => g.number == n).map Segment.programs).getD []).filter fun w => w.crest == i
      | none => p.work.programs.filter fun w => w.crest == r.crest
    ((ws.find? fun w => w.unit == m).map Work.words).getD 0
  | _, _ => 0

/-- One more word of the program has finished; the last one of the crest finishes the program (R57). A word of an earlier crest is none
of its words (R396). -/
def State.countWord (s : State) (m : Nat) (t : MWord) : State :=
  let d := s.mdie m
  if t.carried.isSome then s else
  let s := s.setMdie m { d with finished := d.finished + 1 }
  if s.programWords m ≤ d.finished + 1 then { s with crest := { s.crest with units := s.crest.units.erase ⟨2, m⟩ } } else s

/-- A word begins: it retires, waits, or runs and is busy until its last write is complete. -/
def State.mBegin (s : State) (m : Nat) (t : MWord) : State :=
  let d := s.mdie m
  if s.mRetires t then s.countWord m t
  else if s.mWaits m t then s.setMdie m { d with busy := some t, held := true }
  else s.mRun m t

/-- Words that wait behind begin in order until one is busy. -/
def State.mDrain : Nat → Nat → State → State
  | 0, _, s => s
  | n + 1, m, s =>
    match (s.mdie m).busy, (s.mdie m).queue with
    | none, t :: rest => State.mDrain n m ((s.setMdie m { s.mdie m with queue := rest }).mBegin m t)
    | _, _ => s

/-- The next words of an M-die begin. -/
def State.mNext (s : State) (m : Nat) : State := State.mDrain ((s.mdie m).queue.length + 1) m s

/-- A word reaches its M-die's program. An M-die that is not active takes none (R517). -/
def State.mSubmit (s : State) (m : Nat) (t : MWord) : State :=
  if !s.diesActive then s
  else if (s.mdie m).busy.isSome then s.setMdie m { s.mdie m with queue := (s.mdie m).queue ++ [t] } else s.mBegin m t

/-- The flag banks of the cores for a step, captured into its completion and cleared (R225); a bank whose parity fails marks the step's
contribution (R492). -/
def State.captureFlags (s : State) (n : Nat) : State :=
  let f := s.cores.foldl (fun f c => f ||| c.2.bank n) 0
  let s := if s.cores.any fun c => c.2.bankParity n then s.markStain n else s
  let s := s.raiseStep n f
  { s with cores := SMap.mapVals CoreState.init (fun k => k.clearBank n) s.cores }

/-- The last work of a committed step on the module has ended: its flags are captured, and its completion is due (R73, R225). -/
def State.closeStep (s : State) (n : Nat) : State := (s.captureFlags n).updStep n fun x => { x with gathered := true }

/-- Whether a word that an ABORT's crest left unfinished still runs or waits for a step (R396). -/
def State.gathering (s : State) (n : Nat) : Bool :=
  s.mdies.any fun d => (d.2.busy.toList ++ d.2.queue).any fun t => t.carried == some n

/-- A committed step whose last such word has finished, with no crest of its tail to come, has finished its GATHER. -/
def State.closeCarried (s : State) (t : MWord) : State :=
  match t.carried with
  | none => s
  | some n =>
    let tail := s.crest.running.any fun r => stepBefore r.step == n && s.plan.any fun p => decide (r.crest < p.tail)
    if tail || s.gathering n || !((s.step? n).any fun r => decide (r.phase = .committed) && !r.gathered) then s else s.closeStep n

/-- A word that has finished: VCONTRIB hands over (R385), and the next words begin. -/
def State.mFinish (s : State) (m : Nat) (t : MWord) : State :=
  let s := (s.setMdie m { s.mdie m with busy := none, held := false }).retireOwned (mdieWriter m)
  let s := if t.op == .vcontrib then s.useTables (s.wordTables m t) (fun s => s.vcontrib m (s.mStep t))
    else if t.op == .fetch then s.countFetch (mEntry t.word) (s.mStep t) else s
  ((s.countWord m t).closeCarried t).mNext m

/-- The meaning of a program word's row: a word that the plan load refuses never reaches an M-die (R381). -/
def runMword (o : MOp) (m : BitVec 4) (w : IWord) (s : State) : Host.Outcome State Fault Refusal :=
  if 11 < m.toNat then .refused .illFormed
  else match mwordStatus o w.toNat with
    | some st => .refused (.refusedAtLoad st)
    | none => .next (s.mSubmit m.toNat { op := o, word := w.toNat })

/-! ### Rows -/

/-- PACK (R324, R331, R332). -/
def execPack (m : BitVec 4) (w : IWord) (s : State) : Host.Outcome State Fault Refusal := runMword .pack m w s

/-- UNPACK (R324, R327, R339, R343). -/
def execUnpack (m : BitVec 4) (w : IWord) (s : State) : Host.Outcome State Fault Refusal := runMword .unpack m w s

/-- SHIP (R324, R344, R345, R348). -/
def execShip (m : BitVec 4) (w : IWord) (s : State) : Host.Outcome State Fault Refusal := runMword .ship m w s

/-- FETCH (R324, R327, R344, R346, R348). -/
def execFetch (m : BitVec 4) (w : IWord) (s : State) : Host.Outcome State Fault Refusal := runMword .fetch m w s

/-- FWAIT (R381). -/
def execFwait (m : BitVec 4) (w : IWord) (s : State) : Host.Outcome State Fault Refusal := runMword .fwait m w s

/-- UPDATE (R378, R380, R381). -/
def execUpdate (m : BitVec 4) (w : IWord) (s : State) : Host.Outcome State Fault Refusal := runMword .update m w s

/-- VCONTRIB (R381, R385). -/
def execVcontrib (m : BitVec 4) (w : IWord) (s : State) : Host.Outcome State Fault Refusal := runMword .vcontrib m w s

/-- RERUN (R381, R389). -/
def execRerun (m : BitVec 4) (w : IWord) (s : State) : Host.Outcome State Fault Refusal := runMword .rerun m w s

/-- OSTAGE (R381, R383, R628). -/
def execOstage (m : BitVec 4) (w : IWord) (s : State) : Host.Outcome State Fault Refusal := runMword .ostage m w s

/-- GATHER (R381, R383, R628). -/
def execGather (m : BitVec 4) (w : IWord) (s : State) : Host.Outcome State Fault Refusal := runMword .gather m w s

/-- CWAIT (R381, R391). -/
def execCwait (m : BitVec 4) (w : IWord) (s : State) : Host.Outcome State Fault Refusal := runMword .cwait m w s

/-- MDIE_WAIT_MET (R381): the word that waits runs once its condition holds. -/
def execMdieWaitMet (m : BitVec 4) (s : State) : Host.Outcome State Fault Refusal :=
  if 11 < m.toNat then .refused .illFormed
  else match (s.mdie m.toNat).busy with
    | some t =>
      if (s.mdie m.toNat).held && !s.mWaits m.toNat t then
        .next (s.mRun m.toNat t)
      else .next s
    | none => .next s

/-- Whether the word that an M-die runs cannot have finished (R57): it waits, a read of its talus has not been answered, or a packet that it
sends has not been accepted into a port buffer. -/
def State.mUnfinished (s : State) (m : Nat) : Bool :=
  (s.mdie m).held || (s.mdie m).stuck || s.talus.reads.any (fun r => r.mdie == m) || s.unsent (s.mdie m).sends

/-- MDIE_WORD_FINISH (R57, R325): the last write of the word that runs is complete, and what it sends is in the port buffers. -/
def execMdieWordFinish (m : BitVec 4) (s : State) : Host.Outcome State Fault Refusal :=
  if 11 < m.toNat then .refused .illFormed
  else match (s.mdie m.toNat).busy with
    | some t =>
      if s.mUnfinished m.toNat then .next s else .next (s.mFinish m.toNat t)
    | none => .next s

end Sys2Proof.Machine
end

