-- ==== Sys2Proof/Machine/SnapshotUnit.lean ====
section
/-! DEFINITION. Buddy snapshots (R509–R512, R627): the image of committed state, its capture and copy, its arrival, and RESTORE. -/

namespace Sys2Proof.Machine

/-! ### Scale-ledger entries as bits (R111) -/

/-- The 640 bits of an entry, the pending amax as 0 (R117). -/
def ScaleEntry.bits (e : ScaleEntry) : Nat :=
  leNat (e.history.flatMap (leBytes 4)) + unsigned 8 e.kEven <<< 544 + unsigned 8 e.kOdd <<< 552 + e.head <<< 560 + e.margin <<< 564 +
    b2n e.primed <<< 566 + b2n e.floor <<< 567 + e.backoffs <<< 568 + e.tensor <<< 584

/-- An entry from its bits; the pending amax stays as it is (R117). -/
def ScaleEntry.restored (old : ScaleEntry) (b : Nat) : ScaleEntry :=
  { history := (List.range 16).map fun i => fld b (32 * i) 32, pending := old.pending, pendStain := old.pendStain,
    kEven := signed 8 (fld b 544 8), kOdd := signed 8 (fld b 552 8), head := fld b 560 4, margin := fld b 564 2, primed := bit b 566,
    floor := bit b 567, backoffs := fld b 568 16, tensor := fld b 584 32 }

/-- Whether a restore may not carry these bits (R111). -/
def badScaleBits (b : Nat) : Bool :=
  (List.range 16).any (fun i => nonfiniteF32 (fld b (32 * i) 32) || bit b (32 * i + 31)) ||
    decide (120 < (signed 8 (fld b 544 8)).natAbs) || decide (120 < (signed 8 (fld b 552 8)).natAbs) || fld b 616 24 != 0

/-! ### The image (R509, R511, R627) -/

/-- Start of each data section in an area: the first at 4,096, each later one at the first multiple of 4,096 after the one before. -/
def sectionStarts : Nat → List Nat → List Nat
  | _, [] => []
  | a, n :: rest => a :: sectionStarts (roundUp (a + n) 4096) rest

/-- Bytes from offset 4,096 to the end of the last data section. -/
def snapDataSize (sizes : List Nat) : Nat :=
  ((sectionStarts 4096 sizes).zip sizes).foldl (fun m x => max m (x.1 + x.2)) 4096 - 4096

/-- Bytes without stain. -/
def clean (l : List Byte) : List (Byte × Bool) := l.map fun b => (b, false)

/-- The four data sections of committed state (R509, R627). A scale-ledger entry that reads as uncorrectable is stained in them (R500). -/
def State.snapSections (s : State) (p : Plan) : List (List (Byte × Bool)) :=
  let bank := s.store.bank
  [p.work.areas.flatMap fun a => s.load (a.storeBase + bank * a.bankSize) a.bankSize,
   clean ((List.range 64).flatMap fun g =>
     let (p1, p2) := if g < p.groups.length then s.powers bank g else (one32, one32)
     leBytes 4 p1 ++ leBytes 4 p2),
   s.scales.zipIdx.flatMap fun (e, i) => (leBytes 80 e.bits).map fun b => (b, s.tableBad [.scale i]),
   clean (leBytes 8 s.store.committed)]

/-- Sections laid out with their gaps as 0. -/
def layOut (secs : List (List (Byte × Bool))) : List (Byte × Bool) :=
  secs.zipIdx.flatMap fun (x, i) => x ++ List.replicate (if i + 1 < secs.length then roundUp x.length 4096 - x.length else 0) (0, false)

/-- The header of a snapshot (R511). -/
def State.snapHeader (s : State) (p : Plan) (step : Nat) (complete : Bool) : List Byte :=
  leBytes 4096 (1 + b2n complete <<< 32 + (step % 2 ^ 64) <<< 64 + (s.ownRank.getD (2 ^ 17 - 1)) <<< 128 + (s.cairn.runTag % 65536) <<< 160 +
    (p.digest % 2 ^ 64) <<< 192 + snapDataSize p.work.snapSizes <<< 256)

/-! ### Capture and copy (R510, R511) -/

/-- The snapshot area of this module that holds a range: its base. -/
def State.snapArea (s : State) (a n : Nat) : Option Nat :=
  match s.plan with
  | none => none
  | some p =>
    let size := 4096 + snapDataSize p.work.snapSizes
    p.work.snapAreas.find? fun h => h != 0 && decide (h ≤ a) && decide (a + n ≤ h + size)

/-- The captured copy goes to its area: the complete bit cleared, the data, then the header. A local copy into a region that the plan has
not reserved as a snapshot area is refused as one from the fabric is (R423, R511). -/
def State.copySnapshot (s : State) (p : Plan) (r : SnapRun) (data : List (Byte × Bool)) : State :=
  let e := s.rankEntry 0 r.rank
  let clear := clean ((s.snapHeader p r.step false).take 8)
  let header := clean (s.snapHeader p r.step true)
  if rankOwn e then
    if s.snapArea r.area (4096 + data.length) = some r.area then ((s.put 0 r.area clear).put 0 (r.area + 4096) data).put 0 r.area header
    else ((s.lEvent 0x12 0 r.step s.address).markStain r.step)
  else if rankLost e then s
  else
    let o : Outgoing := { type := 0x03, address := rankAddress e, old := rankOld e, step := r.step }
    s.useTables [.rank 0 r.rank] fun s =>
      ((s.sendTransfer 0 { o with target := r.area } clear).sendTransfer 0 { o with target := r.area + 4096 } data).sendTransfer 0
        { o with target := r.area } header

/-- Whether a snapshot of a step still waits for the barrier by which the members agree on its boundary (R436, R510). -/
def State.snapshotOpen (s : State) (step : Nat) : Bool := s.snaps.runs.any fun r => r.step == step && r.image.isNone && !r.agreed

/-- Whether the copy of a snapshot waits, for a parameter store or its own area that cannot be reached (R38, R493). -/
def State.snapHeld (s : State) (p : Plan) (r : SnapRun) : Bool :=
  p.work.areas.any (fun a => s.fabricHeld 0 a.storeBase (3 * a.bankSize)) ||
    (rankOwn (s.rankEntry 0 r.rank) && s.fabricHeld 0 r.area (4096 + snapDataSize p.work.snapSizes))

/-- The copies of captured snapshots that have not gone out, sent where they can be. -/
def State.sendSnapshots (s : State) : State :=
  match s.plan with
  | none => s
  | some p =>
    s.snaps.runs.foldl (fun s r => match r.image with
      | some data =>
        if r.copied || s.snapHeld p r then s
        else
          let runs := s.snaps.runs.map fun x => if x = r then { x with copied := true } else x
          State.copySnapshot { s with snaps := { s.snaps with runs := runs } } p r data
      | none => s) s

/-- Order 3 of a boundary (R436, R510): every snapshot of the step that has just committed is captured. -/
def State.captureSnapshots (s : State) (step : Nat) : State :=
  match s.plan with
  | none => s
  | some p =>
    let due := s.snaps.runs.filter fun r => r.step == step && r.image.isNone
    due.foldl (fun s r =>
      let data := layOut (s.snapSections p)
      let s := p.work.areas.foldl (fun s a => s.noteRead (a.storeBase + s.store.bank * a.bankSize) a.bankSize) s
      let s := s.noteTables ((List.range s.scales.length).map TableWord.scale)
      { s with snaps := { s.snaps with runs := s.snaps.runs.map fun x => if x = r then { x with image := some data } else x } }) s

/-! ### Arrival (R511) -/

/-- A snapshot-copy packet: data and the cleared header are written as they come, the full header when every data byte has landed. A
write outside the module's snapshot areas is refused (R423). -/
def State.receiveSnapshot (s : State) (l : Nat) (k : Packet) (all : Bool) : State :=
  let bs := k.payload all
  match s.snapArea k.target bs.length with
  | none => s.refuseWrite l k
  | some area =>
    if s.fabricHeld l k.target bs.length then s.block l k all
    else
    let mine (x : SnapArrive) : Bool := x.source == k.source && x.area == area
    let old := (s.snaps.arrivals.find? mine).getD ⟨k.source, area, 0, none⟩
    let rest := s.snaps.arrivals.filter fun x => !mine x
    let header := k.target == area && decide (8 < bs.length)
    let clear := k.target == area && !header
    let cur : SnapArrive :=
      if clear then { old with landed := 0, header := none }
      else if header then { old with header := some bs }
      else { old with landed := old.landed + bs.length }
    let s := if header then s else s.put 0 k.target bs
    match cur.header with
    | some h =>
      if fld (leNat (h.map Prod.fst)) 256 64 ≤ cur.landed then
        State.put { s with snaps := { s.snaps with arrivals := rest } } 0 area h
      else { s with snaps := { s.snaps with arrivals := rest ++ [cur] } }
    | none => { s with snaps := { s.snaps with arrivals := rest ++ [cur] } }

/-! ### RESTORE (R511, R512) -/

/-- A refusal of a RESTORE: status, reason of event 0x26, offset in the area. -/
structure RestoreRefusal where
  status : Nat
  reason : Nat
  offset : Nat
  deriving DecidableEq, Repr

/-- n bytes of an area at an offset: this module's memory, or a buddy's, whose bytes are free. -/
def State.areaBytes (s : State) (own : Bool) (area off n : Nat) : List (Byte × Bool) :=
  if own then s.load (area + off) n else (List.range n).map fun i => Config.buddyByte s.free (off + i)

/-- The check of a header (R511). -/
def State.checkHeader (s : State) (p : Plan) (step h : Nat) : Option RestoreRefusal :=
  firstOf [
    (fld h 0 32 != 1, ⟨stBadField, 0, 0⟩),
    (!bit h 32, ⟨stWrongState, 1, 4⟩),
    (fld h 33 31 != 0, ⟨stBadField, 0, 4⟩),
    (fld h 64 64 != step, ⟨stBadField, 0, 8⟩),
    (some (fld h 128 17) != s.ownRank, ⟨stWrongState, 2, 16⟩),
    (fld h 145 15 != 0, ⟨stBadField, 0, 18⟩),
    (fld h 160 16 != s.cairn.runTag, ⟨stWrongState, 3, 20⟩),
    (fld h 176 16 != 0, ⟨stBadField, 0, 22⟩),
    (fld h 192 64 != p.digest % 2 ^ 64, ⟨stWrongState, 4, 24⟩),
    (fld h 256 64 != snapDataSize p.work.snapSizes, ⟨stBadField, 0, 32⟩),
    (fld h 320 32448 != 0, ⟨stBadField, 0, 40⟩)]

/-- The bits of ledger entry i in staged data. -/
def stagedScale (p : Plan) (data : List (Byte × Bool)) (i : Nat) : Nat :=
  let start := ((sectionStarts 4096 p.work.snapSizes).getD 2 0) - 4096
  leNat (((data.drop (start + 80 * i)).take 80).map Prod.fst)

/-- Whether offset i of an area lies in a data section, which RESTORE stages, and not in the header or a gap (R512, R627). -/
def Plan.staged (p : Plan) (i : Nat) : Bool :=
  ((sectionStarts 4096 p.work.snapSizes).zip p.work.snapSizes).any fun x => decide (x.1 ≤ i) && decide (i < x.1 + x.2)

/-- What a RESTORE reads and checks: the staged data, or why it is refused. -/
def State.stageRestore (s : State) (p : Plan) (rank area step : Nat) : Except RestoreRefusal (List (Byte × Bool)) :=
  let own := s.ownRank == some rank
  let head := s.areaBytes own area 0 4096
  match s.checkHeader p step (leNat (head.map Prod.fst)) with
  | some r => .error r
  | none =>
    let data := s.areaBytes own area 4096 (snapDataSize p.work.snapSizes)
    match data.zipIdx.find? fun x => x.1.2 && p.staged (4096 + x.2) with
    | some x => .error ⟨stBadField, 5, 4096 + x.2⟩
    | none =>
      match (List.range s.scales.length).find? fun i => badScaleBits (stagedScale p data i) with
      | some i => .error ⟨stBadField, 0, (sectionStarts 4096 p.work.snapSizes).getD 2 0 + 80 * i⟩
      | none => .ok data

/-- The staged state made committed at a boundary (R512 items 4 to 6). -/
def State.applyRestore (s : State) (p : Plan) (data : List (Byte × Bool)) : State :=
  let starts := (sectionStarts 4096 p.work.snapSizes).map fun a => a - 4096
  let bank := (s.store.bank + 1) % 3
  let put (acc : State × Nat) (a : Area) : State × Nat :=
    (acc.1.put 0 (a.storeBase + bank * a.bankSize) ((data.drop acc.2).take a.bankSize), acc.2 + a.bankSize)
  let s1 := (p.work.areas.foldl put (s, 0)).1
  let num (off n : Nat) : Nat := leNat (((data.drop off).take n).map Prod.fst)
  let s2 := (List.range 64).foldl (fun s g =>
    s.setPowers bank g (num (starts.getD 1 0 + 8 * g) 4) (num (starts.getD 1 0 + 8 * g + 4) 4)) s1
  { s2.rewriteTables TableWord.isScale with
    scales := s2.scales.zipIdx.map fun (e, i) => e.restored (stagedScale p data i),
    streaks := [],
    store := { s2.store with bank := bank, committed := num (starts.getD 3 0) 8, epoch := 0 } }

end Sys2Proof.Machine
end

