-- ==== Sys2Proof/Machine/CrestUnit.lean ====
section
/-! DEFINITION. The crest boundary (R51–R73, R113–R119, R352, R384–R398): finish check, verdict actions, snapshots, host commands,
swap and dispatch. -/

namespace Sys2Proof.Machine

/-! ### The crest log (R527) -/

/-- Whether a sensor of the dies and stacks is stopped in a power state (R609). -/
def sensorStopped (p : PowerState) (n : Nat) : Bool :=
  match p with
  | .run | .ready => false
  | .hold => decide (n < 32)
  | .rest | .dormant => decide (n < 48) || (decide (49 ≤ n) && decide (n ≤ 60))

/-- Readings of a group of sensors that are available, in 0.1 °C. -/
def State.groupReadings (s : State) (lo hi : Nat) : List Int :=
  (s.monitor.readings.filter fun e => decide (lo ≤ e.1) && decide (e.1 ≤ hi) && !sensorStopped s.power.state e.1).map fun e => signed 16 e.2.1

/-- The junction warning level, in 0.1 °C (R538). -/
def Power.junctionLevel (p : Power) : Int := 10 * (fld p.supply 16 7 : Nat)

/-- The conditions that hold now, as the bits of a crest-log entry: by the latest readings, a junction above its warning level, the coolant out of
range, the input power above its warning level; a dip marks its crests when it ends (R526). -/
def State.conditions (s : State) : Nat :=
  2 * b2n ((s.groupReadings 0 48).any fun t => decide (s.power.junctionLevel < t)) + 4 * b2n (s.monitor.inletOut || s.monitor.flowOut) +
    16 * b2n s.monitor.powerHigh

/-- Bits marked in the entry of the running crest. -/
def State.markCrest (s : State) (bits : Nat) : State :=
  let i := s.crest.counter % 65536
  { s with crest := { s.crest with log := SMap.set 0 s.crest.log i (SMap.get 0 s.crest.log i ||| BitVec.ofNat 8 bits) } }

/-- The crest counter moved on to a number: the entries of skipped numbers are 0, and the new one holds what holds now. -/
def State.setCounter (s : State) (n : Nat) : State :=
  let old := s.crest.counter
  let skipped (i : Nat) : Bool := decide (65536 ≤ n - old) || decide ((i + 65536 - (old + 1) % 65536) % 65536 < n - old)
  let log := if old < n then s.crest.log.filter fun e => !skipped e.1 else s.crest.log
  let overlap (d : Dip) : Dip := { d with crests := d.crests ++ [n] }
  { s with crest := { s.crest with counter := n, log := SMap.set 0 log (n % 65536) (BitVec.ofNat 8 s.conditions) },
           power := { s.power with dip := s.power.dip.map overlap } }

/-! ### What a plan crest carries -/

/-- The plan crest to follow the running crest: step, plan crest, and whether it carries only the tail of the step before. After an
inserted crest it is the plan crest before which the segment was inserted (R352). -/
def State.following (s : State) : Option (Nat × Nat × Bool) :=
  match s.plan with
  | none => none
  | some p =>
    let fresh (n : Nat) : Bool := s.flight.any fun r => r.number == n && !r.begun
    match s.crest.running with
    | none => (s.flight.find? fun r => !r.begun).map fun r => (r.number, 0, false)
    | some r =>
      if r.inserted.isSome then some (r.step, r.crest, false)
      else if r.tail then
        if r.crest + 1 < p.tail then some (r.step, r.crest + 1, true) else if fresh r.step then some (r.step, 0, false) else none
      else if r.crest + 1 < p.work.length then some (r.step, r.crest + 1, false)
      else if fresh (r.step + 1) then some (r.step + 1, 0, false)
      else if decide (0 < p.tail) && (s.step? r.step).isSome then some (r.step + 1, 0, true)
      else none

/-- The segments to run before a plan crest (R352): those of entries that are unavailable in the step and whose home crest it is, in
ascending entry number, each once. -/
def State.fallbacks (s : State) (p : Plan) (step crest : Nat) : List (Nat × Nat) :=
  let hit (x : ActEntry × Nat) : Bool := x.1.homeCrest == crest && (x.1.policy == 1 || x.1.policy == 2) && x.1.segment != 0xFFFF &&
    s.acts.any fun a => a.entry == x.2 && a.step == step && a.unavailable
  ((p.acts.zipIdx.filter hit).map fun x => (x.1.segment, x.2)).foldl (fun l x => if l.any fun y => y.1 == x.1 then l else l ++ [x]) []

/-- The step whose plan crest 0 begins at the next boundary: none where a crest of a segment comes first (R352), and none outside RUN
(R309, R518). -/
def State.beginning (s : State) : Option Nat :=
  if s.power.state != .run || s.power.target.isSome then none else
  let waits := match s.crest.running with
    | some r => r.inserted.isSome && !s.crest.inserts.isEmpty
    | none => false
  match s.plan, s.following with
  | some p, some (n, 0, false) =>
    if waits then none
    else if (s.crest.running.all fun r => r.inserted.isNone) && !(s.fallbacks p n 0).isEmpty then none
    else some n
  | _, _ => none

/-! ### Order 1: the finish check (R54, R60–R63, R70, R71, R227) -/

/-- Whether an accumulator tile holds an instruction at a core's interlock. -/
def State.tileHeld (s : State) (c : Nat) (t : Waiting) : Bool :=
  let x := s.issueOf c t
  let tiles (l : List Nat) : List Nat := l.filter fun r => decide (100 ≤ r)
  (s.core c).ops.any fun p => Pend.conflicts { p with reads := tiles p.reads, writes := tiles p.writes } t.op.chain (tiles (unitReads t.op x s))
    (tiles (unitWrites t.op x s))

/-- The cause that a late core reports (R38, R227): that of its oldest instruction not finished, which is 3 where the mesh holds it or the increment
of its sig, or a link retried a transfer of it. -/
def State.coreCause (s : State) (c : Nat) : Nat :=
  let k := s.core c
  if k.ops.head?.any fun p => p.stuck || p.retried || s.sigHeld c p.word then 3
  else match k.hold, k.waiting with
  | some .mesh, _ => if k.ops.isEmpty then 3 else 0
  | some .block, t :: _ => if k.ops.isEmpty && s.sigHeld c t.word then 3 else 0
  | some .interlock, t :: _ => if s.tileHeld c t then 2 else 0
  | some (.token _ _), t :: _ => if k.ops.isEmpty && t.op == .frecv then 1 else 0
  | _, _ => 0

/-- The cause that a late M-die reports (R38, R71, R381). -/
def State.mdieCause (s : State) (m : Nat) : Nat :=
  if (s.mdie m).stuck then 3
  else match (s.mdie m).busy with
  | some t => if t.op == .rerun && (s.mdie m).held then 4 else 6
  | none => 6

/-- The cause that a late L-die reports: 3 where a collective of its schedule has no path to its own memory (R38). -/
def State.ldieCause (s : State) (l : Nat) : Nat :=
  let lost (a n : Nat) : Bool := (s.reachDies a n).any fun d => s.noPath (20 + l) d
  if s.partitioned && s.collectives.any fun o => o.ldie == l && (s.allCollectives[o.number]?).any fun c =>
      if o.begun then lost c.dest (if c.kind == 2 then c.bytes * c.members.length else c.bytes) else lost c.source c.bytes then 3
  else 7

/-- The first of the unfinished units: cores, then M-dies, then L-dies, each ascending (R62). -/
def firstUnit : List CrestUnit → Option CrestUnit
  | [] => none
  | u :: rest => match firstUnit rest with
    | some v => if u.cls < v.cls ∨ (u.cls = v.cls ∧ u.num < v.num) then some u else some v
    | none => some u

/-- Whether the running crest is the commit crest of step n. -/
def State.atCommit (s : State) (n : Nat) : Bool :=
  match s.plan, s.crest.running with
  | some p, some r => r.inserted.isNone && !s.crest.idle && r.crest == p.work.commit && r.step == n + b2n p.work.commitNext
  | _, _ => false

/-- The code of a discard verdict of a step; 0 where there is none (R387, R389). -/
def StepRec.discardCode (r : StepRec) : Nat :=
  match r.verdict, r.again with
  | some v, w =>
    if 2 ≤ v.code then v.code else match w with
      | some u => if 2 ≤ u.code then u.code else 0
      | none => 0
  | none, _ => 0

/-- Whether the verdict of a step lets it commit (R71, R389). -/
def StepRec.ready (r : StepRec) : Bool :=
  match r.verdict with
  | some v => v.code == 0 || (v.code == 1 && r.again.isSome)
  | none => false

/-- The first step in flight that this boundary must decide: one that discards, or one whose commit crest this is. -/
def State.deciding (s : State) : Option StepRec := s.flight.find? fun r => r.discardCode != 0 || s.atCommit r.number

/-- The L-die that carries the verdict collective (R62); free where no schedule of the plan carries one. -/
def State.verdictLdie (s : State) : Nat :=
  match s.plan with
  | some p => match (p.work.schedules.filter fun x => x.2.any fun c => c.kind == 4).map fun x => x.1.unit with
    | [] => Config.verdictLdie.toNat
    | l :: ls => ls.foldl min l
  | none => 0

/-- What defers the boundary, first in the order of R62: source class, source, cause. A snapshot's boundary waits for the members' barrier,
which L0 reports (R412, R436; log 69). -/
def State.lateUnit (s : State) : Option Deferred :=
  if s.crest.aborted then none
  else match firstUnit s.crest.units with
    | some u => some ⟨u.cls, u.num, if u.cls = 0 then s.coreCause u.num else if u.cls = 2 then s.mdieCause u.num else s.ldieCause u.num⟩
    | none =>
      match s.deciding with
      | some r =>
        if r.discardCode != 0 then none
        else if !r.ready then some ⟨3, s.verdictLdie, 4⟩
        else if s.snapshotOpen r.number then some ⟨3, 0, 7⟩ else none
      | none => match s.beginning with
        | some n => if s.flight.any fun r => r.number + 2 == n then some ⟨4, 0, 5⟩ else none
        | none => none

/-- The step that an overrun event names; none while no plan crest runs. -/
def State.overrunStep (s : State) : Nat := match s.crest.running with
  | some r => if s.crest.idle then noStep else if r.tail then stepBefore r.step else r.step
  | none => noStep

/-- The overrun event (R62). -/
def State.overrunEvent (s : State) (d : Deferred) (lateness : Nat) : State :=
  s.event 0x01 d.cls d.num s.overrunStep (s.planCrest % 2 ^ 32 + (lateness % 2 ^ 32) <<< 32 + d.cause <<< 64)

/-- The overrun counted on the steps that have work in the crest (R73). -/
def State.countOverrun (s : State) : State :=
  match s.plan, s.crest.running with
  | some p, some r =>
    let up (s : State) (n : Nat) : State := s.updStep n fun x => { x with overruns := x.overruns + 1 }
    let s := if r.tail then s else up s r.step
    if decide (r.crest < p.tail) && r.inserted.isNone then up s (stepBefore r.step) else s
  | _, _ => s

/-- A finish check that fails: the device slips (R60). One that is not to lock to a grid has none to leave. -/
def State.slip (s : State) (d : Deferred) : State :=
  let s := (s.countOverrun).markCrest 8
  { s with crest := { s.crest with deferred := some d, aligned := false, good := 0, locking := false,
                                   slipped := s.crest.slipped || bit s.crest.control 0 } }

/-! ### Order 2: commit (R113, R119, R394, R398, R399) -/

/-- The ledger exponent that a history calls for; none where its maximum is 0 (R113). -/
def historyK (history : List Nat) (margin : Nat) : Option Int :=
  let a := history.foldl (fun (a : Val) h => if a.cmp (f32 h) < 0 then f32 h else a) (.zero false)
  match a with
  | .zero _ => none
  | v => some (max (-120) (min 120 (15 - v.ilog2 - (margin : Int))))

/-- One ledger entry at a commit of a step (R113, R119): `primes` says that the step primes this entry. -/
def ScaleEntry.commit (e : ScaleEntry) (step : Nat) (primes : Bool) : ScaleEntry :=
  if e.primed then
    let h := e.history.set e.head e.pending
    let e := { e with history := h, head := (e.head + 1) % 16, pending := 0, pendStain := false }
    match historyK h e.margin with
    | some k => if step % 2 == 0 then { e with kEven := k } else { e with kOdd := k }
    | none => e
  else if primes then
    let h := List.replicate 16 e.pending
    let e := { e with history := h, head := 0, pending := 0, pendStain := false, primed := true }
    match historyK h e.margin with
    | some k => { e with kEven := k, kOdd := k }
    | none => e
  else e

/-- The zero-streak entry of a tensor on an M-die. -/
def State.streak (s : State) (m t : Nat) : Streak :=
  (s.streaks.find? fun x => x.mdie == m && x.tensor == t).getD ⟨m, t, 0, 0, false⟩

/-- Zero-streak counters of one tensor at the commit of a step (R398, R399). -/
def State.countStreak (s : State) (p : Plan) (step m t : Nat) : State :=
  let mine := (p.buckets.filter fun b => b.mdie == m && b.tensor == t).filterMap fun b => s.fold? b.tag step
  let folded := mine.filterMap fun f => f.root.map fun v => (v.length, f.zeros, f.flushes)
  if folded.isEmpty then s
  else
    let x := s.streak m t
    let zero := folded.all fun (n, z, _) => z == cdiv n chunkElems
    let n := if zero then satAdd 32 x.zeros 1 else 0
    let f := satAdd 32 x.flushes (folded.map fun x => x.2.2).sum
    let tell := zero && !x.silent && decide (s.arrays.thresholdInForce < n)
    let x' : Streak := { x with zeros := n, flushes := f, silent := zero && (x.silent || tell) }
    let s := { s with streaks := (s.streaks.filter fun y => !(y.mdie == m && y.tensor == t)) ++ [x'] }
    if tell then s.mEvent 0x0D m step (t + n <<< 32 + f <<< 64) else s

/-- Every zero-streak counter at a commit, by M-die and tensor. -/
def State.countStreaks (s : State) (p : Plan) (step : Nat) : State :=
  (p.buckets.map fun b => (b.mdie, b.tensor)).dedup.foldl (fun s x => s.countStreak p step x.1 x.2) s

/-- The scale ledger changed entry by entry. An entry whose word reads as uncorrectable is left as it is, and the contribution of the oldest step
in flight is marked (R500). -/
def State.mapLedger (s : State) (f : Nat → ScaleEntry → ScaleEntry) : State :=
  let ws := (List.range s.scales.length).map TableWord.scale
  let t : State := { s with scales := s.scales.zipIdx.map fun (e, i) => if s.tableBad [.scale i] then e else f i e }
  let t := t.noteTables ws
  if s.tableBad ws then t.markOldest else t

/-- COMMIT of a step (R394). Two choices of the model in the ledger: a priming step primes every unprimed entry that the plan names, also one
named only by a segment that did not run, which R119 does not single out (DESIGN CHOICE, log 66); and a step that commits and then completes with
FABRIC_PEER_LOST, since a peer was lost, updates the ledger as R113 says, where R115 speaks of a step that only drops its pending values
(DESIGN CHOICE, log 66). -/
def State.commitStep (s : State) (p : Plan) (r : StepRec) : State :=
  let n := r.number
  let s := s.mapLedger fun i e => e.commit n (r.prime && p.named.contains i)
  let s := { s with store := { s.store with bank := (s.store.bank + 1) % 3, committed := (s.store.committed + 1) % 2 ^ 64 } }
  ((s.countStreaks p n).dropFolds [n]).updStep n fun x => { x with phase := .committed }

/-! ### Order 2: discard and abort (R114, R115, R393, R395, R396) -/

/-- One entry's back-off; whether it sets the floor-reached bit (R114). The pending amax of an unprimed entry goes with its step. -/
def ScaleEntry.backoff (e : ScaleEntry) : ScaleEntry × Bool :=
  let e := { e with pending := 0, pendStain := false }
  if !e.primed then (e, false)
  else
    let low := e.kEven == -120 || e.kOdd == -120
    ({ e with kEven := max (-120) (e.kEven - 1), kOdd := max (-120) (e.kOdd - 1), backoffs := satAdd 16 e.backoffs 1, floor := e.floor || low },
      low && !e.floor)

/-- The ledger at a boundary that discards or aborts: backed off after a non-finite verdict, else its pending amax dropped. The scale-floor event
0x08 names no step: its step field is all ones, which R114 leaves open (DESIGN CHOICE, log 36). -/
def State.ledgerDrop (s : State) (nonfinite : Bool) : State :=
  let hit := if nonfinite then (s.scales.zipIdx.filter fun x => !s.tableBad [.scale x.2] && x.1.backoff.2).map Prod.snd else []
  hit.foldl (fun s i => s.event 0x08 2 0 noStep i)
    (s.mapLedger fun _ e => if nonfinite then e.backoff.1 else { e with pending := 0, pendStain := false })

/-- The status with which a step ends that a boundary drops with another's status: a stain verdict of its own ranks above a non-finite
discard (R73, R395). -/
def StepRec.dropStatus (r : StepRec) (status : Nat) : Nat :=
  if status = stDiscardNonfinite ∧ r.discardCode = 3 then stDiscardStain else status

/-- Steps end with a status: their flags are captured, their folds and held packets dropped (R395). A step dropped before its own verdict
came takes the verdict that dropped it, for the record of R473. -/
def State.endSteps (s : State) (nums : List Nat) (status : Nat) (supersede : Bool) (because : Option Verdict) : State :=
  let s := nums.foldl State.captureFlags s
  let close (r : StepRec) : StepRec :=
    if r.flying && nums.contains r.number then
      { r with phase := .ended (r.dropStatus status), superseded := supersede, verdict := r.verdict.or because }
    else r
  let gone (h : Held) : Bool :=
    let x := h.packet.fold s.store.epoch
    nums.contains (fld x 0 64) && fld x 64 8 == s.store.epoch
  State.dropFolds { s with steps := s.steps.map close, fabric := { s.fabric with held := s.fabric.held.filter fun h => !gone h } } nums

/-- The running position after steps were dropped: the tail of a committed step goes on, else the next plan crest is plan crest 0 of the
step submitted next (R395, R396). -/
def State.dropRunning (s : State) (p : Plan) (nums : List Nat) : State :=
  match s.crest.running with
  | none => s
  | some r =>
    if r.tail then
      if nums.contains (stepBefore r.step) then { s with crest := { s.crest with running := none, inserts := [] } } else s
    else if !nums.contains r.step then s
    else
      let prev := match s.step? (stepBefore r.step) with
        | some x => decide (x.phase = .committed) && !x.gathered
        | none => false
      let next := if prev && decide (r.crest + 1 < p.tail) then some { r with tail := true, inserted := none } else none
      { s with crest := { s.crest with running := next, inserts := [] } }

/-- What a boundary that drops steps does once, after them (R114, R115, R393): ledger, epoch, and the verdicts held for the new epoch. -/
def State.afterDrop (s : State) (nonfinite : Bool) : State :=
  let s := s.ledgerDrop nonfinite
  let e := (s.store.epoch + 1) % 256
  let held := s.fabric.verdicts
  let s := { s with store := { s.store with epoch := e },
                    fabric := { s.fabric with verdicts := [], nodes := s.fabric.nodes.filter fun d => d.epoch == e || d.epoch == (e + 1) % 256 } }
  held.foldl (fun s k =>
    let v : Verdict := ⟨bodyNum k 12 1, bodyNum k 13 1, bodyNum k 14 1, (List.range 64).map fun g => bodyNum k (32 + 4 * g) 4,
      (List.range 64).map fun g => bodyNum k (288 + 4 * g) 4⟩
    s.takeVerdict (bodyNum k 4 8) v (some k)) s

/-- The steps in flight from number n on. -/
def State.from (s : State) (n : Nat) : List Nat := (s.flight.filter fun r => decide (n ≤ r.number)).map StepRec.number

/-- A discard of step n and every later step in flight (R395). A non-finite discard backs the ledger off also where the step then
completes with FABRIC_PEER_LOST, which R115 lists among the completions that only drop the pending values: the verdict, which every
module has alike, decides (DEDUCED, log 66). -/
def State.discardFrom (s : State) (p : Plan) (n status : Nat) (supersede : Bool) : State :=
  let nums := s.from n
  let because := match s.step? n with
    | some r => if supersede then none else r.verdict
    | none => none
  ((s.endSteps nums status supersede because).dropRunning p nums).afterDrop (status == stDiscardNonfinite)

/-- The words of committed steps that the M-dies have not finished when a crest ends without its finish check go on in the crests after it;
no other word does (R396). -/
def State.carryWords (s : State) : State :=
  let kept (t : MWord) : Option MWord :=
    let n := s.mStep t
    if (s.step? n).any fun r => decide (r.phase = .committed) then some { t with carried := some n } else none
  let keep (d : MDie) : MDie :=
    let b := d.busy.bind kept
    { d with busy := b, held := d.held && b.isSome, stuck := d.stuck && b.isSome, queue := d.queue.filterMap kept }
  { s with mdies := SMap.mapVals MDie.init keep s.mdies }

/-- The verdict actions of a boundary (R54 order 2): the state, and the step committed, if any. -/
def State.verdictActions (s : State) (p : Plan) : State × Option Nat :=
  if s.crest.aborted then
    let nums := match s.flight.find? StepRec.aborting with
      | some r => s.from r.number
      | none => []
    let done := s.crest.aborts
    let s := s.carryWords
    let s := ((s.endSteps nums stAborted false none).dropRunning p nums).afterDrop false
    (done.foldl (fun s d => s.complete d stDone) { s with crest := { s.crest with aborted := false, aborts := [] } }, none)
  else match s.deciding with
    | none => (s, none)
    | some r =>
      if r.discardCode != 0 then (s.discardFrom p r.number (if r.discardCode = 3 then stDiscardStain else stDiscardNonfinite) false, none)
      else if !r.ready then (s, none)
      else
        let clip := match r.verdict with
          | some v => v.code == 1
          | none => false
        let s := s.commitStep p r
        let n := r.number
        match s.step? (n + 1) with
        | some x =>
          if clip && x.flying && x.begun then (s.discardFrom p (n + 1) stAborted true, some n)
          else if x.flying && x.discardCode != 0 then
            (s.discardFrom p (n + 1) (if x.discardCode = 3 then stDiscardStain else stDiscardNonfinite) false, some n)
          else (s, some n)
        | none => (s, some n)

/-- The end of the last crest that carries work of a step: a committed step has finished its GATHER, and its flags are captured (R73, R225),
but for one whose GATHER an ABORT's crest left running (R396). -/
def State.endCrest (s : State) (p : Plan) (ran : Option Running) : State :=
  match ran with
  | none => s
  | some r =>
    let last := if p.tail = 0 then p.work.length - 1 else p.tail - 1
    let n := if p.tail = 0 then r.step else stepBefore r.step
    if r.inserted.isSome || r.crest != last then s
    else match s.step? n with
      | some x =>
        if decide (x.phase = .committed) && !x.gathered && !s.gathering n then s.closeStep n else s
      | none => s

/-! ### Order 4: host commands (R54, R65, R309, R348, R425, R439, R459, R512, R519) -/

/-- An accepted change of CREST_CONTROL, the crest period, the array control and the zero-streak threshold takes effect (R146, R399, R604). A
module that comes to name itself the source is aligned; one whose period is not the grid's never is (R430). -/
def State.applySettings (s : State) : State :=
  let c := s.crest.controlNext
  let align := bit c 0
  let own := align && bit c 1 && fld c 2 18 == s.address
  let moved := fld c 1 19 != fld s.crest.control 1 19
  let cr := s.crest
  let slipped := cr.slipped && !(own && c != cr.control)
  let same := own || (cr.gridPeriod.all fun n => n == cr.periodNext)
  { s with
    crest := { cr with
      control := c, period := cr.periodNext, slipped := slipped,
      aligned := (cr.aligned && align && same) || (own && !slipped),
      grid := if align then cr.grid else none, seen := if align && !moved then cr.seen else none,
      gridPeriod := if align && !moved then cr.gridPeriod else none,
      good := if align && same && !moved then cr.good else 0,
      locking := cr.locking && align && same,
      beacons := cr.beacons && !moved, offset := if cr.beacons && !moved then cr.offset else 0x80000000 },
    arrays := { s.arrays with currentInForce := s.arrays.current, batchWaitInForce := s.arrays.batchWait, thresholdInForce := s.arrays.threshold } }

/-- The plan unloaded: committed steps whose GATHER still ran are taken as finished (R459). -/
def State.unload (s : State) : State :=
  let finish (r : StepRec) : StepRec := if decide (r.phase = .committed) then { r with gathered := true } else r
  { s.rewriteTables (fun w => !w.isRank) with
    plan := none, scales := [], acts := [], folds := [], streaks := [], collectives := [], steps := s.steps.map finish,
    store := { s.store with shardMap := false, shard := [] },
    crest := { s.crest with running := none, units := [], inserts := [] } }

/-- A revoke takes effect (R348, R349). -/
def State.withdrawTalus (s : State) : State :=
  let s := s.withdrawEntries
  { s with talus := { s.talus with bound := none, reads := [], data := [] } }

/-- Whether a change to a power state is refused for what goes on (R521): a step in flight, or for REST and DORMANT a plan, a talus store
or a descriptor at work on memory. -/
def State.powerForbidden (s : State) (target : Nat) : Bool :=
  (target != 0 && !s.flight.isEmpty) ||
    (decide (3 ≤ target) && (s.plan.isSome || !s.talus.windows.isEmpty || s.talus.bound.isSome ||
      s.descs.any fun d => [0x0B, 0x0C, 0x0D, 0x0E, 0x0F, 0x10, 0x17].contains d.kind))

/-- Whether a parameter store cannot be reached: its stack is being poisoned, or no path leads to it (R38, R493). -/
def State.storesHeld (s : State) (p : Plan) : Bool := p.work.areas.any fun a => s.hostHeld 24 a.storeBase 1

/-- One command at order 4; `first` is the step whose plan crest 0 this boundary begins. None where it stays for a later boundary: a RING_ADVANCE
until its step begins, and it or a RESTORE while what it writes cannot be reached. -/
def State.applyCmd (s : State) (first : Option Nat) : BoundaryCmd → Option State
  | .realign target d =>
    if s.crest.waiting.isSome then none
    else some { s with crest := { s.crest with waiting := some target, waitDesc := some d } }
  | .power target d =>
    if s.power.target.isSome then none
    else
      let t := match target with
        | 0 => PowerState.run
        | 1 => .ready
        | 2 => .hold
        | 3 => .rest
        | _ => .dormant
      if t = s.power.state then some (s.complete d stDone)
      else if s.power.hot != .ready || s.powerForbidden target then some (s.complete d stWrongState)
      else some { s with power := { s.power with target := some t, desc := some d } }
  | .unload d => if s.flight.isEmpty then some (s.unload.complete d stDone) else some (s.complete d stWrongState)
  | .ringAdvance ring producer step d =>
    let now := first == some step || (s.step? step).any StepRec.begun
    if now && !s.hostHeld 24 ring 64 then some ((s.putNum 0 ring 4 producer false).complete d stDone) else none
  | .talusBind lender d =>
    if s.talus.bound.isSome then some (s.complete d stWrongState)
    else some (State.complete { s with talus := { s.talus with bound := some lender } } d stDone)
  | .talusRevoke d => some (s.withdrawTalus.complete d stDone)
  | .talusLost => some s.withdrawTalus
  | .peerLost rank d => some ((s.loseRank rank).complete d stDone)
  | .rankEntry rank entry _ number =>
    let own := rankAddress entry == s.address
    let s := s.mapRank rank fun _ => setFld (setFld entry 20 1 0) 21 1 (b2n own)
    let note (m : RankMoveRun) : RankMoveRun := if m.sent && m.rank == rank && m.entry == entry then { m with applied := s.crest.counter } else m
    let s := { s with fabric := { s.fabric with moves := s.fabric.moves.map note } }
    some (if s.ownRank.isSome then s.arrive number moveStep else s)
  | .restore d =>
    if s.plan.any s.storesHeld then none else
    let mine := s.snaps.staged.find? fun x => x.desc == d
    let s := { s with snaps := { s.snaps with staged := s.snaps.staged.filter fun x => x.desc != d } }
    match s.plan, mine with
    | some p, some x => if s.flight.isEmpty then some ((s.applyRestore p x.data).complete d stDone) else some (s.complete d stWrongState)
    | _, _ => some (s.complete d stNoPlan)

/-- The moves of a boundary in the order in which they apply: of one rank, by the initiator of the lower fabric address first (R439). -/
def sortMoves (cmds : List BoundaryCmd) : List BoundaryCmd :=
  let addr (c : BoundaryCmd) : Nat := match c with
    | .rankEntry _ _ a _ => a
    | _ => 0
  let move (c : BoundaryCmd) : Bool := match c with
    | .rankEntry _ _ _ _ => true
    | _ => false
  cmds.filter (fun c => !move c) ++ (cmds.filter move).mergeSort fun a b => decide (addr a ≤ addr b)

/-- Order 4 of a boundary: the commands in submission order; those that stay are kept. Each rank entry is confirmed by its barrier. -/
def State.hostCommands (s : State) (first : Option Nat) : State :=
  let cmds := sortMoves s.crest.cmds
  let s := { s with crest := { s.crest with cmds := [] } }
  cmds.foldl (fun s c =>
    match s.applyCmd first c with
    | some s' => s'
    | none => { s with crest := { s.crest with cmds := s.crest.cmds ++ [c] } }) s

/-! ### Orders 5 and 6: swap and dispatch (R52, R53, R58, R59, R303, R349, R352, R428) -/

/-- Whether any port is ACTIVE. -/
def State.portActive (s : State) : Bool := (List.range 32).any fun p => decide ((s.port p).state = .active)

/-- The beacon of a source at its boundary (R412, R428). -/
def State.sendBeacon (s : State) : State :=
  let c := s.crest.control
  if bit c 1 && fld c 2 18 == s.address && s.portActive then
    let body := zeros 4 ++ leBytes 8 s.crest.counter ++ leBytes 8 (Config.timebase s.free).toNat ++ zeros 8 ++ leBytes 4 s.crest.period
    let k := s.makePacket { type := 0x20, address := s.address, span := 3 } (clean body)
    State.emit { s with free := s.free + 1 } k
  else s

/-- The blocks of an inserted crest (R351, R352). -/
def Plan.segmentBlocks (p : Plan) (seg i : Nat) : List Work :=
  (p.work.segments.filter fun g => g.number == seg).flatMap fun g => g.blocks.filter fun w => w.crest == i

/-- The work of an inserted crest (R351, R352). -/
def Plan.segmentUnits (p : Plan) (seg i : Nat) : List CrestUnit :=
  ((p.segmentBlocks seg i).map fun w => ⟨0, w.unit⟩) ++
    (p.work.segments.filter fun g => g.number == seg).flatMap fun g => (g.programs.filter fun w => w.crest == i).map fun w => ⟨2, w.unit⟩

/-- The blocks that run in a plan crest; in a tail crest those with work of the step before (R59). -/
def Plan.crestBlocks (p : Plan) (crest : Nat) (tail : Bool) : List Work := p.work.blocks.filter fun w => w.crest == crest && (!tail || w.before)

/-- The cores and M-dies with work in a plan crest; in a tail crest those with work of the step before (R59). -/
def Plan.crestUnits (p : Plan) (crest : Nat) (tail : Bool) : List CrestUnit :=
  ((p.crestBlocks crest tail).map fun w => ⟨0, w.unit⟩) ++
    (p.work.programs.filter fun w => w.crest == crest && (!tail || w.before)).map fun w => ⟨2, w.unit⟩

/-- The M-dies begin their next programs (R58). -/
def State.resetPrograms (s : State) : State :=
  { s with mdies := SMap.mapVals MDie.init (fun d => { d with finished := 0 }) s.mdies }

/-- A block loaded from the plan store into a half of its core's instruction memory, as its words read (R56, R467, R489). -/
def State.loadBlock (s : State) (p : Plan) (w : Work) (half : Bool) : State :=
  let a := p.work.storeBase + w.at'
  let bs := s.load a (16 * w.words)
  (s.noteRead a (16 * w.words)).onCore w.unit fun k => { k with imem := k.imem.write 8 (if half then halfMemory else 0) bs }

/-- A core begins a block (R56, R58): it runs from the half that holds it, loaded now where it does not hold it yet. `crest` is its plan crest; none
for a block of a segment. -/
def State.beginBlock (s : State) (p : Plan) (crest : Option Nat) (w : Work) : State :=
  let k := s.core w.unit
  let s := if crest.isSome && k.ahead == crest then s else s.loadBlock p w (!k.half)
  s.onCore w.unit fun k => { k with half := !k.half, ahead := none, index := 0, loops := [], hold := none, waiting := [], fetched := false }

/-- The blocks of a plan crest loaded into the halves that the running blocks leave free (R56). -/
def State.fetchAhead (s : State) (p : Plan) (crest : Nat) : State :=
  (p.work.blocks.filter fun w => w.crest == crest).foldl (fun s w =>
    (s.loadBlock p w (!(s.core w.unit).half)).onCore w.unit fun k => { k with ahead := some crest }) s

/-- The L-dies' schedules of a plan crest begin (R431); in a tail crest the collectives of the step before. -/
def State.startSchedules (s : State) (p : Plan) (step crest : Nat) (tail : Bool) : State :=
  (numberSchedules 0 p.work.schedules).foldl (fun s (n, w, cs) =>
    if w.crest != crest then s
    else
      let s := { s with crest := { s.crest with units := s.crest.units ++ [⟨3, w.unit⟩] } }
      let s := cs.zipIdx.foldl (fun (s : State) (c, i) =>
        let k := if c.before then stepBefore step else step
        if (tail && !c.before) || (s.step? k).isNone then s else s.startCollective w.unit (n + i) k c) s
      if s.collectives.any fun o => o.ldie == w.unit then s
      else { s with crest := { s.crest with units := s.crest.units.erase ⟨3, w.unit⟩ } }) s

/-- A step begins (R303, R349, R365): its plan crest 0 starts. -/
def State.beginStep (s : State) (p : Plan) (n : Nat) : State :=
  let s := s.updStep n fun r => { r with begun := true }
  let s := { s with cores := SMap.mapVals CoreState.init (fun k => { k with lookAside := [] }) s.cores,
                    acts := s.acts.filter fun a => (s.step? a.step).isSome && a.step != n }
  let s := s.beginPowers p n
  if s.talus.bound.isSome then s
  else p.talusEntries.foldl (fun s e => s.makeUnavailable e n) s

/-- The void causes that hold while a crest of a step runs (R78): a mixed communicator, and a plan with a host-order collective. -/
def State.voidsNow (s : State) : Nat :=
  b2n (s.members.any fun e => rankOld e.2) ||| 8 * b2n (s.allCollectives.any fun c => c.order == 1)

/-- Those causes noted on the steps that have work in the running crest. -/
def State.noteVoids (s : State) : State :=
  match s.plan, s.crest.running with
  | some p, some r =>
    let v := s.voidsNow
    let mark (s : State) (n : Nat) : State := s.updStep n fun x => { x with voids := x.voids ||| v }
    let s := if r.tail then s else mark s r.step
    if decide (r.crest < p.tail) && r.inserted.isNone then mark s (stepBefore r.step) else s
  | _, _ => s

/-- A plan crest of a step begins: the blocks of the crest run, and those of the plan crest after it are loaded ahead (R56). -/
def State.startCrest (s : State) (p : Plan) (step crest : Nat) (tail : Bool) : State :=
  let s := if crest = 0 ∧ !tail then s.beginStep p step else s
  let s := (p.crestBlocks crest tail).foldl (fun s w => s.beginBlock p (some crest) w) s.resetPrograms
  let s := s.fetchAhead p (if crest + 1 < p.work.length then crest + 1 else 0)
  let s := { s with crest := { s.crest with running := some ⟨step, crest, none, tail⟩, units := p.crestUnits crest tail } }
  s.noteVoids.startSchedules p step crest tail

/-- An inserted crest begins. -/
def State.startInserted (s : State) (p : Plan) (step crest seg i : Nat) : State :=
  let s := (p.segmentBlocks seg i).foldl (fun s w => s.beginBlock p none w) s.resetPrograms
  let s := s.fetchAhead p crest
  { s with crest := { s.crest with running := some ⟨step, crest, some (seg, i), false⟩, units := p.segmentUnits seg i } }

/-- Crests of a segment. -/
def Plan.segmentCrests (p : Plan) (seg : Nat) : Nat := match p.work.segments.find? fun g => g.number == seg with
  | some g => g.crests
  | none => 0

/-- The fallback events of the segments about to run, and their crests (R352). Of several unavailable entries that name one segment the event names
the lowest, and every event is written at the boundary that begins the first inserted crest: R352 says neither (DESIGN CHOICE, log 54). -/
def State.insertSegments (s : State) (p : Plan) (step : Nat) (segs : List (Nat × Nat)) : State :=
  let s := segs.foldl (fun s (g, e) => s.event 0x16 4 0 step (g + e <<< 14 + (p.segmentCrests g % 2 ^ 11) <<< 28)) s
  { s with crest := { s.crest with inserts := segs.flatMap fun (g, _) => (List.range (p.segmentCrests g)).map fun i => (g, i) } }

/-- The next inserted crest, or the plan crest that it comes before. -/
def State.nextInserted (s : State) (p : Plan) (step crest : Nat) : State :=
  match s.crest.inserts with
  | (g, i) :: rest => State.startInserted { s with crest := { s.crest with inserts := rest } } p step crest g i
  | [] => s.startCrest p step crest false

/-- The next crest's work made active (R54 orders 5 and 6). Plan crests advance only in RUN (R518). -/
def State.dispatch (s : State) : State :=
  match s.plan with
  | none => { s with crest := { s.crest with running := none, units := [], idle := true } }
  | some p =>
    if s.power.state != .run || s.power.target.isSome then { s with crest := { s.crest with units := [], idle := true } }
    else
      let s := { s with crest := { s.crest with idle := false } }
      let inserted := match s.crest.running with
        | some r => if r.inserted.isSome then some r else none
        | none => none
      match inserted with
      | some r => s.nextInserted p r.step r.crest
      | none =>
        match s.following with
        | none => { s with crest := { s.crest with running := none, units := [] } }
        | some (n, c, true) => s.startCrest p n c true
        | some (n, c, false) =>
          match s.fallbacks p n c with
          | [] => s.startCrest p n c false
          | segs => (s.insertSegments p n segs).nextInserted p n c

/-- Time of the module's own from one boundary to the next: the grid goes on with it, on the grid or off it (R60, R65, R430). -/
def CrestState.elapse (c : CrestState) (n : Nat) : CrestState :=
  let q := max 1 (c.gridPeriod.getD c.period)
  { c with grid := c.grid.map fun g => (g + (c.phase + n) / q) % 2 ^ 64, phase := (c.phase + n) % q }

/-- The first boundary of the grid that has not passed, as far as the module knows (R65). -/
def CrestState.nextGrid (c : CrestState) : Option Nat := c.grid.map fun g => match c.seen with
  | some b => max g ((b + 1) % 2 ^ 64)
  | none => g

/-- The next crest begins: its number, at the first locked boundary that of the grid's boundary with which it coincides (R53); its log
entry, the source's beacon, and its work. -/
def State.beginCrest (s : State) : State :=
  let c := s.crest
  let n := match c.locking, c.grid with
    | true, some g => (g + 2 ^ 64 - 1) % 2 ^ 64
    | _, _ => (c.counter + 1) % 2 ^ 64
  let s := s.setCounter n
  let s := { s with crest := { s.crest with aligned := s.crest.aligned || c.locking, locking := false } }
  s.sendBeacon.dispatch

/-- Whether a command is a realign. -/
def BoundaryCmd.realigns : BoundaryCmd → Bool
  | .realign _ _ => true
  | _ => false

/-- Orders 2 and 3 of a boundary at which a crest has ended, or a realign's wait (R54, R71). -/
def State.verdictOrders (s : State) (ran : Option Running) : State :=
  let s := s.tellReads
  let (s, committed) := match s.plan with
    | some p => let r := s.verdictActions p
                (r.1.endCrest p ran, r.2)
    | none => (s, none)
  match committed with
  | some n => (s.captureSnapshots n).sendSnapshots
  | none => s.sendSnapshots

/-- Orders 2 to 6 of a boundary (R54). Where a realign is applied no crest begins, so no plan crest 0 does (R65, R309). -/
def State.boundary (s : State) : State :=
  let s := { s with crest := s.crest.elapse s.crest.period }
  let s := s.verdictOrders (if s.crest.idle then none else s.crest.running)
  let first := if s.crest.cmds.any BoundaryCmd.realigns then none else s.beginning
  let s := (s.hostCommands first).applySettings
  if s.crest.waiting.isSome then { s with crest := { s.crest with units := [], idle := true } } else s.beginCrest

/-- The first grid boundary numbered G or later at which a realigned device resumes; none while no beacon has come (R65). -/
def State.resumeNumber (s : State) (target : Nat) : Option Nat :=
  let c := s.crest.control
  if bit c 1 && fld c 2 18 == s.address then some (max target (s.crest.counter + 1)) else s.crest.nextGrid.map fun g => max target g

/-- A realigned device resumes, on the grid again (R60, R65): a discard verdict or an ABORT that came in its wait takes effect (R71, R396),
then the commands accepted in it, of which a further realign waits for the boundary that ends the new crest. -/
def State.resumeCrest (s : State) (target : Nat) : State :=
  match s.resumeNumber target with
  | none => s
  | some n =>
    let s := s.verdictOrders none
    let d := s.crest.waitDesc
    let s := (s.hostCommands s.beginning).setCounter n
    let s := { s with crest := { s.crest with waiting := none, waitDesc := none, slipped := false, phase := 0,
                                              grid := s.crest.grid.map fun _ => (n + 1) % 2 ^ 64 } }
    let s := s.applySettings.event 0x02 4 0 noStep n
    let s := match d with
      | some d => s.completeWith d stDone 0 n
      | none => s
    s.sendBeacon.dispatch

/-- Aborted or late, a crest whose work has ended takes its boundary, so much behind its scheduled end. -/
def State.endDeferred (s : State) (d : Deferred) (lateness : Nat) : State :=
  let s := s.overrunEvent d lateness
  State.boundary { s with crest := { s.crest.elapse lateness with deferred := none } }

/-! ### Rows -/

/-- CREST_BOUNDARY (R54): the scheduled end of the running crest, or the grid boundary that ends a realign's wait. A boundary that is
deferred comes with the late work's finish. -/
def execCrestBoundary (s : State) : Host.Outcome State Fault Refusal :=
  match s.crest.deferred, s.crest.waiting with
  | some _, _ => .next s
  | none, some target => .next (s.resumeCrest target)
  | none, none => match s.lateUnit with
    | some d => .next (s.slip d)
    | none => .next s.boundary

/-- LATE_WORK_FINISH (R60, R62): the last late work has finished; the overrun event is written and the next crest begins. -/
def execLateWorkFinish (lateness : BitVec 32) (s : State) : Host.Outcome State Fault Refusal :=
  match s.crest.deferred with
  | some d => if s.lateUnit.isSome then .next s else .next (s.endDeferred d lateness.toNat)
  | none => .next s

/-- OVERRUN_REPEAT (R63). -/
def execOverrunRepeat (lateness : BitVec 32) (s : State) : Host.Outcome State Fault Refusal :=
  match s.crest.deferred, s.lateUnit with
  | some _, some d => .next (s.overrunEvent d lateness.toNat)
  | _, _ => .next s

/-! ### Completions of steps (R73, R79, R388, R471–R473) -/

/-- The void causes of a step (R78, R79, R443): those noted while its crests ran, and its own priming. -/
def StepRec.voidCauses (r : StepRec) : Nat := r.voids ||| 2 * b2n r.prime

/-- The one status of a step completion (R73). -/
def State.stepStatus (_s : State) (r : StepRec) : Nat :=
  if r.peerLost then stPeerLost
  else match r.phase with
    | .ended st => st
    | _ => if r.voidCauses != 0 then stDeterminismVoid else if r.overruns != 0 then stCrestOverrun else stDone

/-- The verdict code that a completion and the verdict record carry (R388): a discarded step's is that of its status (R395). -/
def StepRec.verdictCode (r : StepRec) : Nat :=
  if r.phase = .ended stDiscardNonfinite then 2
  else if r.phase = .ended stDiscardStain then 3
  else match r.verdict with
    | some v => v.code
    | none => 0

/-- The verdict record (R473): 528 bytes. -/
def StepRec.verdictRecord (r : StepRec) (v : Verdict) : List Byte :=
  leBytes 8 r.number ++ leBytes 1 v.epoch ++ leBytes 1 r.verdictCode ++ zeros 6 ++ v.factors.flatMap (leBytes 4) ++ v.sums.flatMap (leBytes 4)

/-- Whether a step's completion is due (R73). -/
def StepRec.due (r : StepRec) : Bool :=
  match r.phase with
  | .inFlight => false
  | .committed => r.gathered
  | .ended _ => true

/-- The verdict record and the completion of a step. -/
def State.completeStep (s : State) (r : StepRec) : State :=
  let aborted := decide (r.phase = .ended stAborted)
  let s := match r.verdict with
    | some v => if r.area != 0 && !aborted then s.hostWrite r.area (r.verdictRecord v) else s
    | none => s
  let st := s.stepStatus r
  let extra := completionExtra r.superseded (r.voidCauses) r.flags false
  let detail := r.number + (min r.overruns 65535) <<< 64 + (if aborted then 0 else r.verdictCode) <<< 80 + s.store.epoch <<< 82
  let s := { s with steps := s.steps.erase r }
  s.completeWith r.desc st extra detail

/-- STEP_COMPLETION (R73): nothing while the step's GATHER still runs. -/
def execStepCompletion (step : Word) (s : State) : Host.Outcome State Fault Refusal :=
  match s.steps.find? fun r => r.number == step.toNat && r.due with
  | some r => .next (s.completeStep r)
  | none => .next s

/-- What a norm partial of a step leaves (R472): the step's flags (R89), and a completion record of kind 0x80, or for a stained partial, which is
never written, an event (R499). -/
def State.putPartial (s : State) (r : StepRec) (n g : Nat) : State :=
  let (v, stained) := s.normPartial g n
  let s := (s.updStep n fun r => { r with partials := r.partials ++ [g] }).raiseStep n v.flags
  if stained then s.event 0x0A 4 0 n 0
  else
    let d := { r.desc with kind := 0x80 }
    s.putFree d.cring (completionRecord s d stDone 0 (n + g <<< 64 + v.code <<< 96))

/-- The table words that a group's norm partial uses (R500): its entry and those of its buckets. -/
def State.partialTables (s : State) (g : Nat) : List TableWord :=
  .group g :: match s.plan with
    | some p => (p.buckets.filter fun b => b.group == g).map fun b => .bucket b.tag
    | none => []

/-- NORM_PARTIAL (R391, R472): written once the step before has committed and every bucket of the software-class group has folded; not
while a table word that it uses is uncorrectable (R500). -/
def execNormPartial (step : Word) (group : BitVec 6) (s : State) : Host.Outcome State Fault Refusal :=
  let n := step.toNat
  let g := group.toNat
  match s.step? n, s.group? g with
  | some r, some gr =>
    if !r.flying || !gr.software || s.predecessorOpen n || !s.groupFolded g n || r.partials.contains g then .next s
    else .next (s.useTables (s.partialTables g) fun s => s.putPartial r n g)
  | _, _ => .next s

end Sys2Proof.Machine
end

