-- ==== Sys2Proof/Machine/LedgerNames.lean ====
section
/-! DEFINITION. Which scale-ledger entries a plan's conversions name (R118, R235, R626): the values that a ledger-selection register may hold at
a conversion, from the words that write it. -/

namespace Sys2Proof.Machine

/-- Whether the step of a block, and the step before it, are priming steps (R626). -/
structure StepView where
  prime : Bool
  before : Bool
  deriving DecidableEq, Repr

/-- The views in which words run: a step follows a priming step only once that one has completed (R118), so the last one is that of its tail. -/
def stepViews : List StepView := [⟨false, false⟩, ⟨true, false⟩, ⟨true, true⟩]

/-- Whether an instruction runs in a view, by its variant (R626). -/
def StepView.runs (v : StepView) (w : Nat) : Bool :=
  let p := if Word.stepBefore w then v.before else v.prime
  Word.variant w == 0 || (if p then Word.variant w == 1 else Word.variant w == 2)

/-- Registers that an instruction writes, as scalar register numbers. -/
def scalarWrites (w : Nat) : List Nat :=
  match decodeOp w with
  | some .sli | some .salu | some .sld | some .sid | some .sflag | some .rreg => [Word.slot w 0]
  | some .vcvt => if isMX (fld w 61 4) then [Word.slot w 2] else []
  | _ => []

/-- Whether a word, with its position, writes a scalar register in a view. -/
def StepView.writes (v : StepView) (reg : Nat) (t : Nat × Nat) : Bool := v.runs t.1 && (scalarWrites t.1).contains reg

/-- The positions in a block of the writes of a scalar register that the instruction at position i may read: the last before it, and in a LOOP
body that does not write the register before it the last of the body, which the next pass through the body reads (R233); and whether that of an
earlier block may reach it. -/
def StepView.writersIn (v : StepView) (ws : List Nat) (i reg : Nat) : List Nat × Bool :=
  let before := (ws.zipIdx.take i).reverse.find? (v.writes reg)
  let bodyEnd (t : Nat × Nat) : Nat := t.2 + fld t.1 73 13
  let loops := (ws.zipIdx.take i).filter fun t => decide (decodeOp t.1 = some .loop) && decide (i ≤ bodyEnd t) &&
    before.all fun b => decide (b.2 < t.2)
  let again := loops.filterMap fun t => (ws.zipIdx.take (bodyEnd t + 1)).reverse.find? fun u => v.writes reg u && decide (i ≤ u.2)
  (before.toList.map Prod.snd ++ again.map Prod.snd, before.isNone)

/-- The last write of a register in block b of a core's blocks, as block and position. -/
def StepView.lastIn (v : StepView) (blocks : List (List Nat)) (reg b : Nat) : Option (Nat × Nat) :=
  ((blocks.getD b []).zipIdx.reverse.find? (v.writes reg)).map fun t => (b, t.2)

/-- The writes of blocks before block b that may reach it: of the first n blocks, which are those of the plan crests, the nearest one before it,
else the last one, which the step before ran; and those of the blocks of segments, which may have run between. -/
def StepView.writersBefore (v : StepView) (blocks : List (List Nat)) (n b reg : Nat) : List (Nat × Nat) :=
  let plan := (List.range n).filterMap (v.lastIn blocks reg)
  let segs := ((List.range blocks.length).drop n).filterMap (v.lastIn blocks reg)
  if n ≤ b then plan ++ segs
  else match (plan.filter fun t => decide (t.1 < b)).getLast? with
    | some t => t :: segs
    | none => plan.getLast?.toList ++ segs

/-- The values that a scalar register may hold at position i of block b; none for one that is not known from the words alone: of a load, a
reduction or the module itself, of another plan, or beyond the depth that is followed. -/
def StepView.values (v : StepView) (blocks : List (List Nat)) (n : Nat) : Nat → Nat → Nat → Nat → List (Option Nat)
  | 0, _, _, _ => [none]
  | fuel + 1, b, i, reg =>
    let (here, past) := v.writersIn (blocks.getD b []) i reg
    let src := here.map (fun j => (b, j)) ++ if past then v.writersBefore blocks n b reg else []
    if src.isEmpty then [none]
    else (src.flatMap fun (c, j) =>
      let w := (blocks.getD c []).getD j 0
      match decodeOp w with
      | some .sli => [some (fld w 64 64)]
      | some .salu =>
        let ys := if bit w 61 then [some (unsigned 64 (signed 32 (fld w 64 32)))] else v.values blocks n fuel c j (Word.slot w 2)
        (v.values blocks n fuel c j (Word.slot w 1)).flatMap fun x => ys.map fun y => x.bind fun x => y.map fun y => salu (fld w 57 4) x y
      | _ => [none]).dedup

/-- Register writes that are followed back from one conversion. -/
def valueDepth : Nat := 8

/-- The ledger entry that a word converts under by a value of its register (R235, R626): every entry where the value is not known (log 42). -/
def entriesOf (all : List Nat) (x : Option Nat) : List Nat :=
  match x with
  | some x => if bit x 12 then [fld x 0 12] else []
  | none => all

/-- Whether a word's ledger bit is set (R626). -/
def underLedger (w : Nat) : Bool :=
  match decodeOp w with
  | some .vcvt => bit w 82
  | some .kapply => bit w 120
  | _ => false

/-- The scale-ledger entries that the conversions of a core's blocks name (R118, R626): the first n are those of the plan crests, in order, the
others those of fallback segments. A conversion counts in each view in which it runs. -/
def namedEntries (blocks : List (List Nat)) (n : Nat) (all : List Nat) : List Nat :=
  (stepViews.flatMap fun v => blocks.zipIdx.flatMap fun (ws, b) => ws.zipIdx.flatMap fun (w, i) =>
    if underLedger w && v.runs w then (v.values blocks n valueDepth b i (Word.slot w 4)).flatMap (entriesOf all) else []).dedup

end Sys2Proof.Machine
end

