-- ==== Sys2Proof/Machine/PlanImage.lean ====
section
/-! DEFINITION. The crest plan image (R462–R469, R629): how it is read, and every check that a PLAN_LOAD makes before anything
changes. -/

namespace Sys2Proof.Machine

/-- Why a load is refused (R471): status, item class, unit, plan crest, instruction index or entry number, offset in the image. -/
structure LoadError where
  status : Nat
  cls : Nat
  unit : Nat := 0
  crest : Nat := 0
  index : Nat := 0
  offset : Nat := 0
  deriving DecidableEq, Repr

/-- The detail field of a refused load, from bit 96 of the record on (R471). -/
def LoadError.detail (e : LoadError) : Nat :=
  e.cls + (e.unit % 2 ^ 12) <<< 4 + (e.crest % 2 ^ 32) <<< 16 + (e.index % 2 ^ 16) <<< 48 + (e.offset % 2 ^ 32) <<< 64

/-- The first error of a list of checks. -/
def firstError (l : List (Option LoadError)) : Option LoadError := l.findSome? id

/-- n bytes of an image at host address a, from an offset, as a number. -/
def State.img (s : State) (a off n : Nat) : Nat := s.hostNum (a + off) n

/-! ### Header and section table (R462, R463) -/

/-- One entry of the section table. -/
structure Sec where
  type : Nat
  items : Nat
  off : Nat
  len : Nat
  deriving DecidableEq, Repr

/-- Status of the header, in the order of R458. -/
def State.headerStatus (s : State) (a len : Nat) : Option Nat :=
  let h := s.img a 0 4096
  let table := fld h 352 32
  let n := fld h 320 8
  let period := fld h 64 20
  let clear := setFld (h >>> 448) (8 * table - 448) (256 * n) 0
  firstOf [
    (fld h 0 32 != 0x4E414C50 || fld h 32 8 != 1 || fld h 40 16 != 0x00B0 || fld h 56 8 != 0 || decide (period < 2000) ||
      decide (1000000 < period) || fld h 84 12 != 0 || fld h 96 32 == 0 || decide (fld h 96 32 ≤ fld h 128 32) || fld h 161 31 != 0 ||
      decide (n < 2) || decide (64 < n) || fld h 328 24 != 0 || decide (table < 64) || table % 64 != 0 || decide (4096 < table + 32 * n) ||
      fld h 384 64 != len || clear != 0, stBadField),
    (period != s.crest.periodNext, stWrongState)]

/-- The section table. -/
def State.sections (s : State) (a : Nat) : List Sec :=
  let table := s.img a 44 4
  (List.range (s.img a 40 1)).map fun i =>
    let e := s.img a (table + 32 * i) 32
    ⟨fld e 0 16, fld e 32 32, fld e 64 64, fld e 128 64⟩

/-- Whether an entry of the section table breaks R463. -/
def State.badSec (s : State) (a len : Nat) (secs : List Sec) (i : Nat) (x : Sec) : Bool :=
  let e := s.img a (s.img a 44 4 + 32 * i) 32
  let before := secs.take i
  x.type == 0 || decide (0x0C < x.type) || before.any (fun y => y.type == x.type) || fld e 16 16 != 0 || x.off % 64 != 0 ||
    decide (x.off < 4096) || decide (len < x.off + x.len) || fld e 192 64 != 0 ||
    before.any fun y => decide (x.off < y.off + y.len) && decide (y.off < x.off + x.len)

/-- The section of a type. -/
def secOf (secs : List Sec) (t : Nat) : Option Sec := secs.find? fun x => x.type == t

/-- Checks of the section table and of the required sections. -/
def State.tableError (s : State) (a len : Nat) : Option LoadError :=
  let secs := s.sections a
  let table := s.img a 44 4
  firstError ((secs.zipIdx.map fun (x, i) =>
    if s.badSec a len secs i x then some { status := stBadField, cls := 7, index := i, offset := table + 32 * i } else none) ++
    [if [1, 0x0A, 0x0B].all fun t => (secOf secs t).isSome then none else some { status := stBadField, cls := 7, offset := table }])

/-! ### Indexes (R464, R629) -/

/-- One index entry: plan crest, unit, offset of its words in the image, how many, and where the entry lies. -/
structure Idx where
  crest : Nat
  unit : Nat
  off : Nat
  words : Nat
  at' : Nat
  deriving DecidableEq, Repr

/-- n index entries at an offset of the image; word offsets count from the section's start. -/
def State.indexAt (s : State) (a secOff at' n : Nat) : List Idx :=
  (List.range n).map fun i =>
    let e := s.img a (at' + 16 * i) 16
    ⟨fld e 0 32, fld e 32 8, secOff + fld e 64 32, fld e 96 32, at' + 16 * i⟩

/-- Whether an index entry breaks R464: crests below `crests`, units up to `units`, words of `width` bytes. -/
def State.badIdx (s : State) (a : Nat) (sec : Sec) (crests units width : Nat) (prev : Option Idx) (x : Idx) : Bool :=
  decide (crests ≤ x.crest) || decide (units < x.unit) || s.img a (x.at' + 5) 3 != 0 || (x.off - sec.off) % 16 != 0 ||
    decide (sec.off + sec.len ≤ x.off) || x.words == 0 || decide (sec.off + sec.len < x.off + width * x.words) || (match prev with
      | some p => !(decide (p.crest < x.crest) || (p.crest == x.crest && decide (p.unit < x.unit)))
      | none => false)

/-- Whether ranges, in ascending order, fill [lo, hi) without gap or overlap. -/
def tiles : List (Nat × Nat) → Nat → Nat → Bool
  | [], lo, hi => lo == hi
  | (p, n) :: rest, lo, hi => p == lo && tiles rest (lo + n) hi

/-- Ranges without repeats, in ascending order. -/
def sortRanges (l : List (Nat × Nat)) : List (Nat × Nat) := l.dedup.mergeSort fun x y => decide (x.1 < y.1) || (x.1 == y.1 && decide (x.2 ≤ y.2))

/-- Checks of an index, entry by entry. -/
def State.indexErrors (s : State) (a : Nat) (sec : Sec) (cls crests units width : Nat) (l : List Idx) : List (Option LoadError) :=
  l.zipIdx.map fun (x, i) =>
    if s.badIdx a sec crests units width (if i = 0 then none else l[i - 1]?) x then
      some { status := stBadField, cls := cls, unit := x.unit, crest := x.crest, index := i, offset := x.at' }
    else none

/-! ### Crest blocks (R56, R220, R232, R233, R237) -/

/-- The words of an index entry, of 16 bytes each. -/
def State.words (s : State) (a : Nat) (x : Idx) : List Nat := (List.range x.words).map fun i => s.img a (x.off + 16 * i) 16

/-- Whether a LOOP at index i of a block breaks R233. -/
def badLoop (ws : List Nat) (i : Nat) : Bool :=
  let body (w : Nat) : Nat := fld w 73 13
  let loops := (ws.zipIdx.take i).filter fun (w, _) => decide (decodeOp w = some .loop)
  let around := loops.filter fun (w, j) => decide (i ≤ j + body w)
  let w := ws.getD i 0
  decide (ws.length ≤ i + body w + 1) || around.any (fun (v, j) => decide (j + body v < i + body w)) || decide (4 ≤ around.length) ||
    ((ws.drop (i + 1)).take (body w)).any fun v => decide (decodeOp v = some .cbegin) || decide (decodeOp v = some .cend)

/-- Split part of a PASS; 0 for another instruction. -/
def splitPart (w : Nat) : Nat := if decodeOp w = some .pass then fld w 108 2 else 0

/-- Whether part n + 1 may follow part n: the same slots C and D, M, rows and mode (R237). -/
def splitFollows (x y : Nat) : Bool :=
  splitPart y == splitPart x + 1 && Word.slot x 2 == Word.slot y 2 && Word.slot x 3 == Word.slot y 3 && fld x 68 36 == fld y 68 36 &&
    fld x 105 2 == fld y 105 2

/-- Whether the PASS at index i breaks the order of split parts (R237). -/
def badSplit (ws : List Nat) (i : Nat) : Bool :=
  let plain (l : List Nat) : Option Nat := l.find? fun w => decide (decodeOp w ≠ some .loadset)
  let w := ws.getD i 0
  let p := splitPart w
  (decide (1 < p) && (match plain (ws.take i).reverse with
    | some v => !splitFollows v w
    | none => true)) ||
  ((p == 1 || p == 2) && (match plain (ws.drop (i + 1)) with
    | some v => !splitFollows w v
    | none => true))

/-- Instructions that a fallback segment may not hold (R351). -/
def segmentForbids : CoreOp → Bool
  | .fsend | .frecv | .bsend | .kvappend => true
  | _ => false

/-- The status of instruction i of a block of a core (R220). -/
def blockWordStatus (core : Nat) (segment : Bool) (ws : List Nat) (i : Nat) : Option Nat :=
  let w := ws.getD i 0
  let n := ws.length
  match decodeOp w with
  | none => some stBadKind
  | some o =>
    let place := match o with
      | .cbegin => i != 0 || fld w 57 13 + 1 != n
      | .cend => i + 1 != n
      | .loop => badLoop ws i
      | .matvec => decide (core % 32 < 30)
      | .pass => badSplit ws i
      | _ => false
    let edge := (i == 0 && decide (o ≠ .cbegin)) || (i + 1 == n && decide (o ≠ .cend)) || decide (8192 < n) || (segment && segmentForbids o)
    match wordStatus o w with
    | some st => if st == stBadKind then some st else if place || edge then some stBadField else some st
    | none => if place || edge then some stBadField else none

/-- Checks of a block's instructions. -/
def State.blockErrors (s : State) (a : Nat) (segment : Bool) (x : Idx) : List (Option LoadError) :=
  let ws := s.words a x
  (List.range ws.length).map fun i => (blockWordStatus x.unit segment ws i).map fun st =>
    { status := st, cls := 0, unit := x.unit, crest := x.crest, index := i, offset := x.off + 16 * i }

/-- Whether an instruction is work of a step, beside the block's frame (R217, R223). -/
def isWork (w : Nat) : Bool :=
  match decodeOp w with
  | some .nop | some .cbegin | some .cend | some .loop | none => false
  | _ => true

/-- The work that an index entry stands for. -/
def State.coreWork (s : State) (a : Nat) (x : Idx) : Work :=
  let ws := (s.words a x).filter isWork
  { crest := x.crest, unit := x.unit, words := x.words, before := ws.any Word.stepBefore, now := ws.any fun w => !Word.stepBefore w,
    at' := x.off }

/-! ### Lists (R360, R433, R465, R629) -/

/-- Bytes of a list padded to 16. -/
def listBytes (n : Nat) : Nat := roundUp n 16

/-- n 32-bit ranks at an offset of the image. -/
def State.ranksAt (s : State) (a off n : Nat) : List Nat := (List.range n).map fun i => s.img a (off + 4 * i) 4

/-- One destination of a distribution list (R433). -/
def State.destAt (s : State) (a off : Nat) : Dest :=
  let e := s.img a off 16
  ⟨fld e 0 17, fld e 32 48, fld e 80 6, fld e 86 8, bit e 95⟩

/-- The destinations of a distribution list. -/
def State.distAt (s : State) (a off : Nat) : List Dest := (List.range (s.img a off 4)).map fun i => s.destAt a (off + 16 + 16 * i)

/-- Whether a distribution list breaks R433. -/
def State.badDist (s : State) (a off : Nat) : Bool :=
  let n := s.img a off 4
  let ds := s.distAt a off
  n == 0 || decide (131072 < n) || s.img a (off + 4) 12 != 0 || !ascending (ds.map Dest.rank) ||
    ds.zipIdx.any fun (d, i) =>
      let e := s.img a (off + 16 + 16 * i) 16
      let r := s.rankEntry 0 d.rank
      !rankValid r || fld e 17 15 != 0 || d.addr % 64 != 0 || decide (rankBytes r ≤ d.addr) || (!d.signal && (d.token != 0 || d.core != 0)) ||
        bit e 94 || fld e 96 32 != 0

/-! ### Sections of fixed-size items -/

/-- An activation-ledger entry (R319). -/
def State.actAt (s : State) (a off : Nat) : ActEntry :=
  let e := s.img a off 64
  ⟨fld e 0 2, fld e 2 2, bit e 4, fld e 5 4, fld e 9 4, fld e 13 4, fld e 17 6 + 1, fld e 23 4, fld e 32 16, fld e 64 48, fld e 128 40,
    fld e 168 24, fld e 192 48, fld e 256 40, fld e 304 48, fld e 352 32, fld e 384 32, fld e 416 32, fld e 448 16, fld e 464 48⟩

/-- Whether a stack-view range lies wholly in the populated part of stack m (R317). -/
def inStack (code : OrderingCode) (m a n : Nat) : Bool :=
  decide (stackView + m * 2 ^ 36 ≤ a) && decide (a + n ≤ stackView + m * 2 ^ 36 + code.stackBytes)

/-- BAD_FIELD checks of an activation-ledger entry (R319, R320, R338); `segs` are the declared segment numbers. -/
def badAct (raw : Nat) (e : ActEntry) (segs : List Nat) : Bool :=
  let packed := e.policy == 1 || e.policy == 2
  let fdl := e.codec == 2
  let bql := e.codec == 3
  let none' := e.segment == 0xFFFF
  (!packed && e.codec != 0) || (e.policy == 1 && e.codec == 0) || (e.talus && e.policy != 2) ||
    (e.codec == 1 && decide (6 < e.fmt)) || (bql && e.fmt != 2 && e.fmt != 5) || (!bql && e.codec != 1 && decide (0xA < e.fmt)) ||
    (bql && (decide (e.target < 7) || decide (9 < e.target))) || (!bql && e.target != 0) || (bql && e.beta == 0) || (!bql && e.beta != 0) ||
    (!fdl && e.kf != 1) || decide (11 < e.mdie) || fld raw 27 5 != 0 || fld raw 48 16 != 0 || fld raw 112 16 != 0 || e.bytes == 0 ||
    e.bytes % (4096 * max 1 e.frames) != 0 || e.frames == 0 || (!fdl && e.frames != 1) || (fdl && decide (2 ^ 24 < e.bytes / max 1 e.frames)) ||
    fld raw 240 16 != 0 || e.capacity % 4096 != 0 || (packed && none' && decide (e.capacity < e.bytes)) || (!packed && e.capacity != 0) ||
    fld raw 296 8 != 0 || !(decide (e.produce < e.homeCrest) && decide (e.homeCrest ≤ e.release)) ||
    (e.policy == 2 && e.talus && none') || (!none' && !segs.contains e.segment) || (!(bql && e.fmt == 5) && e.scaleAddr != 0)

/-- Whether an activation-ledger entry names a shadow region or the plan store (R45, R382, R467): its home region, its copy and index in the
stack, or its scale array. -/
def ActEntry.inShadow (e : ActEntry) (p : Plan) : Bool :=
  let packed := e.policy == 1 || e.policy == 2
  let meets (a n : Nat) : Bool := spansMeet ((hbmSpans a n).filter fun x => decide (x.2.1 < x.2.2)) (shadowSpans p)
  meets e.home e.bytes || (e.policy == 1 && meets e.copyBase e.capacity) || (packed && meets e.indexBase (8 * e.blocks)) ||
    (e.scaled && meets e.scaleAddr (128 * e.blocks))

/-- The status of an activation-ledger entry. A SHIP copy that leaves the host window, of which R319's row does not speak, is OUT_OF_RANGE as an
access to it is (R40, R48; DESIGN CHOICE, log 74). -/
def State.actStatus (s : State) (raw : Nat) (e : ActEntry) (segs : List Nat) (p : Plan) : Option Nat :=
  let packed := e.policy == 1 || e.policy == 2
  firstOf [
    (badAct raw e segs, stBadField),
    (decide (12 * s.code.stackBytes < e.home + e.bytes) || (e.policy == 1 && !inStack s.code e.mdie e.copyBase e.capacity) ||
      (packed && !inStack s.code e.mdie e.indexBase (8 * e.blocks)) ||
      (e.policy == 2 && !e.talus && (decide (e.copyBase < hostBase) || decide (2 ^ 48 < e.copyBase + e.capacity))) ||
      (e.scaled && decide (12 * s.code.stackBytes < e.scaleAddr + 128 * e.blocks)) || e.inShadow p, stOutOfRange),
    (e.home % 4096 != 0 || e.copyBase % 64 != 0 || (packed && e.indexBase % 64 != 0) || e.scaleAddr % 4 != 0, stMisaligned)]

/-- A bucket entry (R360) with its lists. -/
def State.bucketAt (s : State) (a lists off : Nat) : Bucket :=
  let e := s.img a off 32
  ⟨fld e 0 16, fld e 16 6, fld e 22 4, fld e 32 24 + 1, fld e 64 32, s.ranksAt a (lists + fld e 128 32) (fld e 96 17 + 1),
    s.distAt a (lists + fld e 160 32), fld e 192 32⟩

/-- A group entry (R377). -/
def State.groupAt (s : State) (a off : Nat) : Group :=
  let e := s.img a off 64
  ⟨fld e 0 3, bit e 3, bit e 4, fld e 5 4, fld e 9 4, bit e 13, (List.range 10).map fun n => fld e (32 * n + 32) 32⟩

/-- Whether a group entry breaks R377 by itself. -/
def badGroup (raw : Nat) (g : Group) : Bool :=
  decide (4 < g.optimizer) || (g.kernelBOn && g.optimizer != 4) || fld raw 14 18 != 0 || fld raw 352 160 != 0 ||
    g.k.any nonfiniteF32 || (g.k.getD 8 0) / 2 ^ 31 == 1

/-- A collective record (R465). -/
def State.collectiveAt (s : State) (a lists off : Nat) : Collective :=
  let e := s.img a off 64
  ⟨fld e 0 3, fld e 3 2, fld e 8 4, bit e 16, s.ranksAt a (lists + fld e 32 32) (min (fld e 64 32) 131073), fld e 96 17, fld e 128 48, fld e 176 48,
    fld e 224 32, fld e 256 6, fld e 262 8, bit e 270⟩

/-- The status of a collective record (R431–R433, R465). -/
def State.collectiveStatus (s : State) (raw : Nat) (c : Collective) : Option Nat :=
  let n := fld raw 64 32
  let data := c.kind == 1 || c.kind == 2 || c.kind == 3
  firstOf [
    (decide (4 < c.kind) || decide (1 < c.order) || (c.order == 1 && c.kind != 3) || fld raw 5 3 != 0 || fld raw 12 4 != 0 ||
      (if c.kind == 3 then c.fmt != 0 && c.fmt != 2 else c.fmt != 0) || fld raw 17 15 != 0 || n == 0 || decide (131072 < n) ||
      !ascending c.members || c.members.any (fun r => decide (131071 < r) || !rankValid (s.rankEntry 0 r)) ||
      (if c.kind == 1 then !c.members.contains c.root else c.root != 0) || fld raw 113 15 != 0 || (!data && c.bytes != 0) ||
      fld raw 271 241 != 0, stBadField),
    (data && decide (0 < c.bytes) && !(s.reachable c.source c.bytes &&
      s.reachable c.dest (if c.kind == 2 then c.bytes * n else c.bytes)), stOutOfRange),
    (c.bytes % 8 != 0, stMisaligned)]

/-! ### Areas (R467, R627) -/

/-- The record of one M-die. -/
def State.areaAt (s : State) (a off m : Nat) : Area :=
  let e := s.img a (off + 64 * m) 64
  ⟨fld e 0 32, fld e 32 32, fld e 64 32, fld e 128 64, fld e 192 64, fld e 256 64, fld e 320 64⟩

/-- The declared regions of HBM3, as stack spans, one list for each region. -/
def declaredRegions (areas : List Area) (holds snaps : List Nat) (sizes : List Nat) (storeBase storeSize : Nat) : List (List (Nat × Nat × Nat)) :=
  (areas.zipIdx.flatMap fun (x, m) =>
    [[(m, x.storeBase % 2 ^ 36, x.storeBase % 2 ^ 36 + 3 * x.bankSize)], [(m, x.spillBase % 2 ^ 36, x.spillBase % 2 ^ 36 + x.spillSize)]]) ++
    holds.map (fun h => hbmSpans h (64 * 2 ^ 20)) ++
    (snaps.filter fun h => h != 0).map (fun h => hbmSpans h (4096 + snapDataSize sizes)) ++ [hbmSpans storeBase storeSize]

/-- Whether two of a list of regions meet. -/
def regionsMeet : List (List (Nat × Nat × Nat)) → Bool
  | [] => false
  | x :: rest => rest.any (spansMeet (x.filter fun sp => decide (sp.2.1 < sp.2.2))) || regionsMeet rest

/-! ### Apertures, kernels, preload (R468, R469) -/

/-- An aperture entry (R468). -/
def apertureOf (e : Nat) : Aperture :=
  match fld e 0 2 with
  | 1 => .rank (fld e 2 17)
  | 2 => .talus
  | _ => .unbound

/-- Whether an aperture entry breaks R468 by itself. -/
def State.badAperture (s : State) (e : Nat) : Bool :=
  fld e 0 2 == 3 || fld e 19 45 != 0 || (fld e 0 2 != 1 && fld e 2 17 != 0) || (fld e 0 2 == 1 && !rankValid (s.rankEntry 0 (fld e 2 17)))

/-- One M-die kernel item: M-die, slot, its words, and where it lies. -/
structure KernelItem where
  mdie : Nat
  slot : Nat
  len : Nat
  image : List Nat
  at' : Nat
  deriving DecidableEq, Repr

/-- The kernel items that follow the aperture entries, as many as fit. -/
def State.kernelItems (s : State) (a stop : Nat) : Nat → Nat → List KernelItem
  | 0, _ => []
  | fuel + 1, off =>
    if stop < off + 16 then []
    else
      let h := s.img a off 16
      let n := fld h 32 32
      ⟨fld h 0 4, fld h 4 4, n, (List.range (min n 4096 / 4)).map fun i => s.img a (off + 16 + 4 * i) 4, off⟩ ::
        s.kernelItems a stop fuel (off + 16 + roundUp n 16)

/-- Whether an M-die kernel image breaks R198 and R199, its sources read as R379 has them. -/
def badMdieImage (ws : List Nat) : Bool :=
  match ws with
  | [] => true
  | h :: steps => kSteps h == 0 || decide (48 < kSteps h) || bit h 15 || steps.length != kSteps h || steps.any fun w =>
      decide (0x1D < fld w 0 6) || fld w 24 8 != 0 || (List.range (stepArity (fld w 0 6))).any fun i =>
        stepSource w i == 15 || decide (23 < stepSource w i)

/-- One preload item: address, length, and where it lies. -/
structure PreItem where
  addr : Nat
  len : Nat
  at' : Nat
  deriving DecidableEq, Repr

/-- The preload items, as many as fit. -/
def State.preItems (s : State) (a stop : Nat) : Nat → Nat → List PreItem
  | 0, _ => []
  | fuel + 1, off =>
    if stop < off + 16 then []
    else
      let h := s.img a off 16
      ⟨fld h 0 48, fld h 64 32, off⟩ :: s.preItems a stop fuel (off + 16 + roundUp (fld h 64 32) 16)

/-! ### The whole image -/

/-- What a plan image holds beside the plan: kernels and preload data. -/
structure PlanImage where
  plan : Plan
  kernels : List KernelItem
  preload : List PreItem
  deriving DecidableEq, Repr

/-- A section, or an empty one where the image has none. -/
def secOrNone (secs : List Sec) (t : Nat) : Sec := (secOf secs t).getD ⟨t, 0, 0, 0⟩

/-- Fallback segments (R466): number, crests, and the two indexes. -/
structure SegItem where
  number : Nat
  crests : Nat
  blocks : List Idx
  programs : List Idx
  raw : Nat
  at' : Nat
  deriving DecidableEq, Repr

/-- The items of the fallback-segment section. -/
def State.segItems (s : State) (a : Nat) (sec : Sec) : List SegItem :=
  (List.range sec.items).map fun i =>
    let e := s.img a (sec.off + 32 * i) 32
    ⟨fld e 0 16, fld e 16 10 + 1, s.indexAt a sec.off (sec.off + fld e 64 64) (min (fld e 32 32) (sec.len / 16)),
      s.indexAt a sec.off (sec.off + fld e 160 64) (min (fld e 128 32) (sec.len / 16)), e, sec.off + 32 * i⟩

/-- M-die words of an index entry: what each is. -/
def mwordOf (w : Nat) : Option MWord :=
  ([.pack, .unpack, .ship, .fetch, .fwait, .update, .vcontrib, .rerun, .ostage, .gather, .cwait] : List MOp).find? (fun o => o.code == fld w 0 4)
    |>.map fun o => { op := o, word := w }

/-- The work that an M-die index entry stands for. -/
def State.mdieWork (s : State) (a : Nat) (x : Idx) : Work :=
  let ts := (s.words a x).filterMap mwordOf
  { crest := x.crest, unit := x.unit, words := x.words, before := ts.any fun t => mBefore t.op t.word,
    now := ts.any fun t => !mBefore t.op t.word, at' := x.off }

/-- The plan that an image declares, with its kernels and preload. -/
def State.readImage (s : State) (a len seed : Nat) : PlanImage :=
  let h := s.img a 0 64
  let secs := s.sections a
  let sec := secOrNone secs
  let lists := (sec 8).off
  let blockIdx := s.indexAt a (sec 1).off (sec 1).off (sec 1).items
  let segs := s.segItems a (sec 9)
  let scales := (List.range (sec 6).items).map fun i => s.img a ((sec 6).off + 80 * i) 80
  let all := List.range (sec 6).items
  let allBlocks := (blockIdx ++ segs.flatMap SegItem.blocks).map (s.words a)
  let ar := (sec 0x0A).off
  let work : PlanWork := {
    period := fld h 64 20, length := fld h 96 32, commit := fld h 128 32, commitNext := bit h 160,
    blocks := blockIdx.map (s.coreWork a),
    programs := (s.indexAt a (sec 2).off (sec 2).off (sec 2).items).map (s.mdieWork a),
    schedules := (s.indexAt a (sec 7).off (sec 7).off (sec 7).items).map fun x =>
      let cs := (List.range x.words).map fun i => s.collectiveAt a lists (x.off + 64 * i)
      ({ crest := x.crest, unit := x.unit, words := x.words, before := cs.any Collective.before, now := cs.any fun c => !c.before,
         at' := x.off }, cs),
    segments := segs.map fun g => ⟨g.number, g.crests, g.blocks.map (s.coreWork a), g.programs.map (s.mdieWork a)⟩,
    areas := (List.range 12).map (s.areaAt a ar),
    holdAreas := (List.range 4).map fun l => s.img a (ar + 768 + 8 * l) 8,
    snapAreas := (List.range 2).map fun i => s.img a (ar + 800 + 8 * i) 8,
    snapSizes := (List.range 4).map fun i => s.img a (ar + 816 + 8 * i) 8,
    storeBase := s.img a (ar + 848) 8, storeSize := s.img a (ar + 856) 8 }
  { plan := {
      seed := seed, digest := leNat (sha3_384 (s.hostBytes a len)), work := work,
      acts := (List.range (sec 3).items).map fun i => s.actAt a ((sec 3).off + 64 * i),
      buckets := (List.range (sec 4).items).map fun i => s.bucketAt a lists ((sec 4).off + 32 * i),
      groups := (List.range (sec 5).items).map fun i => s.groupAt a ((sec 5).off + 64 * i),
      scales := scales.map fun e => (fld e 564 2, fld e 584 32),
      apertures := (List.range 64).map fun i => apertureOf (s.img a ((sec 0x0B).off + 8 * i) 8),
      sends := (allBlocks.flatten.filter fun w => decide (decodeOp w = some .bsend)).map fun w => (fld w 69 16, Word.aperture w),
      named := ((List.range 256).flatMap fun c =>
        let mine (l : List Idx) : List (List Nat) := (l.filter fun x => x.unit == c).map (s.words a)
        namedEntries (mine blockIdx ++ mine (segs.flatMap SegItem.blocks)) (mine blockIdx).length all).dedup,
      fetches := ((s.indexAt a (sec 2).off (sec 2).off (sec 2).items).flatMap (s.words a)).filterMap fun w =>
        if fld w 0 4 == MOp.code .fetch then some (mEntry w) else none },
    kernels := s.kernelItems a ((sec 0x0B).off + (sec 0x0B).len) (sec 0x0B).items ((sec 0x0B).off + 512),
    preload := s.preItems a ((sec 0x0C).off + (sec 0x0C).len) (sec 0x0C).items (sec 0x0C).off }

end Sys2Proof.Machine
end

