-- ==== Sys2Proof/Machine/PlanCheck.lean ====
section
/-! DEFINITION. The checks of a PLAN_LOAD, section by section, and what a load then writes (R463–R469, R629). -/

namespace Sys2Proof.Machine

/-- An error of a section's own shape: item class 7, at the section's entry number and offset. -/
def secError (secs : List Sec) (x : Sec) (status : Nat) : LoadError :=
  { status := status, cls := 7, index := secs.findIdx (fun y => y.type == x.type), offset := x.off }

/-- A check as an error. -/
def failIf (c : Bool) (e : LoadError) : Option LoadError := if c then some e else none

/-- Whether ranges, without regard to order and repeats, fill [lo, hi) end to end. -/
def fills (l : List (Nat × Nat)) (lo hi : Nat) : Bool := tiles (sortRanges (l.filter fun r => r.2 != 0)) lo hi

/-- A section of fixed-size items (R629). -/
def fixedError (secs : List Sec) (x : Sec) (size limit : Nat) : Option LoadError :=
  failIf (x.len != x.items * size || decide (limit < x.items)) (secError secs x stBadField)

/-! ### Crest blocks and M-die programs (sections 1, 2) -/

/-- Whether a logical core is mapped to a physical core that is marked failed (R29). -/
def State.coreUnusable (s : State) (c : Nat) : Bool :=
  bit (SMap.get 0 s.coreMap.failed (c / 32)) (s.coreIndex c)

/-- A BSEND goes to its bucket's owner, which a KN8120 may not be: one through an aperture bound to a KN8120 rank refuses the load
(R248, R442). -/
def State.oldOwners (s : State) (a : Nat) (apertures : List Aperture) (x : Idx) : List (Option LoadError) :=
  (s.words a x).zipIdx.map fun (w, i) =>
    let old := match apertures.getD (Word.aperture w) .unbound with
      | .rank r => rankOld (s.rankEntry 0 r)
      | _ => false
    failIf (decide (decodeOp w = some .bsend) && old) { status := stBadField, cls := 0, unit := x.unit, crest := x.crest, index := i, offset := x.off + 16 * i }

/-- Checks of a list of crest blocks: the index, each core, each instruction, and that they fill the section. -/
def State.blockChecks (s : State) (a : Nat) (sec : Sec) (crests : Nat) (segment : Bool) (l : List Idx) : List (Option LoadError) :=
  s.indexErrors a sec 0 crests 255 16 l ++
    l.zipIdx.map (fun (x, i) => failIf (s.coreUnusable x.unit)
      { status := stWrongState, cls := 0, unit := x.unit, crest := x.crest, index := i, offset := x.at' }) ++
    l.flatMap (s.blockErrors a segment)

/-- Operations in the order of an M-die's program: the index entry, the position in it, the word. -/
def State.programOf (s : State) (a : Nat) (l : List Idx) (m : Nat) : List (Nat × MWord) :=
  (l.filter fun x => x.unit == m).flatMap fun x => (s.words a x).filterMap fun w => (mwordOf w).map fun t => (x.crest, t)

/-- The status of a program word on M-die m under a plan (R324, R381). -/
def Plan.wordStatus (p : Plan) (m : Nat) (segment : Bool) (w : Nat) : Option Nat :=
  match mwordOf w with
  | none => some stBadKind
  | some t =>
    match mwordStatus t.op w with
    | some st => some st
    | none =>
      let bad : Bool := match t.op with
        | .pack | .unpack | .ship | .fetch =>
          segment || (match p.acts[mEntry w]? with
            | none => true
            | some e => e.mdie != m || e.policy != (if t.op == .pack || t.op == .unpack then 1 else 2) || decide (e.blocks < mFirst w + mCount w) ||
                (e.codec == 2 && (mFirst w % e.frameBlocks != 0 || mCount w % e.frameBlocks != 0)))
        | .vcontrib => false
        | .cwait => (p.groups[mGroup w]?).isNone
        | _ => !p.buckets.any fun b => b.tag == mTag w && b.mdie == m
      if bad then some stBadField else none

/-- Checks of a list of M-die programs. -/
def State.programChecks (s : State) (a : Nat) (sec : Sec) (crests : Nat) (segment : Bool) (p : Plan) (l : List Idx) : List (Option LoadError) :=
  s.indexErrors a sec 1 crests 11 16 l ++
    l.flatMap fun x => (s.words a x).zipIdx.map fun (w, i) => (p.wordStatus x.unit segment w).map fun st =>
      { status := st, cls := 1, unit := x.unit, crest := x.crest, index := i, offset := x.off + 16 * i }

/-- Whether the plan has a round of RERUN: a hardware-class group that is ever clipped (R381). -/
def Plan.secondRound (p : Plan) : Bool := p.groups.any fun g => !g.software && (g.const 8) % 2 ^ 31 != 0

/-- Whether an M-die's VCONTRIB words are not those of R381: their crests counted from the step's own plan crest 0. -/
def Plan.badVcontrib (p : Plan) (ws : List (Nat × MWord)) : Bool :=
  let commit := p.work.commit + (if p.work.commitNext then p.work.length else 0)
  let at' := (ws.filter fun t => t.2.op == .vcontrib).map fun t => t.1 + (if mBefore t.2.op t.2.word then p.work.length else 0)
  (at'.filter fun c => decide (c < commit)).length != 1 || (at'.filter fun c => c == commit).length != (if p.secondRound then 1 else 0) ||
    at'.any fun c => decide (commit < c)

/-! ### Activation entries (section 3) -/

/-- Whether the operations of an entry break R320 and R324: its PACK or SHIP cover its blocks once each, in order, after the produce
crest; its UNPACK and FETCH come after them and before the home crest. -/
def badActWork (e : ActEntry) (n length : Nat) (ws : List (Nat × MWord)) : Bool :=
  let mine := (ws.filter fun t => t.2.op.codec && mEntry t.2.word == n).zipIdx
  let out := mine.filter fun t => t.1.2.op == .pack || t.1.2.op == .ship
  let back := mine.filter fun t => t.1.2.op == .unpack || t.1.2.op == .fetch
  let last := (out.map Prod.snd).foldl max 0
  (e.policy == 1 || e.policy == 2) && (!tiles (out.map fun t => (mFirst t.1.2.word, mCount t.1.2.word)) 0 e.blocks ||
    out.any (fun t => decide (t.1.1 ≤ e.produce)) || back.any fun t => decide (t.2 < last) || decide (e.homeCrest ≤ t.1.1)) ||
  decide (length ≤ e.release)

/-- Checks of the activation-ledger entries. -/
def State.actChecks (s : State) (a : Nat) (secs : List Sec) (p : Plan) : List (Option LoadError) :=
  let sec := secOrNone secs 3
  let progs := s.indexAt a (secOrNone secs 2).off (secOrNone secs 2).off (secOrNone secs 2).items
  let segs := p.work.segments.map Segment.number
  fixedError secs sec 64 16384 :: p.acts.zipIdx.map fun (e, n) =>
    let raw := s.img a (sec.off + 64 * n) 64
    let st := match s.actStatus raw e segs p with
      | some st => if st == stBadField || !badActWork e n p.work.length (s.programOf a progs e.mdie) then some st else some stBadField
      | none => if badActWork e n p.work.length (s.programOf a progs e.mdie) then some stBadField else none
    st.map fun st => { status := st, cls := 2, unit := e.mdie, index := n, offset := sec.off + 64 * n }

/-! ### Buckets, groups, scales (sections 4, 5, 6) -/

/-- Bytes of a bucket in a bank; 0 where its group is undeclared. -/
def Plan.bucketBytes (p : Plan) (b : Bucket) : Nat := match p.groups[b.group]? with
  | some g => b.bankBytes g
  | none => 0

/-- Status of bucket n (R360). -/
def State.bucketStatus (s : State) (a lists raw : Nat) (p : Plan) (n : Nat) (b : Bucket) : Option Nat :=
  let before := p.buckets.take n
  let bank := ((p.work.areas[b.mdie]?).map Area.bankSize).getD 0
  let lo := 64 * b.offset
  firstOf [
    (before.any (fun x => x.tag == b.tag) || (p.groups[b.group]?).isNone || decide (11 < b.mdie) || fld raw 26 6 != 0 || fld raw 56 8 != 0 ||
      fld raw 113 15 != 0 || !ascending b.contributors || b.contributors.any (fun r => decide (131071 < r)) ||
      s.badDist a (lists + fld raw 160 32) || fld raw 224 32 != 0, stBadField),
    (decide (bank < lo + p.bucketBytes b) || before.any (fun x => x.mdie == b.mdie && decide (64 * x.offset < lo + p.bucketBytes b) &&
      decide (lo < 64 * x.offset + p.bucketBytes x)), stOutOfRange)]

/-- Checks of the bucket entries. -/
def State.bucketChecks (s : State) (a : Nat) (secs : List Sec) (p : Plan) : List (Option LoadError) :=
  let sec := secOrNone secs 4
  fixedError secs sec 32 65536 :: p.buckets.zipIdx.map fun (b, n) =>
    (s.bucketStatus a (secOrNone secs 8).off (s.img a (sec.off + 32 * n) 32) p n b).map fun st =>
      { status := st, cls := 3, unit := b.mdie, index := n, offset := sec.off + 32 * n }

/-- Whether a group of optimizer 4 names a slot that is empty on an M-die that holds one of its buckets (R377, R379). -/
def emptySlot (p : Plan) (kernels : List KernelItem) (n : Nat) (g : Group) : Bool :=
  let has (m k : Nat) : Bool := kernels.any fun x => x.mdie == m && x.slot == k
  g.optimizer == 4 && ((p.buckets.filter fun b => b.group == n).any fun b => !has b.mdie g.kernelA || (g.kernelBOn && !has b.mdie g.kernelB))

/-- Whether a kernel of a group of optimizer 4 names the second moment, source 11, where the group keeps none (R379). -/
def absentSource (p : Plan) (kernels : List KernelItem) (n : Nat) (g : Group) : Bool :=
  let names (w : Nat) : Bool := (List.range (stepArity (fld w 0 6))).any fun i => stepSource w i == 11
  let bad (m : Nat) : Bool := kernels.any fun x => x.mdie == m && x.slot == g.kernelA && (x.image.drop 1).any names
  g.optimizer == 4 && !g.kernelBOn && ((p.buckets.filter fun b => b.group == n).any fun b => bad b.mdie)

/-- Checks of the group entries. -/
def State.groupChecks (s : State) (a : Nat) (secs : List Sec) (p : Plan) (kernels : List KernelItem) : List (Option LoadError) :=
  let sec := secOrNone secs 5
  fixedError secs sec 64 64 :: p.groups.zipIdx.map fun (g, n) =>
    failIf (badGroup (s.img a (sec.off + 64 * n) 64) g || emptySlot p kernels n g || absentSource p kernels n g)
      { status := stBadField, cls := 4, index := n, offset := sec.off + 64 * n }

/-- Checks of the scale-ledger entries (R111): only the plan's fields set, no tensor id twice. -/
def State.scaleChecks (s : State) (a : Nat) (secs : List Sec) (p : Plan) : List (Option LoadError) :=
  let sec := secOrNone secs 6
  fixedError secs sec 80 4096 :: p.scales.zipIdx.map fun (e, n) =>
    failIf (!onlyFields (s.img a (sec.off + 80 * n) 80) [(564, 2), (584, 32)] || (p.scales.take n).any fun x => x.2 == e.2)
      { status := stBadField, cls := 5, index := n, offset := sec.off + 80 * n }

/-! ### Schedules and lists (sections 7, 8) -/

/-- Checks of the fabric schedules. -/
def State.scheduleChecks (s : State) (a : Nat) (secs : List Sec) (p : Plan) : List (Option LoadError) :=
  let sec := secOrNone secs 7
  let l := s.indexAt a sec.off sec.off sec.items
  let lists := (secOrNone secs 8).off
  s.indexErrors a sec 6 p.work.length 3 64 l ++
    l.flatMap (fun x => (List.range x.words).map fun i =>
      (State.collectiveStatus { s with plan := some p } (s.img a (x.off + 64 * i) 64) (s.collectiveAt a lists (x.off + 64 * i))).map fun st =>
        { status := st, cls := 6, unit := x.unit, crest := x.crest, index := i, offset := x.off + 64 * i }) ++
    [failIf (!fills ((sec.off, 16 * sec.items) :: l.map fun x => (x.off, 64 * x.words)) sec.off (sec.off + sec.len)) (secError secs sec stBadField)]

/-- The lists that the image refers to: offset in the Lists section, and bytes. -/
def State.listRefs (s : State) (a : Nat) (secs : List Sec) : List (Nat × Nat) :=
  let b := secOrNone secs 4
  let c := secOrNone secs 7
  let lists := (secOrNone secs 8).off
  (List.range b.items).flatMap (fun n =>
    let e := s.img a (b.off + 32 * n) 32
    [(fld e 128 32, 4 * (fld e 96 17 + 1)), (fld e 160 32, 16 + 16 * s.img a (lists + fld e 160 32) 4)]) ++
  (s.indexAt a c.off c.off c.items).flatMap fun x => (List.range x.words).map fun i =>
    let e := s.img a (x.off + 64 * i) 64
    (fld e 32 32, 4 * fld e 64 32)

/-- The check of the Lists section (R629): the lists that are referred to fill it, each padded with zeros. -/
def State.listChecks (s : State) (a : Nat) (secs : List Sec) : List (Option LoadError) :=
  let sec := secOrNone secs 8
  let refs := (s.listRefs a secs).dedup
  [failIf (refs.length != sec.items || refs.any (fun r => r.1 % 16 != 0) || !fills (refs.map fun r => (r.1, listBytes r.2)) 0 sec.len ||
    refs.any fun r => s.img a (sec.off + r.1 + r.2) (listBytes r.2 - r.2) != 0) (secError secs sec stBadField)]

/-! ### Fallback segments (section 9) -/

/-- Checks of the fallback segments (R351, R466). -/
def State.segmentChecks (s : State) (a : Nat) (secs : List Sec) (p : Plan) : List (Option LoadError) :=
  let sec := secOrNone secs 9
  let l := s.segItems a sec
  (l.zipIdx.flatMap fun (g, i) =>
    let prev := if i = 0 then none else (l[i - 1]?).map SegItem.number
    failIf (decide (4095 < g.number) || (match prev with
      | some n => decide (g.number ≤ n)
      | none => false) || fld g.raw 26 6 != 0 || fld g.raw 224 32 != 0 || decide (sec.len < fld g.raw 64 64 + 16 * fld g.raw 32 32) ||
      decide (sec.len < fld g.raw 160 64 + 16 * fld g.raw 128 32)) { status := stBadField, cls := 7, index := i, offset := g.at' } ::
    (s.blockChecks a sec g.crests true g.blocks ++ s.programChecks a sec g.crests true p g.programs)) ++
  [failIf (!fills ((sec.off, 32 * sec.items) :: l.flatMap fun g =>
      (sec.off + fld g.raw 64 64, 16 * g.blocks.length) :: (sec.off + fld g.raw 160 64, 16 * g.programs.length) ::
        (g.blocks ++ g.programs).map fun x => (x.off, 16 * x.words)) sec.off (sec.off + sec.len)) (secError secs sec stBadField)]

/-! ### Areas (section 0x0A) -/

/-- Bytes that the engine area of M-die m must hold (R373). -/
def Plan.engineBytes (p : Plan) (kernels : List KernelItem) (m : Nat) : Nat :=
  let mine := p.buckets.filter fun b => b.mdie == m
  let up (n : Nat) : Nat := roundUp n 64
  let ar := p.work.areas.getD m ⟨0, 0, 0, 0, 0, 0, 0⟩
  up (32 * mine.length) + up (64 * p.groups.length) + up (80 * p.scales.length) + up (64 * (p.acts.filter fun e => e.mdie == m).length) +
    up (8 * (mine.map Bucket.tensor).dedup.length) + up ((kernels.filter fun k => k.mdie == m).map KernelItem.len).sum +
    up (ar.foldPool + ar.codecBytes)

/-- Bytes of values that the folds of M-die m can hold at once: half of each bucket's contributors, of two steps (R368). -/
def Plan.foldBytes (p : Plan) (m : Nat) : Nat :=
  ((p.buckets.filter fun b => b.mdie == m).map fun b => 2 * ((b.contributors.length + 1) / 2) * (4 * b.len)).sum

/-- The most bytes of FDL buffers that M-die m holds at one time (R338): from an entry's first PACK to its last, and during an
UNPACK. -/
def Plan.frameBytes (p : Plan) (ws : List (Nat × MWord)) : Nat :=
  let l := (ws.filter fun t => t.2.op.codec).map Prod.snd
  let size (n : Nat) : Nat := match p.acts[n]? with
    | some e => if e.codec == 2 then 4096 * e.frameBlocks else 0
    | none => 0
  let packs (t : MWord) : Bool := t.op == .pack || t.op == .ship
  let entries := (l.map fun t => mEntry t.word).dedup
  let held (i : Nat) : Nat :=
    let open' (n : Nat) : Bool := (l.take (i + 1)).any (fun t => packs t && mEntry t.word == n) && (l.drop i).any fun t => packs t && mEntry t.word == n
    ((entries.filter open').map size).sum + (match l[i]? with
      | some t => if packs t then 0 else size (mEntry t.word)
      | none => 0)
  ((List.range l.length).map held).foldl max 0

/-- Status of the Areas record (R467). -/
def State.areasStatus (s : State) (a ar len : Nat) (p : Plan) (kernels : List KernelItem) (progs : List Idx) : Option Nat :=
  let w := p.work
  let dies := w.areas.zipIdx
  let inHbm (x n : Nat) : Bool := decide (x + n ≤ 12 * s.code.stackBytes)
  firstOf [
    ((List.range 12).any (fun m => s.img a (ar + 64 * m + 12) 4 != 0 || s.img a (ar + 64 * m + 48) 16 != 0) || s.img a (ar + 864) 160 != 0 ||
      w.holdAreas.any (fun h => h == 0) ||
      dies.any (fun (x, m) => decide (2 ^ 26 < x.engineStart + p.engineBytes kernels m) || decide (x.foldPool + x.spillSize < p.foldBytes m) ||
        decide (x.codecBytes < p.frameBytes (s.programOf a progs m))) ||
      w.snapSizes != [(w.areas.map Area.bankSize).sum, 512, 80 * p.scales.length, 8] || decide (w.storeSize < len), stBadField),
    (dies.any (fun (x, m) => !inStack s.code m x.storeBase (3 * x.bankSize) || !inStack s.code m x.spillBase x.spillSize) ||
      w.holdAreas.any (fun h => !inHbm h (64 * 2 ^ 20)) || w.snapAreas.any (fun h => h != 0 && !inHbm h (4096 + snapDataSize w.snapSizes)) ||
      !inHbm w.storeBase w.storeSize || regionsMeet (declaredRegions w.areas w.holdAreas w.snapAreas w.snapSizes w.storeBase w.storeSize),
      stOutOfRange),
    (dies.any (fun (x, _) => x.engineStart % 65536 != 0 || x.storeBase % 4096 != 0 || x.bankSize % 4096 != 0) ||
      w.holdAreas.any (fun h => h % 4096 != 0) || w.snapAreas.any (fun h => h % 4096 != 0) || w.storeBase % 4096 != 0, stMisaligned)]

/-! ### Apertures, kernels, preload (sections 0x0B, 0x0C) -/

/-- Checks of the apertures and M-die kernels (R468). -/
def State.apertureChecks (s : State) (a : Nat) (secs : List Sec) (kernels : List KernelItem) : List (Option LoadError) :=
  let sec := secOrNone secs 0x0B
  let e (i : Nat) : Nat := s.img a (sec.off + 8 * i) 8
  (List.range 64).map (fun i => failIf (s.badAperture (e i) || (fld (e i) 0 2 == 2 && (List.range i).any fun j => fld (e j) 0 2 == 2))
    { status := stBadField, cls := 7, index := i, offset := sec.off + 8 * i }) ++
  kernels.zipIdx.map (fun (k, i) =>
    let h := s.img a k.at' 16
    failIf (decide (11 < k.mdie) || fld h 8 24 != 0 || fld h 64 64 != 0 || k.len % 4 != 0 || decide (4096 < k.len) || badMdieImage k.image)
      { status := stBadField, cls := 7, unit := k.mdie, index := 64 + i, offset := k.at' }) ++
  [failIf (sec.items != 64 + kernels.length && sec.items != kernels.length || !fills ((sec.off, 512) :: kernels.map fun k => (k.at', 16 + roundUp k.len 16))
    sec.off (sec.off + sec.len)) (secError secs sec stBadField)]

/-- Whether a preload range lies where R469 allows. -/
def State.preloadRange (s : State) (p : Plan) (a n : Nat) : Bool :=
  match regionOf s.code a, regionOf s.code (a + n - 1) with
  | some (.store c), some (.store d) => c == d
  | some (.staging m), some (.staging k) =>
    m == k && decide ((a - stagingBase) % 2 ^ 26 + n ≤ ((p.work.areas[m]?).map Area.engineStart).getD 0)
  | some .hbm, some .hbm =>
    let w := p.work
    !(declaredRegions w.areas w.holdAreas w.snapAreas w.snapSizes w.storeBase w.storeSize).any fun r => spansMeet (hbmSpans a n) r
  | _, _ => false

/-- Checks of the preload items (R469). -/
def State.preloadChecks (s : State) (a : Nat) (secs : List Sec) (p : Plan) (items : List PreItem) : List (Option LoadError) :=
  let sec := secOrNone secs 0x0C
  items.zipIdx.map (fun (x, i) =>
    let h := s.img a x.at' 16
    (firstOf [
      (fld h 48 16 != 0 || fld h 96 32 != 0 || x.len == 0, stBadField),
      (!s.preloadRange p x.addr x.len, stOutOfRange),
      (x.addr % 8 != 0 || x.len % 8 != 0, stMisaligned)]).map fun st => { status := st, cls := 7, index := i, offset := x.at' }) ++
  [failIf (sec.items != items.length || !fills (items.map fun x => (x.at', 16 + roundUp x.len 16)) sec.off (sec.off + sec.len))
    (secError secs sec stBadField)]

/-! ### The load -/

/-- The checks that follow the section table, in ascending section type (R469). -/
def State.sectionChecks (s : State) (a len : Nat) (im : PlanImage) : List (Option LoadError) :=
  let secs := s.sections a
  let p := im.plan
  let has (t : Nat) (l : List (Option LoadError)) : List (Option LoadError) := if (secOf secs t).isSome then l else []
  let one := secOrNone secs 1
  let two := secOrNone secs 2
  let blocks := s.indexAt a one.off one.off one.items
  let progs := s.indexAt a two.off two.off two.items
  let whole (x : Sec) (l : List Idx) : Option LoadError :=
    failIf (!fills ((x.off, 16 * x.items) :: l.map fun y => (y.off, 16 * y.words)) x.off (x.off + x.len)) (secError secs x stBadField)
  let ten := secOrNone secs 0x0A
  s.blockChecks a one p.work.length false blocks ++ blocks.flatMap (s.oldOwners a p.apertures) ++ [whole one blocks] ++
    has 2 (s.programChecks a two p.work.length false p progs ++ [whole two progs]) ++
    (List.range 12).map (fun m => failIf (p.badVcontrib (s.programOf a progs m)) { status := stBadField, cls := 1, unit := m, offset := two.off }) ++
    has 3 (s.actChecks a secs p) ++ has 4 (s.bucketChecks a secs p) ++ has 5 (s.groupChecks a secs p im.kernels) ++ has 6 (s.scaleChecks a secs p) ++
    has 7 (s.scheduleChecks a secs p) ++ s.listChecks a secs ++ has 9 (s.segmentChecks a secs p) ++
    [failIf (ten.items != 1 || ten.len != 1024) (secError secs ten stBadField),
     (s.areasStatus a ten.off len p im.kernels progs).map fun st => { status := st, cls := 7, offset := ten.off }] ++
    s.apertureChecks a secs im.kernels ++ has 0x0C (s.preloadChecks a secs p im.preload)

/-- The first failure of a load of the image at host address a (R469); the image itself where there is none. -/
def State.checkImage (s : State) (a len seed : Nat) : Except LoadError PlanImage :=
  if s.hostError a len then .error { status := stOutOfRange, cls := 7 }
  else match s.headerStatus a len with
    | some st => .error { status := st, cls := 7 }
    | none =>
      match s.tableError a len with
      | some e => .error e
      | none =>
        let im := s.readImage a len seed
        match firstError (s.sectionChecks a len im) with
        | some e => .error e
        | none => .ok im

/-- A scale-ledger entry after plan load (R111, R117). -/
def ScaleEntry.loaded (margin tensor : Nat) : ScaleEntry :=
  { history := List.replicate 16 0, pending := 0, pendStain := false, kEven := 0, kOdd := 0, head := 0, margin := margin, primed := false,
    floor := false, backoffs := 0, tensor := tensor }

/-- M-dies after a load: their kernel slots hold the plan's images. -/
def loadedMdies (kernels : List KernelItem) : SMap MDie :=
  kernels.foldl (fun ds k =>
    let d := SMap.get MDie.init ds k.mdie
    SMap.set MDie.init ds k.mdie { d with kslots := SMap.set [] d.kslots k.slot k.image }) []

/-- Powers of 1.0 of every group in every bank (R376). -/
def unitPowers : SMap Nat := (List.range 192).map fun i => (i, one32 + one32 <<< 32)

/-- Two equal ranges of a memory change places, byte by byte with their marks. -/
def Memory.swap (m : Memory) (a b n : Nat) : Memory :=
  let bytes := (List.range n).foldl (fun m' i => (m'.setByte (a + i) (m.byte (b + i))).setByte (b + i) (m.byte (a + i))) m
  (List.range (n / 4)).foldl (fun m' i => (m'.setMark (a + 4 * i) (m.markAt (b + 4 * i))).setMark (b + 4 * i) (m.markAt (a + 4 * i))) bytes

/-- A logical core and the spare of its class change places (R18, R28): registers, core store, accumulator memory and tile buffers. -/
def State.exchangeCore (s : State) (n : Nat) : State :=
  let k := 2 * (n / 32) + coreClass n
  { s with
    cores := SMap.set CoreState.init s.cores n (SMap.get CoreState.init s.spares k),
    spares := SMap.set CoreState.init s.spares k (s.core n),
    mem := (s.mem.swap (storeAddr n 0) (spareStore k) (2 ^ 23)).swap (accAddr n 0 0) (spareAcc k) (2 ^ 21),
    tiles := s.tiles.swap (tileAddr n 0 0) (tileAddr (256 + k) 0 0) (8 * 65536) }

/-- The written core map takes over (R28). -/
def State.takeCoreMap (s : State) : State :=
  let s := s.coreMap.moved.foldl State.exchangeCore s
  { s with coreMap := { s.coreMap with force := s.coreMap.index, moved := [] } }

/-- What a load writes once every check has passed (R28, R469). -/
def State.loadImage (s : State) (a len : Nat) (im : PlanImage) : State :=
  let p := im.plan
  let s := s.takeCoreMap
  let bytes := s.hostBytes a len
  let clean (l : List Byte) : List (Byte × Bool) := l.map fun b => (b, false)
  let s1 := im.preload.foldl (fun s x => s.put 0 x.addr (clean (s.hostBytes (a + x.at' + 16) x.len))) s
  let s2 := (s1.put 0 p.work.storeBase (clean bytes)).appendLog 3 0 0 len (leNat (sha3_384 bytes))
  { s2.rewriteTables (fun w => !w.isRank) with
    plan := some p,
    cores := SMap.mapVals CoreState.init CoreState.planLoaded s2.cores,
    mdies := loadedMdies im.kernels,
    scales := p.scales.map fun e => ScaleEntry.loaded e.1 e.2,
    acts := [], folds := [], streaks := [], collectives := [],
    store := { s2.store with epoch := 0, powers := unitPowers, shardMap := false, shard := [] },
    err := { s2.err with refusal := 0 } }

/-- PLAN_LOAD of an image at a host address (R469, R471): the status, the detail, and the state. -/
def State.planLoad (s : State) (a len seed : Nat) : State × Nat × Nat :=
  match s.checkImage a len seed with
  | .error e => (s, e.status, e.detail)
  | .ok im => (s.loadImage a len im, stDone, 0)

end Sys2Proof.Machine
end

