-- ==== Sys2Proof/Machine/DescriptorUnit.lean ====
section
/-! DEFINITION. Descriptors (R458–R461): their checks in the order of R458, their acceptance, and the rows of the 25 kinds. -/

namespace Sys2Proof.Machine

/-! ### Fields (R458, R460) -/

/-- The fields of each kind beyond the header, as (lowest bit, width). -/
def kindFields : Nat → List (Nat × Nat)
  | 0x01 => [(64, 64), (128, 32), (192, 64)]
  | 0x03 => [(64, 64), (128, 32), (160, 1), (192, 64)]
  | 0x05 => [(64, 64)]
  | 0x06 => [(64, 64), (128, 6), (134, 1), (160, 32)]
  | 0x07 => [(64, 48), (128, 32), (192, 64)]
  | 0x08 => [(64, 64)]
  | 0x09 => [(64, 64)]
  | 0x0A => [(64, 17), (96, 18)]
  | 0x0B => [(64, 16), (80, 3), (96, 32), (128, 32), (192, 64)]
  | 0x0C => [(64, 16), (80, 3), (96, 32), (128, 32), (192, 64)]
  | 0x0D => [(64, 1), (80, 48), (128, 64), (192, 32)]
  | 0x0E => [(64, 48), (128, 48), (192, 64)]
  | 0x0F => [(64, 17), (128, 48), (192, 64)]
  | 0x10 => [(64, 17), (128, 48), (192, 64)]
  | 0x11 => [(64, 5), (80, 48), (128, 48), (192, 18)]
  | 0x12 => [(64, 32)]
  | 0x13 => [(64, 18)]
  | 0x15 => [(64, 3)]
  | 0x17 => [(64, 4), (80, 48)]
  | 0x18 => [(64, 64), (128, 32)]
  | 0x19 => [(64, 17)]
  | _ => []

/-- Whether a reserved bit of a descriptor is nonzero (R458). -/
def reservedSet (kind bits : Nat) : Bool := !onlyFields bits ([(0, 11), (32, 32)] ++ kindFields kind)

/-- Fields by name: a field whose lowest bit is 64, 128 or 192. -/
def DescRef.f (d : DescRef) (lo w : Nat) : Nat := fld d.bits lo w

/-! ### Acceptance (R455, R458, R459) -/

/-- An accepted descriptor that completes later. -/
def State.accept (s : State) (d : DescRef) : State := { s with fetched := s.fetched.erase d, descs := s.descs ++ [d] }

/-- Bytes of the host image that a SHARD_MAP or RANK_TABLE reads (R460). -/
def DescRef.imageBytes (d : DescRef) : Nat := if d.kind = 0x08 then 262144 else if d.kind = 0x09 then 1048576 else 0

/-- What the reads of a descriptor's checks leave: the link event of an image read that completes with an error (R447); the counts of the
ring header of a RING_ADVANCE (R309, R503). -/
def State.noteImage (s : State) (d : DescRef) : State :=
  if d.kind = 0x07 then (if d.f 64 48 % 64 = 0 then s.noteRead (d.f 64 48) 64 else s)
  else if d.imageBytes != 0 && s.hostError (d.f 64 64) d.imageBytes then s.linkError 4 0 noStep (d.f 64 64) else s

/-- The bucket and group that a parameter descriptor names. -/
def State.paramBucket (s : State) (d : DescRef) : Option (Plan × Bucket × Group) :=
  match s.plan with
  | none => none
  | some p => match p.bucket? (d.f 64 16) with
    | none => none
    | some b => (p.groups[b.group]?).map fun g => (p, b, g)

/-- Bytes that a parameter descriptor moves: items 4 and 5 hold 8. -/
def paramBytes (d : DescRef) : Nat := if d.f 80 3 < 4 then (d.f 128 32 + 1) * itemWidth (d.f 80 3) else 8

/-- Device address of the first element of items 0 to 3, in the committed bank. -/
def State.paramAddr (s : State) (d : DescRef) : Nat :=
  match s.paramBucket d with
  | some (p, b, _) => p.itemAddr b s.store.bank (d.f 80 3) + d.f 96 32 * itemWidth (d.f 80 3)
  | none => 0

/-- Bytes of a snapshot area of the loaded plan (R511). -/
def State.restoreBytes (s : State) : Nat := match s.plan with
  | some p => 4096 + snapDataSize p.work.snapSizes
  | none => 4096

/-- The ranges of device memory that a PLAN_LOAD's image writes. -/
def State.loadRanges (s : State) (d : DescRef) : List (Nat × Nat) :=
  match s.checkImage (d.f 64 64) (d.f 128 32) (d.f 192 64) with
  | .ok im => (im.plan.work.storeBase, d.f 128 32) :: im.preload.map fun x => (x.addr, x.len)
  | .error _ => []

/-- Whether the check of a RING_ADVANCE must wait, since it reads the ring's header: no later descriptor is taken meanwhile (R454). -/
def State.checkHeld (s : State) (d : DescRef) : Bool := d.kind == 0x07 && d.f 64 48 % 64 == 0 && s.hostHeld 24 (d.f 64 48) 64

/-- Whether the traffic of an accepted descriptor that needs no time of its own must wait: for a die in reset that it reaches or crosses (R544),
for a stack that is being poisoned (R493), or with no mesh path (R38). A PLAN_LOAD reaches every die, a RANK_TABLE the L-dies. -/
def State.descHeld (s : State) (d : DescRef) : Bool :=
  match d.kind with
  | 0x01 => !s.power.resetting.isEmpty || (s.loadRanges d).any fun r => s.hostHeld 24 r.1 r.2
  | 0x09 => (List.range 4).any fun l => s.noPath 24 (20 + l) || (meshCrossed 24 (20 + l)).any s.power.resetting.contains
  | 0x0B => decide (d.f 80 3 < 4) && s.hostHeld 24 (s.paramAddr d) (paramBytes d)
  | 0x10 => s.ownRank == some (d.f 64 17) && s.hostHeld 24 (d.f 128 48) s.restoreBytes
  | _ => false

/-- What a descriptor's row does. The descriptor must be the ring's fetched one, of the row's kind, and not held by its fence bit; its checks are
made in order, and the first that fails refuses it with that status. One that passes them is accepted, and acts now or, where its traffic must
wait, at a DESCRIPTOR_WORK_DONE to come, so that it delays no later descriptor (R455; log 90). -/
def performDesc (kind : Nat) (check : State → DescRef → List (Bool × Nat)) (act : State → DescRef → State)
    (r : BitVec 4) (d : Desc) (s : State) : Host.Outcome State Fault Refusal :=
  if fld d.toNat 0 8 != kind then .refused .illFormed
  else match s.fetched.find? fun x => x.ring == r.toNat && x.bits == d.toNat with
    | none => .next s
    | some x =>
      if s.fenced x || s.checkHeld x then .next s
      else match firstOf ((reservedSet kind x.bits, stBadField) :: check s x) with
        | some st => .next ((s.noteImage x).complete x st)
        | none => .next (if s.descHeld x then (s.noteImage x).accept x else act (s.noteImage x) x)

/-- A command that takes effect at order 4 of the next boundary (R54). -/
def State.atBoundary (s : State) (d : DescRef) (c : BoundaryCmd) : State :=
  let s := s.accept d
  { s with crest := { s.crest with cmds := s.crest.cmds ++ [c] } }

/-- Whether the module is in REST or DORMANT. -/
def State.resting (s : State) : Bool := decide (3 ≤ s.power.state.code)

/-! ### Plans (R469, R521, R545, R568, R611) -/

def checkPlanLoad (s : State) (d : DescRef) : List (Bool × Nat) :=
  [(d.f 128 32 == 0, stBadField),
   (d.f 64 64 % 4096 != 0 || d.f 128 32 % 64 != 0, stMisaligned),
   (s.plan.isSome || !s.talus.windows.isEmpty || s.resting || s.fabric.stale || s.descs.any fun x => x.kind == 0x18 || x.kind == 0x01, stWrongState)]

def actPlanLoad (s : State) (d : DescRef) : State :=
  let s := if s.hostError (d.f 64 64) (d.f 128 32) then s.linkError 4 0 noStep (d.f 64 64) else s
  let (s', st, detail) := s.planLoad (d.f 64 64) (d.f 128 32) (d.f 192 64)
  s'.completeWith d st 0 detail

def checkPlanUnload (s : State) (_ : DescRef) : List (Bool × Nat) :=
  [(s.plan.isNone, stNoPlan), (!s.flight.isEmpty, stWrongState)]

/-! ### Steps (R69, R118, R359, R385, R396, R521) -/

/-- Whether a learning-rate factor is negative, NaN or infinite. -/
def badLambda (c : Nat) : Bool :=
  match f32 c with
  | .zero _ => false
  | .fin m _ => decide (m < 0)
  | _ => true

/-- Whether the priming flag is wrong for the ledger: missing while an entry that the plan names is unprimed, or set while none is (R118).
An entry that no instruction names is ignored (R626). -/
def State.badPriming (s : State) (flag : Bool) : Bool :=
  let named := match s.plan with
    | some p => p.named
    | none => []
  flag != s.scales.zipIdx.any fun (x : ScaleEntry × Nat) => named.contains x.2 && !x.1.primed

def checkStep (s : State) (d : DescRef) : List (Bool × Nat) :=
  [(d.f 64 64 != (s.store.committed + 1 + s.flight.length) % 2 ^ 64 || badLambda (d.f 128 32), stBadField),
   (d.f 192 64 % 64 != 0, stMisaligned),
   (s.plan.isNone || !s.store.shardMap, stNoPlan),
   (decide (3 ≤ s.steps.length) || s.badPriming (bit d.bits 160) || s.power.state != .run, stWrongState)]

/-- An accepted step: a stain mark that was held becomes its own (R385), and the void causes that hold apply to it whether its crests come
to run or not (R78, R79). -/
def actStep (s : State) (d : DescRef) : State :=
  let r : StepRec := { number := d.f 64 64, desc := d, lam := d.f 128 32, prime := bit d.bits 160, area := d.f 192 64,
                       first := { stain := s.store.heldStain }, voids := s.voidsNow }
  let s := s.accept d
  { s with steps := s.steps ++ [r], store := { s.store with heldStain := false } }

/-- A core at an abort: what it holds of the steps in flight ends without effect, and its operations of them stop; the rest goes on. An
instruction of another step that the mesh holds, whose effect has been made and whose sig has no path (R38), stays held. -/
def State.abortCore (s : State) (c : Nat) : State :=
  let gone (w : Nat) : Bool := s.inFlight (if Word.stepBefore w then stepBefore s.blockStep else s.blockStep)
  let ends := (s.core c).waiting.head?.any fun t => gone t.word
  let s' := s.onCore c fun k => { k with
    fetched := k.fetched && !ends,
    waiting := k.waiting.filter fun t => !gone t.word,
    batch := k.batch.filter fun e => !s.inFlight e.step,
    ops := k.ops.filter fun p => !gone p.word }
  if (s.core c).hold == some .mesh && !ends then s' else s'.resume c

/-- An M-die at an abort: the words of steps in flight end without effect, with their talus reads; those of a committed step go on. -/
def State.abortMdie (s : State) (m : Nat) : State :=
  let d := s.mdie m
  let gone (t : MWord) : Bool := s.inFlight (s.mStep t)
  let ended := match d.busy with
    | some t => gone t
    | none => false
  let s := s.setMdie m { d with busy := if ended then none else d.busy, held := d.held && !ended, stuck := d.stuck && !ended, queue := d.queue.filter fun t => !gone t }
  let s := if ended then
      { s with talus := { s.talus with reads := s.talus.reads.filter (fun x => x.mdie != m), data := s.talus.data.filter fun x => x.mdie != m } }
    else s
  s.mNext m

/-- Every unit stops issuing work of the steps in flight, and the crest ends without its finish check (R396). -/
def State.abortSteps (s : State) (d : DescRef) : State :=
  let s := (s.cores.map Prod.fst).foldl State.abortCore s
  let s := (List.range 12).foldl State.abortMdie s
  { s with
    steps := s.steps.map fun r => if r.flying then { r with aborting := true } else r,
    collectives := s.collectives.filter fun o => !s.inFlight o.step,
    crest := { s.crest with aborted := true, aborts := s.crest.aborts ++ [d] } }

/-- An ABORT: a crest that is late, whose scheduled end has passed, ends at once (R396). -/
def actAbort (s : State) (d : DescRef) : State :=
  if s.flight.isEmpty then s.complete d stDone
  else
    let s := (s.accept d).abortSteps d
    match s.crest.deferred with
    | some x => State.endDeferred { s with free := s.free + 1 } x (Config.lateness s.free).toNat
    | none => s

def checkRealign (s : State) (d : DescRef) : List (Bool × Nat) :=
  [(decide (d.f 64 64 ≤ s.crest.counter), stOutOfRange), (!bit s.crest.control 0, stWrongState)]

/-- Whether a clip factor lies outside 0 < f ≤ 1 (R392). -/
def badFactor (c : Nat) : Bool :=
  match f32 c with
  | .fin m _ => decide (m < 0) || Val.below .one (f32 c)
  | _ => true

def checkClip (s : State) (d : DescRef) : List (Bool × Nat) :=
  let g := d.f 128 6
  let soft := match s.group? g with
    | some x => x.software
    | none => false
  [(badFactor (d.f 160 32), stBadField), (s.plan.isNone, stNoPlan),
   (!s.inFlight (d.f 64 64) || !soft || (s.hostFactor (d.f 64 64) g).isSome, stWrongState)]

/-- An accepted factor (R391, R392); the non-deterministic flag voids determinism (R79). -/
def actClip (s : State) (d : DescRef) : State :=
  (s.updStep (d.f 64 64) fun r => { r with clips := r.clips ++ [⟨d.f 128 6, d.f 160 32⟩],
                                           voids := if bit d.bits 134 then r.voids ||| 4 else r.voids }).complete d stDone

/-- Whether the header of a free-page ring is illegal for a new producer (R308). -/
def State.badAdvance (s : State) (ring producer : Nat) : Bool :=
  let h := s.num ring 64
  let size := fld h 64 5
  s.stainedAt ring 64 || fld h 69 3 != 0 || fld h 80 432 != 0 || decide (size < 4) || decide (20 < size) ||
    decide (2 ^ size < (producer + 2 ^ 32 - fld h 32 32) % 2 ^ 32)

def checkRingAdvance (s : State) (d : DescRef) : List (Bool × Nat) :=
  let a := d.f 64 48
  let there := decide (a < stackView) && s.reachable a 64
  let n := d.f 192 64
  [(there && a % 64 == 0 && s.badAdvance a (d.f 128 32), stBadField), (!there, stOutOfRange), (a % 64 != 0, stMisaligned), (s.plan.isNone, stNoPlan),
   (decide (n ≤ s.store.committed) || (s.inFlight n && s.begun n), stWrongState)]

/-! ### Tables (R359, R421, R442, R460) -/

/-- Entry of a shard-map image for a bucket tag. -/
def State.shardAt (s : State) (a tag : Nat) : Nat := s.hostNum (a + 4 * tag) 4

/-- Whether a shard-map image breaks R359 to R361, R442 or R460. -/
def State.badShardMap (s : State) (p : Plan) (a : Nat) : Bool :=
  let owner (tag : Nat) : Option Nat := if bit (s.shardAt a tag) 31 then some (fld (s.shardAt a tag) 0 17) else none
  ((List.range 65536).any fun t => fld (s.shardAt a t) 17 14 != 0 || (match owner t with
    | some r => rankOld (s.rankEntry 0 r)
    | none => false)) ||
  (p.buckets.any fun b => owner b.tag != s.ownRank || s.ownRank.isNone) ||
  p.sends.any fun x => match p.apertures.getD x.2 .unbound with
    | .rank r => owner x.1 != some r
    | _ => false

def checkShardMap (s : State) (d : DescRef) : List (Bool × Nat) :=
  let a := d.f 64 64
  let bad := match s.plan with
    | some p => a % 4096 == 0 && !s.hostError a 262144 && s.badShardMap p a
    | none => false
  [(bad, stBadField), (s.hostError a 262144, stOutOfRange), (a % 4096 != 0, stMisaligned), (s.plan.isNone, stNoPlan),
   (!s.flight.isEmpty, stWrongState)]

def actShardMap (s : State) (d : DescRef) : State :=
  let a := d.f 64 64
  let m := (List.range 65536).filterMap fun t => if s.shardAt a t = 0 then none else some (t, s.shardAt a t)
  State.complete { s.rewriteTables TableWord.isShard with store := { s.store with shardMap := true, shard := m } } d stDone

/-- Entry of a rank-table image. -/
def State.rankImage (s : State) (a r : Nat) : Nat := s.hostNum (a + 8 * r) 8

/-- Whether one entry of a rank-table image is refused (R421). -/
def badRankEntry (own e : Nat) : Bool :=
  badAddress (rankAddress e) || (rankOwn e && rankAddress e != own) || (rankValid e && fld e 22 8 == 0) || fld e 30 2 != 0 || fld e 48 16 != 0

/-- Whether a rank-table image is refused. -/
def State.badRankTable (s : State) (a : Nat) : Bool :=
  ((List.range 131072).any fun r => badRankEntry s.address (s.rankImage a r)) ||
    decide (1 < ((List.range 131072).filter fun r => rankOwn (s.rankImage a r)).length)

def checkRankTable (s : State) (d : DescRef) : List (Bool × Nat) :=
  let a := d.f 64 64
  [(a % 4096 == 0 && !s.hostError a 1048576 && s.badRankTable a, stBadField), (s.hostError a 1048576, stOutOfRange),
   (a % 4096 != 0, stMisaligned), (s.plan.isSome, stWrongState)]

/-- RANK_TABLE: L-dies that REST or DORMANT has switched off take no copy (R517), so that the copies stay to be loaded. -/
def actRankTable (s : State) (d : DescRef) : State :=
  let a := d.f 64 64
  let t := (List.range 131072).filterMap fun r => if s.rankImage a r = 0 then none else some (r, s.rankImage a r)
  if s.diesActive then
    State.complete { s.rewriteTables TableWord.isRank with fabric := { s.fabric with ranks := [t, t, t, t], stale := false } } d stDone
  else s.complete d stDone

def checkRankMove (s : State) (d : DescRef) : List (Bool × Nat) :=
  [(badAddress (d.f 96 18), stBadField), (!rankValid (s.rankEntry 0 (d.f 64 17)), stOutOfRange), (s.plan.isNone, stNoPlan)]

/-- A rank move begins with the query of the new module's identity (R438). -/
def actRankMove (s : State) (d : DescRef) : State :=
  let q := s.fabric.queryNumber
  let s := s.accept d
  let m : RankMoveRun := { desc := d, rank := d.f 64 17, addr := d.f 96 18, query := q, sent := false, entry := 0, number := 0, applied := 0 }
  let f := { s.fabric with queryNumber := (q + 1) % 2 ^ 32, moves := s.fabric.moves ++ [m] }
  State.sendAcked { s with fabric := f } 0x26 (d.f 96 18) (s.members.any fun e => rankAddress e.2 == d.f 96 18 && rankOld e.2) (leBytes 4 q)

def checkPeerLost (s : State) (d : DescRef) : List (Bool × Nat) :=
  [(s.ownRank == some (d.f 64 17), stBadField), (!rankValid (s.rankEntry 0 (d.f 64 17)), stOutOfRange)]

/-! ### Parameters (R374, R376, R460, R461, R499) -/

def checkParam (s : State) (d : DescRef) : List (Bool × Nat) :=
  let item := d.f 80 3
  let range := match s.paramBucket d with
    | some (_, b, _) => decide (b.len < d.f 96 32 + d.f 128 32 + 1)
    | none => true
  let absent := match s.paramBucket d with
    | some (_, _, g) => item == 3 && !g.second
    | none => false
  [(decide (5 < item) || absent, stBadField), (decide (item < 5) && range, stOutOfRange), (d.f 192 64 % 64 != 0, stMisaligned),
   (s.plan.isNone || (d.kind == 0x0B && !s.store.shardMap), stNoPlan), (!s.flight.isEmpty, stWrongState)]

/-- The table words that a parameter descriptor uses (R500). -/
def State.paramTables (s : State) (d : DescRef) : List TableWord :=
  match s.paramBucket d with
  | some (_, b, _) => if d.f 80 3 = 5 then [] else [.bucket b.tag, .group b.group, .shard b.tag]
  | none => []

/-- What one host unit of a PARAM_LOAD writes: k bytes at offset u. Item 5 writes the committed step counter as R460 says, which R602, naming
COMMIT and RESTORE alone as what changes COMMITTED_STEP, leaves out (DESIGN CHOICE, log 88). -/
def State.paramWrite (s : State) (d : DescRef) (u : Nat) (bs : List Byte) : State :=
  let x := leNat bs
  match d.f 80 3 with
  | 5 => { s with store := { s.store with committed := x } }
  | 4 => match s.paramBucket d with
    | some (_, b, _) => s.setPowers s.store.bank b.group (fld x 0 32) (fld x 32 32)
    | none => s
  | _ => s.put 0 (s.paramAddr d + u) (clean bs)

/-- The host units of n bytes: offset and length of each. -/
def units64 (n : Nat) : List (Nat × Nat) := (List.range (cdiv n 64)).map fun i => (64 * i, min 64 (n - 64 * i))

/-- PARAM_LOAD: a unit whose host read completes with an error is not written (R499), and no unit where a table word that it uses is
uncorrectable (R500). -/
def actParamLoad (s : State) (d : DescRef) : State :=
  let h := d.f 192 64
  let ws := s.paramTables d
  let stop := s.tableBad ws
  let s := if stop then (s.noteTables ws).markOldest else s.noteTables ws
  let (s', bad) := (units64 (paramBytes d)).foldl (fun (acc : State × Nat) (u, k) =>
    if stop then (acc.1, acc.2 + 1)
    else if acc.1.hostError (h + u) k then (acc.1.linkError 4 0 noStep (h + u), acc.2 + 1)
    else (acc.1.paramWrite d u (acc.1.hostBytes (h + u) k), acc.2)) (s, 0)
  s'.completeWith d stDone (completionExtra false 0 0 (bad != 0)) bad

/-! ### Memory (R461, R494, R506, R510–R512) -/

/-- Whether a range of device memory is one that COPY and FILL may name (R45, R48). -/
def State.copyable (s : State) (a n : Nat) : Bool := decide (a < fabricBase) && s.reachable a n

def checkCopyDesc (s : State) (d : DescRef) : List (Bool × Nat) :=
  [(d.f 192 32 == 0, stBadField), (!s.copyable (d.f 80 48) (d.f 192 32), stOutOfRange),
   (d.f 80 48 % 64 != 0 || d.f 128 64 % 64 != 0 || d.f 192 32 % 64 != 0, stMisaligned)]

def checkFillDesc (s : State) (d : DescRef) : List (Bool × Nat) :=
  [(d.f 128 48 == 0, stBadField), (!s.copyable (d.f 64 48) (d.f 128 48), stOutOfRange),
   (d.f 64 48 % 4096 != 0 || d.f 128 48 % 4096 != 0, stMisaligned), (s.resting, stWrongState)]

def checkSnapshot (s : State) (d : DescRef) : List (Bool × Nat) :=
  [(!rankValid (s.rankEntry 0 (d.f 64 17)), stOutOfRange), (d.f 128 48 % 4096 != 0, stMisaligned), (s.plan.isNone, stNoPlan),
   (decide (d.f 192 64 ≤ s.store.committed), stWrongState)]

/-- An accepted SNAPSHOT: the module arrives at the barrier by which the members agree on its boundary (R436), once for a step. -/
def actSnapshot (s : State) (d : DescRef) : State :=
  let step := d.f 192 64
  let other := s.snaps.runs.find? fun x => x.step == step
  let r : SnapRun := { desc := d, step := step, rank := d.f 64 17, area := d.f 128 48, image := none, agreed := other.any SnapRun.agreed }
  let s : State := { s.accept d with snaps := { s.snaps with runs := s.snaps.runs ++ [r] } }
  if other.isSome then s else s.arrive snapBarrier step

/-- The checks of RESTORE; like PARAM_LOAD, it needs the shard map (R475, R617). -/
def checkRestore (s : State) (d : DescRef) : List (Bool × Nat) :=
  [(!rankValid (s.rankEntry 0 (d.f 64 17)), stOutOfRange), (d.f 128 48 % 4096 != 0, stMisaligned),
   (s.plan.isNone || !s.store.shardMap, stNoPlan),
   (!s.flight.isEmpty, stWrongState)]

/-- RESTORE: staged for the next boundary, or refused with event 0x26 (R511, R512). -/
def actRestore (s : State) (d : DescRef) : State :=
  match s.plan with
  | none => s.complete d stNoPlan
  | some p =>
    let r := s.stageRestore p (d.f 64 17) (d.f 128 48) (d.f 192 64)
    let s := { s with free := s.free + 1 }
    let own := s.ownRank == some (d.f 64 17)
    let read := if (s.checkHeader p (d.f 192 64) (leNat ((s.areaBytes own (d.f 128 48) 0 4096).map Prod.fst))).isSome then 4096 else s.restoreBytes
    let s := if own then s.noteRead (d.f 128 48) read else s
    match r with
    | .error e => (s.event 0x26 4 0 (d.f 192 64) (e.reason + (e.offset % 2 ^ 48) <<< 4)).complete d e.status
    | .ok data =>
      let s := s.atBoundary d (.restore d)
      { s with snaps := { s.snaps with staged := s.snaps.staged ++ [⟨d, data⟩] } }

def checkRepair (s : State) (d : DescRef) : List (Bool × Nat) :=
  [(decide (11 < d.f 64 4), stBadField), (decide (s.code.stackBytes ≤ d.f 80 48), stOutOfRange), (s.plan.isSome, stWrongState)]

/-! ### Talus (R347, R348, R442) -/

def checkLend (s : State) (d : DescRef) : List (Bool × Nat) :=
  let base := d.f 80 48
  let size := d.f 128 48
  [(size == 0 || badAddress (d.f 192 18), stBadField), (decide (12 * s.code.stackBytes < base + size), stOutOfRange),
   (base % 4096 != 0, stMisaligned), (s.plan.isSome || s.talus.windows.any fun w => w.window == d.f 64 5, stWrongState)]

def actLend (s : State) (d : DescRef) : State :=
  State.complete { s with talus := { s.talus with windows := s.talus.windows ++ [⟨d.f 64 5, d.f 80 48, d.f 128 48, d.f 192 18⟩] } } d stDone

/-- TALUS_END: no access is in progress between commands, so the windows are withdrawn at once. -/
def actEnd (s : State) (d : DescRef) : State :=
  State.complete { s with talus := { s.talus with windows := s.talus.windows.filter fun w => !bit d.bits (64 + w.window) } } d stDone

def checkBind (s : State) (d : DescRef) : List (Bool × Nat) :=
  [(badAddress (d.f 64 18) || (s.members.any fun e => rankOld e.2 && rankAddress e.2 == d.f 64 18), stBadField), (s.plan.isNone, stNoPlan),
   (s.talus.bound.isSome, stWrongState)]

/-! ### Power, hot plug, firmware (R484, R485, R519, R521, R561, R567) -/

def checkPower (s : State) (d : DescRef) : List (Bool × Nat) :=
  [(decide (4 < d.f 64 3), stBadField), (s.powerForbidden (d.f 64 3) || s.power.hot != .ready, stWrongState)]

def checkQuiesce (s : State) (_ : DescRef) : List (Bool × Nat) :=
  [(s.plan.isSome || !s.talus.windows.isEmpty || s.talus.bound.isSome || s.power.quiesce.isSome || s.power.hot != .ready, stWrongState)]

/-- An accepted QUIESCE: the module enters QUIESCING and stops fetching (R485). -/
def actQuiesce (s : State) (d : DescRef) : State :=
  let s := (s.accept d).setHot .quiescing
  { s with power := { s.power with quiesce := some d } }

def checkFirmware (s : State) (d : DescRef) : List (Bool × Nat) :=
  [(d.f 128 32 == 0 || decide (2 ^ 24 < d.f 128 32), stBadField), (d.f 64 64 % 4096 != 0, stMisaligned), (s.plan.isSome, stWrongState)]

/-- An accepted FIRMWARE takes its turn with Cairn (R561). -/
def actFirmware (s : State) (d : DescRef) : State :=
  let s := s.accept d
  { s with cairn := { s.cairn with queue := s.cairn.queue ++ [.firmware d] } }

/-! ### Descriptors that waited for what their traffic reaches (R38, R455, R493, R544) -/

/-- An accepted descriptor acts after its wait; a check that does not hold any more completes it with that status (log 90). -/
def State.actLater (s : State) (check : State → DescRef → List (Bool × Nat)) (act : State → DescRef → State) (d : DescRef) : State :=
  let s' : State := { s with descs := s.descs.erase d }
  match firstOf (check s' d) with
  | some st => s.complete d st
  | none => act s' d

/-- The kinds that may wait so. -/
def heldKinds : List Nat := [0x01, 0x09, 0x0B, 0x10]

/-- What one of them does then. -/
def State.heldWork (s : State) (d : DescRef) : State :=
  match d.kind with
  | 0x01 => s.actLater checkPlanLoad actPlanLoad d
  | 0x09 => s.actLater checkRankTable actRankTable d
  | 0x0B => s.actLater checkParam actParamLoad d
  | _ => s.actLater checkRestore actRestore d

/-! ### Rows -/

/-- PLAN_LOAD (R459, R460, R469). -/
def execPlanLoad (r : BitVec 4) (d : Desc) (s : State) : Host.Outcome State Fault Refusal :=
  performDesc 0x01 checkPlanLoad actPlanLoad r d s

/-- PLAN_UNLOAD (R459). -/
def execPlanUnload (r : BitVec 4) (d : Desc) (s : State) : Host.Outcome State Fault Refusal :=
  performDesc 0x02 checkPlanUnload (fun s x => s.atBoundary x (.unload x)) r d s

/-- STEP (R69, R118, R460, R521). -/
def execStep (r : BitVec 4) (d : Desc) (s : State) : Host.Outcome State Fault Refusal := performDesc 0x03 checkStep actStep r d s

/-- ABORT (R396). -/
def execAbort (r : BitVec 4) (d : Desc) (s : State) : Host.Outcome State Fault Refusal :=
  performDesc 0x04 (fun s _ => [(s.plan.isNone, stNoPlan)]) actAbort r d s

/-- REALIGN (R65). -/
def execRealign (r : BitVec 4) (d : Desc) (s : State) : Host.Outcome State Fault Refusal :=
  performDesc 0x05 checkRealign (fun s x => s.atBoundary x (.realign (x.f 64 64) x)) r d s

/-- CLIP_FACTOR (R391, R392). -/
def execClipFactor (r : BitVec 4) (d : Desc) (s : State) : Host.Outcome State Fault Refusal := performDesc 0x06 checkClip actClip r d s

/-- RING_ADVANCE (R308, R309). -/
def execRingAdvance (r : BitVec 4) (d : Desc) (s : State) : Host.Outcome State Fault Refusal :=
  performDesc 0x07 checkRingAdvance (fun s x => s.atBoundary x (.ringAdvance (x.f 64 48) (x.f 128 32) (x.f 192 64) x)) r d s

/-- SHARD_MAP (R359, R460). -/
def execShardMap (r : BitVec 4) (d : Desc) (s : State) : Host.Outcome State Fault Refusal := performDesc 0x08 checkShardMap actShardMap r d s

/-- RANK_TABLE (R421). -/
def execRankTable (r : BitVec 4) (d : Desc) (s : State) : Host.Outcome State Fault Refusal := performDesc 0x09 checkRankTable actRankTable r d s

/-- RANK_MOVE (R438, R439). -/
def execRankMove (r : BitVec 4) (d : Desc) (s : State) : Host.Outcome State Fault Refusal := performDesc 0x0A checkRankMove actRankMove r d s

/-- PARAM_LOAD (R376, R460, R499). -/
def execParamLoad (r : BitVec 4) (d : Desc) (s : State) : Host.Outcome State Fault Refusal := performDesc 0x0B checkParam actParamLoad r d s

/-- PARAM_READ (R376, R460, R461): the host writes are made when its work is done. -/
def execParamRead (r : BitVec 4) (d : Desc) (s : State) : Host.Outcome State Fault Refusal := performDesc 0x0C checkParam State.accept r d s

/-- COPY as a descriptor (R460, R461). -/
def execCopyDescriptor (r : BitVec 4) (d : Desc) (s : State) : Host.Outcome State Fault Refusal := performDesc 0x0D checkCopyDesc State.accept r d s

/-- FILL as a descriptor (R460, R494). -/
def execFillDescriptor (r : BitVec 4) (d : Desc) (s : State) : Host.Outcome State Fault Refusal := performDesc 0x0E checkFillDesc State.accept r d s

/-- SNAPSHOT (R460, R510). -/
def execSnapshot (r : BitVec 4) (d : Desc) (s : State) : Host.Outcome State Fault Refusal := performDesc 0x0F checkSnapshot actSnapshot r d s

/-- RESTORE (R460, R511, R512). -/
def execRestore (r : BitVec 4) (d : Desc) (s : State) : Host.Outcome State Fault Refusal := performDesc 0x10 checkRestore actRestore r d s

/-- TALUS_LEND (R347, R460). -/
def execTalusLend (r : BitVec 4) (d : Desc) (s : State) : Host.Outcome State Fault Refusal := performDesc 0x11 checkLend actLend r d s

/-- TALUS_END (R347, R460). -/
def execTalusEnd (r : BitVec 4) (d : Desc) (s : State) : Host.Outcome State Fault Refusal :=
  performDesc 0x12 (fun _ x => [(x.f 64 32 == 0, stBadField)]) actEnd r d s

/-- TALUS_BIND (R348, R460). -/
def execTalusBind (r : BitVec 4) (d : Desc) (s : State) : Host.Outcome State Fault Refusal :=
  performDesc 0x13 checkBind (fun s x => s.atBoundary x (.talusBind (x.f 64 18) x)) r d s

/-- TALUS_REVOKE (R348). -/
def execTalusRevoke (r : BitVec 4) (d : Desc) (s : State) : Host.Outcome State Fault Refusal :=
  performDesc 0x14 (fun s _ => [(s.plan.isNone, stNoPlan)]) (fun s x => s.atBoundary x (.talusRevoke x)) r d s

/-- POWER_STATE (R519, R521). -/
def execPowerState (r : BitVec 4) (d : Desc) (s : State) : Host.Outcome State Fault Refusal :=
  performDesc 0x15 checkPower (fun s x => s.atBoundary x (.power (x.f 64 3) x)) r d s

/-- QUIESCE (R484, R485). -/
def execQuiesce (r : BitVec 4) (d : Desc) (s : State) : Host.Outcome State Fault Refusal := performDesc 0x16 checkQuiesce actQuiesce r d s

/-- HBM_REPAIR (R460, R506): the repair is made when its work is done. -/
def execHbmRepair (r : BitVec 4) (d : Desc) (s : State) : Host.Outcome State Fault Refusal := performDesc 0x17 checkRepair State.accept r d s

/-- FIRMWARE (R460, R561, R567): the image is staged when its work is done. -/
def execFirmware (r : BitVec 4) (d : Desc) (s : State) : Host.Outcome State Fault Refusal := performDesc 0x18 checkFirmware actFirmware r d s

/-- PEER_LOST (R425). -/
def execPeerLost (r : BitVec 4) (d : Desc) (s : State) : Host.Outcome State Fault Refusal :=
  performDesc 0x19 checkPeerLost (fun s x => s.atBoundary x (.peerLost (x.f 64 17) x)) r d s

end Sys2Proof.Machine
end

