-- ==== Sys2Proof/Machine/PacketRows.lean ====
section
/-! DEFINITION. What each packet does at this module once it is received (R347–R350, R365, R406–R414, R422–R424, R428–R431, R437–R439,
R511, R628). -/

namespace Sys2Proof.Machine

/-! ### Receiving a packet (R402, R406, R407, R413) -/

/-- A packet has left a port's receive buffer: its credits return to the partner, whatever becomes of it (R415, R419). -/
def State.takeIn (s : State) (p : Nat) (k : Packet) : State :=
  let q := s.port p
  if q.state ≠ .active then s else s.setPort p { q with returned := q.returned.modify k.vc fun n => n + packetCredits k, marks := [] }

/-- A packet has been acted on: it has left the receive buffer, but for one whose access waits there, with the buffer's words (R415, R489). -/
def State.settle (old s : State) (p : Nat) (k : Packet) : State :=
  if s.fabric.blocked.length ≤ old.fabric.blocked.length then s.takeIn p k
  else
    let b := s.fabric.blocked.modify (s.fabric.blocked.length - 1) fun b => { b with port := some p }
    State.setPort { s with fabric := { s.fabric with blocked := b } } p { s.port p with marks := [] }

/-- Bytes of a packet before its payload (R409). -/
def preludeBytes (k : Packet) : Nat := 32 + (if k.vc == 0 then 0 else if k.format == 1 then 40 else 48)

/-- A packet read from the buffers of an L-die (R489, R503): the counts, and the packet with the payload words that read stained; none where a
word of its headers does, which makes it corrupt. A control packet has no stain mask: a stained word of its body counts as a failed
end-to-end CRC (log 78). -/
def State.readBuffer (s : State) (l : Nat) (marks : SMap Mark) (k : Packet) : State × Option Packet :=
  let s' := marks.foldl (fun s (i, m) => s.countRead (20 + l) 6 3 l (8 * i) m) s
  let bad := (marks.filter fun x => x.2.stained).map fun x => 8 * x.1
  let unit := if k.body.length ≤ 1024 then 8 else 32
  let mask := bad.foldl (fun m a => if preludeBytes k ≤ a then m ||| 1 <<< ((a - preludeBytes k) / unit) else m) (fld k.step.toNat 192 128)
  if bad.any fun a => decide (a < preludeBytes k) then (s', none)
  else if bad.isEmpty then (s', some k)
  else if k.vc == 0 then (s', some { k with crc := ~~~ (BitVec.ofNat 32 (crc32 (crcBytes k))) })
  else (s', some { k with step := BitVec.ofNat 384 (setFld k.step.toNat 192 128 mask) })

/-- A packet as the receiving L-die reads it from its receive buffer and checks it (R406, R413, R489): none where it drops it, else the packet
and whether every payload word is stained. -/
def State.arriving (s : State) (p : Nat) (k : Packet) : State × Option (Packet × Bool) :=
  match s.readBuffer (portDie p) (s.port p).marks k with
  | (s', none) => ((s'.crcEvent p (k.source + 1 <<< 18)).markOldest, none)
  | (s', some k') =>
    let (t, r) := s'.inspect p (if k.vc == 0 then k' else k)
    (t, r.map fun all => (k', all))

/-- A packet row: a port that is not ACTIVE receives nothing; a packet that the L-die drops has no further effect; a good packet of
another type is no command of this row. -/
def receive (type : Nat) (act : State → Nat → Packet → Bool → State) (p : BitVec 5) (k : Packet) (s : State) :
    Host.Outcome State Fault Refusal :=
  if (s.port p.toNat).state ≠ .active then .next s
  else match s.arriving p.toNat k with
    | (s', none) => .next (s'.takeIn p.toNat k)
    | (s', some (k', all)) =>
      if k.type != type then .refused .illFormed else .next (s'.settle (act s' (portDie p.toNat) k' all) p.toNat k)

/-- A packet of an acknowledged type (R407): every copy is acknowledged, the first is acted on. -/
def State.onFirst (s : State) (k : Packet) (act : State → State) : State :=
  let n := bodyNum k 0 4
  let s' := s.sendPlain 0x29 k.source (s.fromOld 0 k) (leBytes 4 n)
  if s.fabric.seen.contains (k.source, n) then s'
  else act { s' with fabric := { s'.fabric with seen := s'.fabric.seen ++ [(k.source, n)] } }

/-! ### Talus accesses at the lender (R347) -/

/-- Why a lender refuses an access of n bytes at a packet's target offset (R347, R411): 0 no window is lent to the sender, 1 it lies
outside the windows; none where it serves it. -/
def State.talusReason (s : State) (k : Packet) (n : Nat) : Option Nat :=
  let mine := s.talus.windows.filter fun w => w.borrower == k.source
  if mine.isEmpty then some 0
  else if mine.any fun w => decide (w.base ≤ k.target) && decide (k.target + n ≤ w.base + w.size) then none
  else some 1

/-- An answer to a talus access: its transfer and target, and a step header (R347, R411). -/
def State.talusAnswer (s : State) (l : Nat) (k : Packet) (type step : Nat) (bs : List (Byte × Bool)) : State :=
  let o : Outgoing := { type := type, address := k.source, transfer := k.transfer, target := k.target, length := bs.length }
  s.emit (sealPacket (s.makePacket o bs).h step (bs.map Prod.fst)) l

/-- An access refused: the event, and the refusal with the step header of the access (R347, R411). -/
def State.refuseTalus (s : State) (l : Nat) (k : Packet) (reason : Nat) : State :=
  (s.lEvent 0x14 l (fld k.step.toNat 0 64) k.source).talusAnswer l k 0x07 k.step.toNat
    ((leBytes 8 (reason + k.target <<< 8)).map fun b => (b, false))

/-- A talus read at the lender. A length that the type does not allow lies outside every window. -/
def State.serveRead (s : State) (l : Nat) (k : Packet) (all : Bool) : State :=
  let n := bodyNum k 0 4
  let bad := decide (n < 8) || decide (4096 < n) || n % 8 != 0 || bodyNum k 4 4 != 0
  match s.talusReason k n with
  | some r => s.refuseTalus l k r
  | none =>
    if bad then s.refuseTalus l k 1
    else if s.fabricHeld l k.target n then s.block l k all
    else
      let bs := (s.load k.target n).map fun b => (b.1, b.2 || all)
      (s.noteRead k.target n).talusAnswer l k 0x05 (setFld k.step.toNat 192 128 (stainMask bs)) bs

/-- A talus write at the lender. -/
def State.serveWrite (s : State) (l : Nat) (k : Packet) (all : Bool) : State :=
  match s.talusReason k k.body.length with
  | some r => s.refuseTalus l k r
  | none => if s.fabricHeld l k.target k.body.length then s.block l k all else (s.put (transferWriter k.source k.transfer) k.target (k.payload all)).land k

/-! ### Answers at the borrower (R344, R349, R350) -/

/-- The reply to a read of a FETCH: with the last reply of its word the FETCH delivers. -/
def State.takeReply (s : State) (_ : Nat) (k : Packet) (all : Bool) : State :=
  match s.talus.reads.find? fun r => r.transfer == k.transfer, s.talus.bound == some k.source with
  | some r, true =>
    let d : TalusData := ⟨r.mdie, r.block, (k.payload all).take r.bytes⟩
    let s := { s with talus := { s.talus with reads := s.talus.reads.erase r, data := s.talus.data ++ [d] } }
    if s.talus.reads.any fun x => x.mdie == r.mdie then s
    else match (s.mdie r.mdie).busy with
      | some t => (match s.codecEntry r.mdie t with
        | some e => s.deliverTalus e r.mdie r.entry r.step (mFirst t.word) (mCount t.word)
        | none => s)
      | none => s
  | _, _ => s

/-- The talus entries whose access a refusal names: by the read's transfer, else by the place of the target in the aperture. -/
def State.refusedEntries (s : State) (k : Packet) : List Nat :=
  match s.talus.reads.find? fun r => r.transfer == k.transfer with
  | some r => [r.entry]
  | none =>
    let off := bodyNum k 1 5
    let hit (x : ActEntry × Nat) : Bool :=
      x.1.policy == 2 && x.1.talus && decide (x.1.copyBase % 2 ^ 40 ≤ off) && decide (off < x.1.copyBase % 2 ^ 40 + x.1.capacity)
    match s.plan with
    | some p => (p.acts.zipIdx.filter hit).map Prod.snd
    | none => []

/-- A talus refusal at the borrower (R349): the talus counts as revoked, the entry is unavailable in the access's step. -/
def State.takeRefusal (s : State) (_ : Nat) (k : Packet) (_ : Bool) : State :=
  if s.talus.bound != some k.source then s
  else
    let n := fld k.step.toNat 0 64
    let es := if s.inFlight n then s.refusedEntries k else []
    es.foldl (fun s e => s.makeUnavailable e n) s.loseTalus

/-! ### Collective data (R410, R431) -/

/-- Collective data: by multicast it is kept for its collective where this rank is a member, else dropped; by unicast it is written. -/
def State.takeCollective (s : State) (l : Nat) (k : Packet) (all : Bool) : State :=
  if k.span == 0 then s.receiveWrite l k all
  else match s.allCollectives[k.list]?, s.ownRank, s.members.find? fun e => rankAddress e.2 == k.source with
    | some c, some r, some (sender, _) =>
      if !c.members.contains r then s
      else
        let step := fld k.step.toNat 0 64
        let room := c.bytes - 4096 * k.index
        ((s.keepPart (CollPart.mk k.list step sender k.index ((k.payload all).take room))).land k).tryCollective k.list step
    | _, _, _ => s

/-! ### Beacons (R53, R65, R428–R430, R604) -/

/-- Units of 2⁻¹⁶/10 ns in a nanosecond: cable delays come in tenths (R610), a beacon's correction in 2⁻¹⁶ (R412). -/
def nsUnits : Int := 655360

/-- The time that a beacon has taken from the source: its correction and the cable delay of the receiving port (R429). -/
def State.beaconTransit (s : State) (p : Nat) (k : Packet) : Int := signed 64 (bodyNum k 20 8) * 10 + ((s.port p).delay : Int) * 65536

/-- The offset of the own boundary from the grid that a beacon gives: own time minus beacon time and transit (R429, R604). -/
def State.beaconOffset (s : State) (p : Nat) (k : Packet) : Int :=
  (Config.ownTime s.free).toNat * nsUnits - ((bodyNum k 12 8 : Int) * nsUnits + s.beaconTransit p k)

/-- The offset as CREST_STATUS gives it: in ns, saturating (R604). -/
def offsetField (u : Int) : Nat := unsigned 32 (max (-(2 ^ 31)) (min (2 ^ 31 - 1) (u / nsUnits)))

/-- The grid as a beacon fixes it for the crest state (R65, R429): the number of its first boundary after the module's last one, and by how
much that one lay behind the grid. The beacon's boundary lies before the module's last boundary, or at it, where the offset is within ±10 ns or
is no longer than the beacon has been on its way. While a boundary is late or a realign waits, the grid goes on from what was known. -/
def CrestState.fixGrid (c : CrestState) (number period : Nat) (near : Bool) (off transit : Int) : CrestState :=
  let past := near || (decide (0 ≤ off) && decide (off ≤ transit))
  if (c.deferred.isSome || c.waiting.isSome) && c.grid.isSome then { c with seen := some number, gridPeriod := some period }
  else { c with grid := some ((number + b2n past) % 2 ^ 64), seen := some number, gridPeriod := some period,
                phase := if near then 0 else (off / nsUnits % (max 1 period : Nat)).toNat }

/-- A beacon: that of another source than the crest block names is ignored; after a slip it steers nothing until a realign (R60). -/
def State.takeBeacon (s : State) (p : Nat) (k : Packet) : State :=
  let cr := s.crest
  if !(bit cr.control 1 && fld cr.control 2 18 == k.source) then s
  else
    let off := s.beaconOffset p k
    let align := bit cr.control 0
    let same := bodyNum k 28 4 == cr.period
    let near := decide (off.natAbs ≤ 10 * nsUnits.natAbs)
    let good := if align && same && near then min 4 (cr.good + 1) else 0
    { s with
      free := s.free + 1,
      crest := { (if align then cr.fixGrid (bodyNum k 4 8) (bodyNum k 28 4) near off (s.beaconTransit p k) else cr) with
        beacons := true, offset := offsetField off, good := good, aligned := cr.aligned && same,
        locking := align && same && !cr.slipped && (cr.locking || (good == 4 && !cr.aligned)) } }

/-! ### Barriers (R412) -/

/-- Barrier arrivals, as the switches combine them, count toward the release of a barrier that this module is a member of. -/
def State.takeArrivals (s : State) (_ : Nat) (k : Packet) (_ : Bool) : State :=
  let number := bodyNum k 4 4
  let step := bodyNum k 8 8
  if s.inBarrier number step then s.countArrivals number step (bodyNum k 16 4) (bodyNum k 20 4) else s

/-- A barrier's release at a member that has arrived. -/
def State.takeRelease (s : State) (_ : Nat) (k : Packet) (_ : Bool) : State :=
  let number := bodyNum k 4 4
  let step := bodyNum k 8 8
  if (s.barrier number step).arrived then s.releaseBarrier number step else s

/-! ### Verdict tree (R386, R387) -/

/-- The 64 binary32 values at a place of a body. -/
def bodyWords (k : Packet) (a : Nat) : List Nat := (List.range 64).map fun g => bodyNum k (a + 4 * g) 4

/-- A verdict contribution: a right child's value joins the tree at the member that forms its left sibling. -/
def State.countBallot (k : Packet) (s : State) : State :=
  let n := max 1 s.voters.length
  let level := bodyNum k 15 1
  let i := bodyNum k 16 4
  let bits := bodyNum k 14 1
  let round := bodyNum k 13 1
  let sums := if round == 0 then bodyWords k 32 else List.replicate 64 0
  if i % 2 == 1 && decide (level < 40) && decide (i < levelWidth n level) then
    State.joinBallot (bodyNum k 4 8) (bodyNum k 12 1) round n 40 s level i false ⟨bit bits 0, bit bits 1, sums⟩
  else s

/-- A verdict at a member. -/
def State.countVerdict (k : Packet) (s : State) : State :=
  s.takeVerdict (bodyNum k 4 8) ⟨bodyNum k 12 1, bodyNum k 13 1, bodyNum k 14 1, bodyWords k 32, bodyWords k 288⟩ (some k)

/-! ### Rank moves (R438, R439) -/

/-- The barrier number of a rank move. -/
def moveBarrier (initiator number : Nat) : Nat := (initiator % 2 ^ 18) <<< 14 + number % 2 ^ 14

/-- A broadcast entry: written at order 4 of the next boundary. -/
def State.noteMove (k : Packet) (s : State) : State :=
  let a := bodyNum k 16 4 % 2 ^ 18
  let c := BoundaryCmd.rankEntry (bodyNum k 4 4 % 2 ^ 17) (bodyNum k 8 8) a (moveBarrier a (bodyNum k 20 4))
  { s with crest := { s.crest with cmds := s.crest.cmds ++ [c] } }

/-- Body of an identity reply from byte 4 on (R412). -/
def State.identityBody (s : State) (query : Nat) : List Byte :=
  let digest := match s.plan with
    | some p => p.digest % 2 ^ 64
    | none => 0
  leBytes 4 query ++ leBytes 1 s.power.hot.code ++ leBytes 1 s.power.state.code ++ leBytes 1 (b2n s.plan.isSome) ++ leBytes 1 0 ++
    leBytes 2 s.cairn.runTag ++ leBytes 2 0 ++ leBytes 8 digest ++ leBytes 4 s.address ++ leBytes 4 0

/-- An identity query is answered. -/
def State.answerQuery (k : Packet) (s : State) : State := s.sendAcked 0x27 k.source (s.fromOld 0 k) (s.identityBody (bodyNum k 4 4))

/-- Whether a module that replied may take a rank (R438): READY, the rank's recorded numerics tag, this module's own plan. -/
def State.mayTake (s : State) (m : RankMoveRun) (k : Packet) : Bool :=
  bodyNum k 8 1 == HotPlug.ready.code && bodyNum k 12 2 == fld (s.rankEntry 0 m.rank) 32 16 && bodyNum k 10 1 == 1 &&
    (match s.plan with
      | some p => bodyNum k 16 8 == p.digest % 2 ^ 64
      | none => false)

/-- The new entry is broadcast to the members and sent to the new module, and waits here for the next boundary (R439). -/
def State.broadcastMove (s : State) (m : RankMoveRun) : State :=
  let n := s.fabric.moveNumber
  let old := s.rankEntry 0 m.rank
  let e := setFld (setFld (setFld old 0 18 m.addr) 20 1 0) 21 1 0
  let body := leBytes 4 m.rank ++ leBytes 8 e ++ leBytes 4 s.address ++ leBytes 4 n ++ zeros 8
  let m' := { m with sent := true, entry := e, number := moveBarrier s.address n }
  let moves := s.fabric.moves.map fun x => if x = m then m' else x
  let c := BoundaryCmd.rankEntry m.rank e s.address (moveBarrier s.address n)
  let s' : State := { s with fabric := { s.fabric with moveNumber := (n + 1) % 2 ^ 32, moves := moves },
                             crest := { s.crest with cmds := s.crest.cmds ++ [c] } }
  let s'' := s'.broadcast 0x25 body
  if s'.peers.any (fun x => rankAddress x.2 == m.addr && !rankLost x.2) || m.addr == s.address then s''
  else s''.sendAcked 0x25 m.addr (rankOld old) body

/-- An identity reply at the initiator (R438). -/
def State.noteIdentity (k : Packet) (s : State) : State :=
  match s.fabric.moves.find? fun m => !m.sent && m.query == bodyNum k 4 4 && m.addr == k.source with
  | some m => if s.mayTake m k then s.broadcastMove m else s.dropMove m
  | none => s

/-! ### Reset, acknowledgement, unreachable notice (R407, R424, R437, R546) -/

/-- Whether a packet's sender is the reset authority. -/
def State.fromAuthority (s : State) (k : Packet) : Bool := bit s.fabric.resetAuthority 18 && fld s.fabric.resetAuthority 0 18 == k.source

/-- What the first copy of a packet of an acknowledged type does (R407). -/
def ackedAct (type : Nat) (k : Packet) (s : State) : State :=
  match type with
  | 0x23 => State.countBallot k s
  | 0x24 => State.countVerdict k s
  | 0x25 => State.noteMove k s
  | 0x26 => State.answerQuery k s
  | 0x27 => State.noteIdentity k s
  | _ => s.deviceReset

/-- A packet of an acknowledged type, acknowledged and acted on once. -/
def State.takeAcked (type : Nat) (s : State) (_ : Nat) (k : Packet) (_ : Bool) : State := s.onFirst k (ackedAct type k)

/-- A reset packet: only the reset authority's is acted on and acknowledged. -/
def State.takeReset (s : State) (l : Nat) (k : Packet) (_ : Bool) : State :=
  if s.fromAuthority k then s.onFirst k (ackedAct 0x28 k) else s.lEvent 0x12 l noStep k.source

/-- An acknowledgement: the packet is not sent again. -/
def State.takeAck (s : State) (_ : Nat) (k : Packet) (_ : Bool) : State :=
  let gone (u : Unacked) : Bool := u.seq == bodyNum k 4 4 && u.dest == k.source
  { s with fabric := { s.fabric with unacked := s.fabric.unacked.filter fun u => !gone u } }

/-! ### Rows -/

/-- BUCKET_PACKET (R365–R367, R406, R413, R419). -/
def execBucketPacket (p : BitVec 5) (k : Packet) (s : State) : Host.Outcome State Fault Refusal := receive 0x10 State.receiveBucket p k s

/-- FSEND_DATA (R406, R422, R423). -/
def execFsendData (p : BitVec 5) (k : Packet) (s : State) : Host.Outcome State Fault Refusal := receive 0x01 State.receiveWrite p k s

/-- GATHER_DATA (R410, R423, R628). -/
def execGatherData (p : BitVec 5) (k : Packet) (s : State) : Host.Outcome State Fault Refusal := receive 0x02 State.receiveWrite p k s

/-- OSTAGE_DATA (R365, R423, R628). -/
def execOstageData (p : BitVec 5) (k : Packet) (s : State) : Host.Outcome State Fault Refusal := receive 0x11 State.receiveOstage p k s

/-- SNAPSHOT_COPY (R423, R511). -/
def execSnapshotCopy (p : BitVec 5) (k : Packet) (s : State) : Host.Outcome State Fault Refusal := receive 0x03 State.receiveSnapshot p k s

/-- TALUS_READ_REQUEST (R347). -/
def execTalusReadRequest (p : BitVec 5) (k : Packet) (s : State) : Host.Outcome State Fault Refusal := receive 0x04 State.serveRead p k s

/-- TALUS_READ_REPLY (R344, R347). -/
def execTalusReadReply (p : BitVec 5) (k : Packet) (s : State) : Host.Outcome State Fault Refusal := receive 0x05 State.takeReply p k s

/-- TALUS_WRITE (R347). -/
def execTalusWrite (p : BitVec 5) (k : Packet) (s : State) : Host.Outcome State Fault Refusal := receive 0x06 State.serveWrite p k s

/-- TALUS_REFUSAL (R349). -/
def execTalusRefusal (p : BitVec 5) (k : Packet) (s : State) : Host.Outcome State Fault Refusal := receive 0x07 State.takeRefusal p k s

/-- COLLECTIVE_DATA (R410, R431, R432). -/
def execCollectiveData (p : BitVec 5) (k : Packet) (s : State) : Host.Outcome State Fault Refusal := receive 0x08 State.takeCollective p k s

/-- BEACON (R53, R428–R430, R604, R621). -/
def execBeacon (p : BitVec 5) (k : Packet) (s : State) : Host.Outcome State Fault Refusal := receive 0x20 (fun s _ k _ => s.takeBeacon p.toNat k) p k s

/-- BARRIER_ARRIVE (R412, R431). -/
def execBarrierArrive (p : BitVec 5) (k : Packet) (s : State) : Host.Outcome State Fault Refusal := receive 0x21 State.takeArrivals p k s

/-- BARRIER_RELEASE (R412, R439). -/
def execBarrierRelease (p : BitVec 5) (k : Packet) (s : State) : Host.Outcome State Fault Refusal := receive 0x22 State.takeRelease p k s

/-- VERDICT_CONTRIBUTION (R386, R387, R407). -/
def execVerdictContribution (p : BitVec 5) (k : Packet) (s : State) : Host.Outcome State Fault Refusal := receive 0x23 (State.takeAcked 0x23) p k s

/-- VERDICT (R387, R388, R407). -/
def execVerdict (p : BitVec 5) (k : Packet) (s : State) : Host.Outcome State Fault Refusal := receive 0x24 (State.takeAcked 0x24) p k s

/-- RANK_MOVE_PACKET (R439). -/
def execRankMovePacket (p : BitVec 5) (k : Packet) (s : State) : Host.Outcome State Fault Refusal := receive 0x25 (State.takeAcked 0x25) p k s

/-- IDENTITY_QUERY (R407, R412). -/
def execIdentityQuery (p : BitVec 5) (k : Packet) (s : State) : Host.Outcome State Fault Refusal := receive 0x26 (State.takeAcked 0x26) p k s

/-- IDENTITY_REPLY (R438, R439). -/
def execIdentityReply (p : BitVec 5) (k : Packet) (s : State) : Host.Outcome State Fault Refusal := receive 0x27 (State.takeAcked 0x27) p k s

/-- RESET_PACKET (R437, R546). -/
def execResetPacket (p : BitVec 5) (k : Packet) (s : State) : Host.Outcome State Fault Refusal := receive 0x28 State.takeReset p k s

/-- ACKNOWLEDGEMENT (R407). -/
def execAcknowledgement (p : BitVec 5) (k : Packet) (s : State) : Host.Outcome State Fault Refusal := receive 0x29 State.takeAck p k s

/-- UNREACHABLE_NOTICE (R350, R424, R438): the unreachable address stands in the source field. -/
def execUnreachableNotice (p : BitVec 5) (k : Packet) (s : State) : Host.Outcome State Fault Refusal :=
  receive 0x2A (fun s _ k _ => s.loseAddress k.source) p k s

/-- CONTROL_PACKET_RESEND (R407, R424, R438): after 16 sends the peer is lost, or the rank move that asked for an identity is refused. What
was sent to a lost rank is discarded. -/
def execControlPacketResend (seq : BitVec 32) (s : State) : Host.Outcome State Fault Refusal :=
  match s.fabric.unacked.find? fun u => u.seq == seq.toNat && s.diesActive with
  | none => .next s
  | some u =>
    let others := s.fabric.unacked.erase u
    let at' := s.members.filter fun e => rankAddress e.2 == u.dest
    let drop (s : State) : State := { s with fabric := { s.fabric with unacked := others } }
    if !at'.isEmpty && at'.all (fun e => rankLost e.2) && u.packet.type != 0x25 && u.packet.type != 0x26 then .next (drop s)
    else if u.sends < 16 then
      .next (State.emit { s with fabric := { s.fabric with unacked := { u with sends := u.sends + 1 } :: others } } u.packet)
    else if u.packet.type == 0x26 then
      .next (((drop s).fabric.moves.filter fun m => m.addr == u.dest && !m.sent && m.query == bodyNum u.packet 4 4).foldl State.dropMove (drop s))
    else .next ((drop s).loseAddress u.dest)

/-- A held packet read from its store (R489, R503). -/
def State.readHeld (s : State) (h : Held) : State × Option Packet := s.readBuffer h.ldie h.marks h.packet

/-- HELD_PACKET_RELEASE (R365, R387, R419): the oldest packet held in the L-die whose condition is met. One whose header reads
uncorrectable is dropped as one with a bad header CRC (R489). -/
def execHeldPacketRelease (l : BitVec 2) (s : State) : Host.Outcome State Fault Refusal :=
  match s.fabric.held.find? fun h => h.ldie == l.toNat && s.checkStep h.packet != .held with
  | none => .next s
  | some h =>
    let s' : State := { s with fabric := { s.fabric with held := s.fabric.held.erase h } }
    match s'.readHeld h with
    | (s'', none) => .next (s''.crcEvent (8 * l.toNat) (h.packet.source + 1 <<< 18)).markOldest
    | (s'', some k) => if h.packet.type == 0x10 then .next (s''.receiveBucket l.toNat k false) else .next (s''.receiveOstage l.toNat k false)

end Sys2Proof.Machine
end

