-- ==== Sys2Proof/Machine/PortUnit.lean ====
section
/-! DEFINITION. Ports and links: frames with their link words (R405, R408), the states of a port (R402–R404), beacon loss (R430), and
the package mesh (R32, R37, R38). -/

namespace Sys2Proof.Machine

/-! ### Frames (R408) -/

/-- Fields of a frame: sequence number, link word, packet data, CRC. -/
def frameSeq (f : Nat) : Nat := fld f 0 14
def frameLink (f : Nat) : Nat := fld f 16 16
def frameData (f : Nat) : List Byte := leBytes 248 (fld f 32 1984)
def frameCrc (f : Nat) : Nat := fld f 2016 32

/-- Whether a frame counts as one that failed its CRC: a credit return for VC 3 does. -/
def badFrame (f : Nat) : Bool :=
  crc32c (leBytes 252 (fld f 0 2016)) != frameCrc f || (fld (frameLink f) 0 2 == 0 && fld (frameLink f) 2 2 == 3)

/-- Frames and packets acknowledged up to a frame leave the replay buffer (R408). -/
def Port.acknowledge (k : Port) (n : Nat) : Port :=
  match k.replay.findIdx? fun f => f.1 == n with
  | none => k
  | some i =>
    let gone := (k.replay.take (i + 1)).map Prod.fst
    { k with replay := k.replay.drop (i + 1), flying := k.flying.filter fun x => !gone.contains x.1 }

/-- What the link word of a good frame does: credits come back, frames are acknowledged and released, or every frame from the one asked
for onward goes on the line again, in order. -/
def Port.linkWord (k : Port) (w : Nat) : Port :=
  match fld w 0 2 with
  | 0 => { k with inUse := k.inUse.modify (fld w 2 2) fun n => n - fld w 4 10 }
  | 1 => { k with acked := some (fld w 2 14) }.acknowledge (fld w 2 14)
  | 2 => { k with resend := some (fld w 2 14),
                  line := k.line ++ (k.replay.dropWhile fun f => f.1 != fld w 2 14).map Prod.fst }
  | _ => k

/-- Bytes of the packet that begins packet data (R409), from its fabric header. -/
def packetBytes (h : Nat) : Nat :=
  32 + (if fld h 42 2 == 1 || fld h 42 2 == 2 then (if fld h 44 4 == 1 then 40 else 48) else 0) + fld h 56 13 + 8

/-- Packet data without the whole packets it begins with: those go on to the L-die. -/
def restOfStream : Nat → List Byte → List Byte
  | 0, bs => bs
  | fuel + 1, bs =>
    if bs.length < 32 then bs
    else
      let n := packetBytes (leNat (bs.take 32))
      if bs.length < n then bs else restOfStream fuel (bs.drop n)

/-- A port enters FAULT: its packets use the remaining ACTIVE ports (R404, R405). -/
def State.faultPort (s : State) (p : Nat) : State :=
  let k := s.port p
  ((s.enterPort p { k with flying := [], replay := [] } .fault).reroute p k).retryCollectives

/-- Consecutive retries of one frame that may fail (R405). -/
def retryLimit : Nat := 16

/-- FRAME (R405, R408): a bad frame is asked for again, and 16 failed retries of the frame awaited take the port to FAULT; every frame
after a bad one is discarded until it has come; the link word and the packet data of a good frame in order are taken. A bad frame is a
retry of the frame awaited where its sequence field still says so. -/
def execFrame (p : BitVec 5) (frame : BitVec 2048) (s : State) : Host.Outcome State Fault Refusal :=
  let f := frame.toNat
  let k := s.port p.toNat
  if k.state ≠ .active then .next s
  else if badFrame f then
    let n := satAdd 32 (SMap.get 0 s.err.retries p.toNat) 1
    let fails := k.fails + b2n (k.retrying && frameSeq f == k.rxSeq)
    let s' : State := { s.setPort p.toNat { k with retrying := true, fails := fails } with
      err := { s.err with retries := SMap.set 0 s.err.retries p.toNat n } }
    .next (if retryLimit ≤ fails then s'.faultPort p.toNat else s')
  else if frameSeq f != k.rxSeq then .next s
  else
    let bs := k.stream ++ frameData f
    let k' := { k with rxSeq := (k.rxSeq + 1) % 16384, retrying := false, fails := 0, stream := restOfStream bs.length bs }
    .next (s.setPort p.toNat (k'.linkWord (frameLink f))).pump.retryCollectives

/-- FRAME_RETRY_EXHAUSTED (R404, R405): the port enters FAULT. -/
def execFrameRetryExhausted (p : BitVec 5) (s : State) : Host.Outcome State Fault Refusal :=
  if (s.port p.toNat).state ≠ .active then .next s else .next (s.faultPort p.toNat)

/-! ### Training (R402–R404, R429) -/

/-- PARTNER_DETECTED (R402, R403): the generation that the partner advertises as its highest is 2 or 3. -/
def execPartnerDetected (p : BitVec 5) (generation : BitVec 2) (s : State) : Host.Outcome State Fault Refusal :=
  let k := s.port p.toNat
  if generation.toNat < 2 then .refused .illFormed
  else if k.state ≠ .detect then .next s
  else .next (s.setPort p.toNat { k with state := .equalise, partner2 := generation.toNat == 2 })

/-- EQUALISE_DONE (R402, R403): lanes tuned, or a failure. The service processors tune them (R570). -/
def execEqualiseDone (p : BitVec 5) (tuned : Bool) (s : State) : Host.Outcome State Fault Refusal :=
  let k := s.port p.toNat
  if k.state ≠ .equalise ∨ s.processors = false then .next s
  else if tuned then .next (s.setPort p.toNat { k with state := .measure })
  else .next (s.enterPort p.toNat k .fault)

/-- MEASURE_DONE (R403, R404, R429): the round trip in ns, the one-way delay in 0.1 ns; the port is ACTIVE at the generation it trained. -/
def execMeasureDone (p : BitVec 5) (rtt delay : BitVec 16) (s : State) : Host.Outcome State Fault Refusal :=
  let k := s.port p.toNat
  if k.state ≠ .measure then .next s
  else
    let g := min (if k.partner2 then 2 else 3) k.capUsed
    .next (s.enterPort p.toNat { k with rtt := rtt.toNat, delay := delay.toNat, generation := g } .active).pump.retryCollectives

/-! ### Beacon loss (R430) -/

/-- BEACON_LOSS (R430, R604): 64 crest periods without a beacon. The beacon source itself has none to lose. -/
def execBeaconLoss (s : State) : Host.Outcome State Fault Refusal :=
  let c := s.crest
  if bit c.control 1 && fld c.control 2 18 == s.address then .next s
  else
    let c' := { c with aligned := false, locking := false, beacons := false, offset := 0x80000000, good := 0 }
    .next (State.event { s with crest := c' } 0x13 4 0 noStep 0)

/-! ### The package mesh (R37, R38) -/

/-- An earlier failed link whose detour the new one breaks, or that lies on the new one's detour (R38). A stop's last link lies on
the detour of the one before it, so this finds an isolated stop too. -/
def partner (down : List (Nat × Nat)) (a b : Nat) : Option (Nat × Nat) :=
  down.find? fun o => (detour o.1 o.2).contains (link a b) || (detour a b).contains o

/-- The operations of the cores that await a transfer over a link that has failed its retries (R37, R227): they go on by its detour, and report
that a link retried. -/
def State.retryOps (s : State) (l : Nat × Nat) : State :=
  let hit (c : Nat) (p : Pend) : Pend := if p.dies.any fun d => (meshPath (c / 32) d).contains l then { p with retried := true } else p
  { s with cores := s.cores.map fun (c, k) => (c, { k with ops := k.ops.map (hit c) }) }

/-- MESH_LINK_FAILURE (R37, R38): the link leaves service; the first partition names both links. -/
def execMeshLinkFailure (a b : BitVec 5) (s : State) : Host.Outcome State Fault Refusal :=
  let x := a.toNat
  let y := b.toNat
  if !meshLinked x y then .refused .illFormed
  else if s.meshDown.contains (link x y) then .next s
  else
    let s' := State.event (State.retryOps { s with meshDown := s.meshDown ++ [link x y] } (link x y)) 0x07 4 0 noStep (x + y <<< 8)
    match partner s.meshDown x y with
    | some o =>
      if s.partitioned then .next s'
      else .next (State.event { s' with partitioned := true } 0x1A 4 0 noStep (o.1 + o.2 <<< 8 + x <<< 16 + y <<< 24))
    | none => .next s'

/-- MERGE_ENTRY_RETIRE (R496): the oldest entry of an M-die's merge buffer retires by its one read-modify-write. -/
def execMergeEntryRetire (m : BitVec 4) (s : State) : Host.Outcome State Fault Refusal :=
  if 11 < m.toNat then .refused .illFormed
  else match s.merge.find? fun e => e.mdie == m.toNat with
    | some e => .next (s.retireEntry e)
    | none => .next s

end Sys2Proof.Machine
end

