-- ==== Sys2Proof/Machine/PowerUnit.lean ====
section
/-! DEFINITION. Hot plug and the link (R476–R488), power states (R517–R523), supply monitoring and trips (R525–R531), temperature,
coolant and input power (R532–R535), the end of resets (R493, R543), stack faults (R502). -/

namespace Sys2Proof.Machine

/-- The dies have power: POWERED or a later state (R476). -/
def State.powered (s : State) : Bool := decide (2 ≤ s.power.hot.code)

/-- An event of the H-die (R539). -/
def State.hEvent (s : State) (code src detail : Nat) : State := s.event code 4 src noStep detail

/-! ### Entering POWERED (R476, R522, R530, R543, R554) -/

/-- The trip event of a valid trip record, at every entry to POWERED (R530, R539, R624). -/
def State.tripEvent (s : State) : State :=
  let t := s.side.trip
  if t.valid then
    s.hEvent 0x38 t.sensor (t.cause + (t.sensor % 256) <<< 4 + (t.value % 65536) <<< 16 + (t.crest % 2 ^ 64) <<< 32)
  else s

/-- The device reset at the end of soft start: Cairn stays as its boot has left it. The trip event comes before the hot-plug event (R624). -/
def State.enterPowered (s : State) : State :=
  let c := s.cold
  let s' : State := { c with cairn := s.cairn, power := { c.power with booted := true } }
  s'.tripEvent.setHot .powered

/-! ### Power states (R517–R522) -/

/-- The state after one on the way to a target. -/
def PowerState.toward (p t : PowerState) : PowerState :=
  if p.code < t.code then
    match p with
    | .run => .ready | .ready => .hold | .hold => .rest | .rest => .dormant | .dormant => .dormant
  else
    match p with
    | .run => .run | .ready => .run | .hold => .ready | .rest => .hold | .dormant => .rest

/-- The L-dies go off (R517): what they hold is lost; the addresses, which setup registers keep, stay. -/
def State.fabricOff (s : State) : State :=
  { s with fabric := { ports := s.fabric.ports, stale := true, pod := s.fabric.pod, rack := s.fabric.rack,
                       resetAuthority := s.fabric.resetAuthority } }

/-- What a transition loses: the ports and what the L-dies hold on the way into REST, the C-dies' memories on the way out of it, the M-dies
on the way out of DORMANT (R493, R517, R520). -/
def State.transitionLoss (s : State) (p q : PowerState) : State :=
  match p, q with
  | .hold, .rest => (s.portsOff (List.range 32)).fabricOff
  | .rest, .hold => (List.range 8).foldl State.freshCdie s
  | .dormant, .rest => (List.range 12).foldl State.resetMdie s
  | _, _ => s

/-- A POWER_STATE that a link loss has overtaken: no power state is entered, and it is refused (R483, R487, R521). -/
def State.cancelTransition (s : State) : State :=
  let n : State := { s with power := { s.power with target := none, desc := none } }
  match s.power.desc with
  | some d => n.complete d stWrongState
  | none => n

/-- One transition between adjacent states ends (R519). -/
def State.transition (s : State) (t : PowerState) : State :=
  if s.power.hot != .ready && s.power.hot != .quiescing then s.cancelTransition
  else
  let p := s.power.state
  let q := p.toward t
  let s' := s.transitionLoss p q
  let n := s.alertFrom { s' with power := { s'.power with state := q } }
  let n := n.hEvent 0x36 0 (q.code + p.code <<< 4)
  if q = t then
    let d := n.power.desc
    let n : State := { n with power := { n.power with target := none, desc := none } }
    match d with
    | some d => n.complete d stDone
    | none => n
  else n

/-! ### QUIESCE (R485) -/

/-- Whether everything accepted has been completed but the QUIESCE itself. -/
def State.drained (s : State) (d : DescRef) : Bool := s.fetched.isEmpty && (s.descs.erase d).isEmpty

/-- The end of QUIESCING: ports off, pending events, those due at the crest's end among them (R503), the completion, RELEASED. -/
def State.release (s : State) (d : DescRef) : State :=
  let s := (s.portsOff (List.range 32)).tellReads
  let s := (if s.eventsOpen then s.flushHeld else s).reportLost
  let s := s.complete d stDone
  State.setHot { s with power := { s.power with quiesce := none } } .released

/-! ### Rows: hot plug and link -/

/-- PRESENCE_CLOSE (R476, R581): the presence sensing works from the make of PCHG, which the contacts make before it (R580); the sideband controller
starts later (log 83). -/
def execPresenceClose (s : State) : Host.Outcome State Fault Refusal :=
  if s.power.hot = .absent then .next (State.setHot { s with side := { s.side with pchg := true } } .present) else .next s

/-- PRESENCE_LOSS (R477, R486): the module keeps no state. -/
def execPresenceLoss (s : State) : Host.Outcome State Fault Refusal :=
  if s.power.hot ≠ .absent ∧ s.side.pchg = true then .next (s.powerOff .absent) else .next s

/-- INPUT_POWER_LOSS (R477, R507): a module that is not inserted has no input to lose. -/
def execInputPowerLoss (s : State) : Host.Outcome State Fault Refusal :=
  if s.power.hot = .absent then .next s else .next (s.powerOff .present)

/-- ENTER_POWERED (R476, R479, R522, R530, R543, R554): soft start and Cairn's stage 5 have ended. -/
def execEnterPowered (s : State) : Host.Outcome State Fault Refusal :=
  if s.power.hot = .present ∧ s.power.softStart = true ∧ s.power.booted = true then .next s.enterPowered else .next s

/-- LINK_TRAINED (R444, R445, R488, R603): at a revision up to the cap, once Cairn has booted and no device reset runs. -/
def execLinkTrained (revision : BitVec 2) (reversed : Bool) (s : State) : Host.Outcome State Fault Refusal :=
  let r := revision.toNat
  if r = 0 then .refused .illFormed
  else if s.power.hot ≠ .powered ∨ s.power.booted = false ∨ s.power.resetting.contains 24 = true ∨ s.link.cap < r then .next s
  else .next (State.setHot { s with link := { s.link with revision := r, reversed := reversed } } .linked)

/-- LINK_DOWN (R476, R487): the module enters POWERED and keeps its power state, plan and tables. A QUIESCE in progress ends with the state it
belongs to; its completion is not written and is counted. -/
def execLinkDown (s : State) : Host.Outcome State Fault Refusal :=
  if !s.linkUp then .next s
  else
    let cut (r : Ring) : Ring := { r with relinked := r.enable }
    let s' := State.setHot { s with rings := SMap.mapVals Ring.init cut s.rings, power := { s.power with quiesce := none } } .powered
    .next (match s.power.quiesce with
      | some d => s'.complete d stDone
      | none => s')

/-- QUIESCE_DRAINED (R476, R485). -/
def execQuiesceDrained (s : State) : Host.Outcome State Fault Refusal :=
  match s.power.quiesce with
  | some d => if s.power.hot = .quiescing ∧ s.drained d = true then .next (s.release d) else .next s
  | none => .next s

/-- RESET_DONE (R543): the end of a die's reset; that of the device ends all. -/
def execResetDone (die : BitVec 5) (s : State) : Host.Outcome State Fault Refusal :=
  let d := die.toNat
  if 24 < d then .refused .illFormed
  else
    let left := if d = 24 then [] else s.power.resetting.filter fun x => x != d
    .next { s with power := { s.power with resetting := left } }

/-- A received packet whose access waited, tried again as it reads from the receive buffer (R489). -/
def State.redo (s : State) (b : Blocked) : State :=
  match s.readBuffer b.ldie b.marks b.packet with
  | (s, none) =>
    let s := (s.crcEvent (b.port.getD (8 * b.ldie)) (b.packet.source + 1 <<< 18)).markOldest
    match b.port with
    | some p => s.takeIn p b.packet
    | none => s
  | (s, some k) =>
    let t := match k.type with
      | 0x03 => s.receiveSnapshot b.ldie k b.all
      | 0x04 => s.serveRead b.ldie k b.all
      | 0x06 => s.serveWrite b.ldie k b.all
      | _ => s.receiveWrite b.ldie k b.all
    match b.port with
    | some p => s.settle t p k
    | none => t

/-- The received packets and the collectives that waited, tried again in order. -/
def State.unblock (s : State) : State :=
  (s.fabric.blocked.foldl State.redo { s with fabric := { s.fabric with blocked := [] } }).retryCollectives

/-- STACK_POISON_DONE (R493): accesses to the stack no longer wait. -/
def execStackPoisonDone (m : BitVec 4) (s : State) : Host.Outcome State Fault Refusal :=
  if 11 < m.toNat then .refused .illFormed
  else .next (State.unblock { s with power := { s.power with poisoning := s.power.poisoning.filter fun x => x != m.toNat } })

/-- STACK_FAULT (R502): an event of the stack with its reason. -/
def execStackFault (m : BitVec 4) (reason : BitVec 4) (s : State) : Host.Outcome State Fault Refusal :=
  if 11 < m.toNat ∨ 2 < reason.toNat then .refused .illFormed
  else if s.powered then .next (s.event 0x27 6 m.toNat noStep reason.toNat)
  else .next s

/-- POWER_TRANSITION (R519, R520). -/
def execPowerTransition (s : State) : Host.Outcome State Fault Refusal :=
  match s.power.target with
  | some t => .next (s.transition t)
  | none => .next s

/-! ### Rows: supply (R525–R531) -/

/-- SUPPLY_DIP (R526): 100 ns below the warning level; the sample is in 10 mV. -/
def execSupplyDip (sample : BitVec 16) (s : State) : Host.Outcome State Fault Refusal :=
  if s.powered && s.power.dip.isNone && decide (sample.toNat < s.power.warnVoltage) then
    .next { s with power := { s.power with dip := some ⟨sample.toNat, [s.crest.counter]⟩ } }
  else .next s

/-- The crest-log entries of the crests that a dip has overlapped, marked (R526, R527). -/
def State.markDip (s : State) (d : Dip) : State :=
  let mark (l : SMap Byte) (c : Nat) : SMap Byte := SMap.set 0 l (c % 65536) (SMap.get 0 l (c % 65536) ||| 1)
  { s with crest := { s.crest with log := d.crests.foldl mark s.crest.log }, power := { s.power with dip := none } }

/-- SUPPLY_DIP_END (R526): one event, the crest log, the count. -/
def execSupplyDipEnd (lowest : BitVec 16) (duration : BitVec 32) (s : State) : Host.Outcome State Fault Refusal :=
  match s.power.dip with
  | none => .next s
  | some d =>
    let low := min d.lowest lowest.toNat
    let s := s.hEvent 0x30 0 (low + duration.toNat <<< 16 + (min 65535 d.crests.length) <<< 48 + (d.crests.headD 0 % 2 ^ 32) <<< 64)
    .next (State.markDip { s with err := { s.err with dips := satAdd 32 s.err.dips 1 } } d)

/-- SUPPLY_LOW (R526): each 1 ms of a dip. -/
def execSupplyLow (lowest : BitVec 16) (duration : BitVec 32) (s : State) : Host.Outcome State Fault Refusal :=
  match s.power.dip with
  | none => .next s
  | some d =>
    let low := min d.lowest lowest.toNat
    .next (State.hEvent { s with power := { s.power with dip := some { d with lowest := low } } } 0x31 0 (low + duration.toNat <<< 16))

/-- Levels of R525 in 10 mV: over-voltage report and protective trip; and the junction temperature of a trip in °C (R528). -/
def overVoltage : Nat := 7200
def tripVoltage : Nat := 5000
def tripJunction : Nat := 115

/-- OVER_VOLTAGE (R525): the highest sample, in 10 mV, of a time above the report level. -/
def execOverVoltage (highest : BitVec 16) (s : State) : Host.Outcome State Fault Refusal :=
  if s.powered && decide (overVoltage < highest.toNat) then
    .next (State.hEvent { s with err := { s.err with overVolts := satAdd 32 s.err.overVolts 1 } } 0x37 0 highest.toNat)
  else .next s

/-- The record of a trip (R530, R593). -/
def State.recordTrip (s : State) (temperature : Bool) (sensor value : Nat) : TripRecord :=
  let start := match temperature, s.power.dip with
    | false, some d => d.crests.headD 0
    | _, _ => 2 ^ 64 - 1
  { valid := true, cause := b2n temperature, sensor := if temperature then sensor else 0, count := satAdd 8 s.side.trip.count 1,
    value := value, crest := s.crest.counter, dipStart := start }

/-- Whether a value trips the module (R525, R528): 10 mV units of the input voltage, or °C of a junction sensor. -/
def tripValue (temperature : Bool) (value : Nat) : Bool := if temperature then decide (tripJunction ≤ value) else decide (value < tripVoltage)

/-- A trip (R528–R531): the record is made, every rail goes off, the module is in PRESENT. -/
def State.doTrip (s : State) (temperature : Bool) (sensor value : Nat) : State :=
  let t := s.recordTrip temperature sensor value
  let off := s.powerOff .present
  s.alertFrom { off with side := { off.side with trip := t } }

/-- TRIP (R528–R531): 1 µs below the trip voltage; or the second sample in a row of a junction sensor at the trip level, the first one being
its latest sample. -/
def execTrip (temperature : Bool) (sensor : BitVec 8) (value : BitVec 16) (s : State) : Host.Outcome State Fault Refusal :=
  if temperature = true ∧ 48 < sensor.toNat then .refused .illFormed
  else if s.powered && tripValue temperature value.toNat && (!temperature || s.monitor.hot.contains sensor.toNat) then
    .next (s.doTrip temperature sensor.toNat value.toNat)
  else .next s

/-! ### Rows: temperature, coolant, input power (R532–R535, R609) -/

/-- A temperature as the °C field of an event. -/
def celsius (t : Int) : Nat := unsigned 8 (t / 10)

/-- The warning of the junction sensors after a sample (R534). -/
def State.watchJunction (s : State) (n : Nat) (t : Int) : State :=
  let m := s.monitor
  let level := s.power.junctionLevel
  let s := if level < t then s.markCrest 2 else s
  if !m.junctionWarn then
    if level < t then State.hEvent { s with monitor := { m with junctionWarn := true, junctionPeak := unsigned 16 t } } 0x32 n (n + celsius t <<< 8)
    else s
  else
    let peak := max t (signed 16 m.junctionPeak)
    if (s.groupReadings 0 48).all fun x => decide (x ≤ level - 50) then
      State.hEvent { s with monitor := { m with junctionWarn := false, junctionPeak := 0 } } 0x33 n (n + celsius peak <<< 8)
    else { s with monitor := { m with junctionPeak := unsigned 16 peak } }

/-- The warning of the stack sensors after a sample (R534). -/
def State.watchStack (s : State) (n : Nat) (t : Int) : State :=
  let m := s.monitor
  let level : Int := 10 * (s.power.warnStack : Nat)
  if !m.stackWarn then
    if level < t then State.hEvent { s with monitor := { m with stackWarn := true, stackPeak := unsigned 16 t } } 0x32 n (n + celsius t <<< 8)
    else s
  else
    let peak := max t (signed 16 m.stackPeak)
    if (s.groupReadings 49 60).all fun x => decide (x ≤ level - 50) then
      State.hEvent { s with monitor := { m with stackWarn := false, stackPeak := 0 } } 0x33 n (n + celsius peak <<< 8)
    else { s with monitor := { m with stackPeak := unsigned 16 peak } }

/-- A reading stored with the low 32 bits of the crest counter (R609). -/
def State.setReading (s : State) (n v : Nat) : State :=
  { s with monitor := { s.monitor with readings := SMap.set (0x8000, 0) s.monitor.readings n (v, s.crest.counter % 2 ^ 32) } }

/-- A junction sensor's sample against the trip level (R528): the second one in a row at the level trips the module. -/
def State.watchTrip (s : State) (n : Nat) (t : Int) : State :=
  if t < 10 * (tripJunction : Nat) then { s with monitor := { s.monitor with hot := s.monitor.hot.filter fun x => x != n } }
  else if s.monitor.hot.contains n then s.doTrip true n (t / 10).toNat
  else { s with monitor := { s.monitor with hot := s.monitor.hot ++ [n] } }

/-- The coolant out of range (R534): kind 0 inlet low, 1 inlet high, 2 flow low. The event comes when it was in range before. -/
def State.coolantOut (s : State) (k v : Nat) : State :=
  let m := s.monitor
  let was := if k = 2 then m.flowOut else m.inletOut
  let n : State := { s with monitor := if k = 2 then { m with flowOut := true } else { m with inletOut := true } }
  (if was || !s.processors then n else n.hEvent 0x34 (if k = 2 then 63 else 61) (k + v <<< 16)).markCrest 4

/-- The coolant in range again as far as a sample says: the event comes when inlet and flow both are, and one was not. -/
def State.coolantIn (s : State) (inlet flow : Bool) (n v : Nat) : State :=
  let m := s.monitor
  let m' := { m with inletOut := m.inletOut && !inlet, flowOut := m.flowOut && !flow }
  let t : State := { s with monitor := m' }
  if (m.inletOut || m.flowOut) && !m'.inletOut && !m'.flowOut && s.processors then t.hEvent 0x34 n (3 + v <<< 16) else t

/-- Samples 10 ms apart that span 100 ms (R533, R534). -/
def coolantSamples : Nat := 11

/-- The kind of an inlet or flow reading that is out of range: 20–40 °C, 6 L/min (R534). -/
def coolantKind (n v : Nat) : Option Nat :=
  if n = 61 then (if signed 16 v < 200 then some 0 else if 400 < signed 16 v then some 1 else none)
  else if v < 600 then some 2 else none

/-- A coolant sensor's sample (R534): out of range for 100 ms, or in range. -/
def State.watchCoolant (s : State) (n v : Nat) : State :=
  let m := s.monitor
  match coolantKind n v with
  | none => State.coolantIn { s with monitor := if n = 61 then { m with inletBad := 0 } else { m with flowBad := 0 } } (n == 61) (n != 61) n v
  | some k =>
    let run := (if n = 61 then m.inletBad else m.flowBad) + 1
    let t : State := { s with monitor := if n = 61 then { m with inletBad := run } else { m with flowBad := run } }
    if coolantSamples ≤ run then t.coolantOut k v else t

/-- The input-power average against the warning level, where 0 gives no power events (R534, R538): the event comes when it first exceeds it. -/
def State.watchPower (s : State) (v : Nat) : State :=
  let high := s.power.warnPower != 0 && decide (s.power.warnPower < v)
  let n : State := { s with monitor := { s.monitor with powerHigh := high } }
  if !high then n
  else (if s.monitor.powerHigh || !s.processors then n else n.hEvent 0x35 0 v).markCrest 16

/-- A sample of a sensor of the dies and stacks: the readout and the warnings, which are duties of processor 2 (R570), and the trip. -/
def State.sampleDie (s : State) (n v : Nat) : State :=
  let t := if !s.processors then s
    else if n ≤ 48 then (s.setReading n v).watchJunction n (signed 16 v) else (s.setReading n v).watchStack n (signed 16 v)
  if n ≤ 48 then t.watchTrip n (signed 16 v) else t

/-- SENSOR_SAMPLE (R528, R533, R534, R570, R591, R609): sensors 0–60 are of the dies and stacks, 61–64 of the carrier, and 65–67 stand for the
input's voltage, current and 1 ms average power. -/
def execSensorSample (sensor : BitVec 7) (reading : BitVec 16) (s : State) : Host.Outcome State Fault Refusal :=
  let n := sensor.toNat
  let v := reading.toNat
  if 67 < n then .refused .illFormed
  else if 65 ≤ n then
    let s' : State := { s with monitor := { s.monitor with input := setFld s.monitor.input (16 * (n - 65)) 16 v } }
    .next (if n = 67 ∧ s.powered = true then s'.watchPower v else s')
  else if 61 ≤ n then
    let s' : State := { s with monitor := { s.monitor with board := SMap.set unsampled s.monitor.board n v } }
    if !s.powered then .next s'
    else
      let s' := if s.processors then s'.setReading n v else s'
      .next (if n = 61 ∨ n = 63 then s'.watchCoolant n v else s')
  else if !s.powered || sensorStopped s.power.state n then .next s
  else .next (s.sampleDie n v)

/-- COOLANT_EVENT (R534): 0 inlet low, 1 inlet high, 2 flow low, for 100 ms, by a reading that is so; 3 back in range. -/
def execCoolantEvent (kind : BitVec 2) (reading : BitVec 16) (s : State) : Host.Outcome State Fault Refusal :=
  let k := kind.toNat
  let v := reading.toNat
  if !s.powered then .next s
  else if k = 3 then .next (s.coolantIn true true 61 v)
  else if coolantKind (if k = 2 then 63 else 61) v = some k then .next (s.coolantOut k v)
  else .next s

/-- POWER_WARNING (R534): the 1 ms average in W above the warning level; a level of 0 gives no power events. -/
def execPowerWarning (average : BitVec 16) (s : State) : Host.Outcome State Fault Refusal :=
  if !s.powered || s.power.warnPower == 0 || decide (average.toNat ≤ s.power.warnPower) then .next s
  else .next (s.watchPower average.toNat)

end Sys2Proof.Machine
end

