-- ==== Sys2Proof/Machine/SidebandUnit.lean ====
section
/-! DEFINITION. The sideband (R577, R581, R588–R594): the controller, the MCTP control commands, the Llynyar commands. The layout of the
control messages is that of DSP0236, which R588 names (PRESUMED). -/

namespace Sys2Proof.Machine

/-! ### The controller (R577, R581, R588) -/

/-- Whether the sideband controller answers: started on a legal slot with odd parity, in an inserted module. -/
def State.answers (s : State) : Bool := s.side.started && !s.side.silent && s.power.hot != .absent

/-- A response sent. -/
def State.respond (s : State) (bs : List Byte) : State := { s with side := { s.side with response := some bs } }

/-- SIDEBAND_CONTROLLER_START (R577, R581): the GA pins give the slot, and GAP the odd parity. A slot other than the last one changes the
result of GET_STATE (R592). -/
def execSidebandControllerStart (ga : BitVec 6) (gap : Bool) (s : State) : Host.Outcome State Fault Refusal :=
  if s.side.started then .next s
  else
    let ones := ((List.range 6).map fun i => b2n (bit ga.toNat i)).sum + b2n gap
    .next (s.alertFrom { s with side := { s.side with started := true, silent := badAddress ga.toNat || ones % 2 == 0, slot := ga.toNat, pchg := true,
                                                      response := none } })

/-- PCHG_BREAK (R581, R589): the controller and the presence sensing stop, and the endpoint ID is lost. -/
def execPchgBreak (s : State) : Host.Outcome State Fault Refusal :=
  .next { s with side := { s.side with started := false, silent := false, endpoint := 0, alert := false, response := none, pchg := false } }

/-! ### MCTP control commands (R588, R589) -/

/-- Completion codes of DSP0236. -/
def ccSuccess : Nat := 0
def ccInvalidData : Nat := 2
def ccInvalidLength : Nat := 3
def ccUnsupported : Nat := 5

/-- Byte i of a message; 0 beyond its end. -/
def msgByte (msg : List Byte) (i : Nat) : Nat := (msg.getD i 0).toNat

/-- Whether a message is a control request (R589): message type 0, request bit 1. -/
def controlRequest (msg : List Byte) : Bool := decide (3 ≤ msg.length) && msgByte msg 0 == 0 && bit (msgByte msg 1) 7

/-- The response to a control request: its instance ID and command, the completion code, the data. A datagram has none. -/
def State.answerControl (s : State) (msg : List Byte) (cc : Nat) (data : List Byte) : State :=
  if bit (msgByte msg 1) 6 then s
  else s.respond (leBytes 1 0 ++ leBytes 1 (msgByte msg 1 % 32) ++ leBytes 1 (msgByte msg 2) ++ leBytes 1 cc ++ data)

/-- A control row: a request of the row's command code, answered while the controller answers. -/
def controlRow (code : Nat) (act : State → State) (msg : List Byte) (s : State) : Host.Outcome State Fault Refusal :=
  if !controlRequest msg || msgByte msg 2 != code then .refused .illFormed
  else if s.answers then .next (act s)
  else .next s

/-- SET_ENDPOINT_ID (R589): operations 0 and 1 assign an endpoint ID that is neither null nor broadcast. -/
def execSetEndpointId (msg : List Byte) (s : State) : Host.Outcome State Fault Refusal :=
  controlRow 0x01 (fun s =>
    let op := msgByte msg 3 % 4
    let eid := msgByte msg 4
    if msg.length < 5 then s.answerControl msg ccInvalidLength []
    else if 1 < op ∨ eid < 8 ∨ eid = 0xFF then s.answerControl msg ccInvalidData []
    else State.answerControl { s with side := { s.side with endpoint := eid } } msg ccSuccess (leBytes 1 0 ++ leBytes 1 eid ++ leBytes 1 0)) msg s

/-- GET_ENDPOINT_ID (R589): a simple endpoint with a dynamic ID; 0 while none is assigned. -/
def execGetEndpointId (msg : List Byte) (s : State) : Host.Outcome State Fault Refusal :=
  controlRow 0x02 (fun s => s.answerControl msg ccSuccess (leBytes 1 s.side.endpoint ++ leBytes 1 0 ++ leBytes 1 0)) msg s

/-- GET_MCTP_VERSION_SUPPORT (R589): of the base specification, the control messages and the vendor-defined type. -/
def execGetMctpVersionSupport (msg : List Byte) (s : State) : Host.Outcome State Fault Refusal :=
  controlRow 0x04 (fun s =>
    let t := msgByte msg 3
    let n := Config.mctpVersions.toNat
    if msg.length < 4 then s.answerControl msg ccInvalidLength []
    else if t = 0xFF ∨ t = 0x00 ∨ t = 0x7F then
      s.answerControl msg ccSuccess (leBytes 1 n ++ (List.range (4 * n)).map Config.mctpVersionByte)
    else s.answerControl msg 0x80 []) msg s

/-- GET_MESSAGE_TYPE_SUPPORT (R589, R590): one type beside the control type, 0x7F. -/
def execGetMessageTypeSupport (msg : List Byte) (s : State) : Host.Outcome State Fault Refusal :=
  controlRow 0x05 (fun s => s.answerControl msg ccSuccess (leBytes 1 1 ++ leBytes 1 0x7F)) msg s

/-- The vendor identifier of R590, most significant byte first. -/
def vendorId : List Byte := [0x00, 0x01, 0xB7, 0xC3]

/-- GET_VENDOR_DEFINED_MESSAGE_SUPPORT (R589, R590): one vendor identifier, of the 32-bit form. -/
def execGetVendorDefinedMessageSupport (msg : List Byte) (s : State) : Host.Outcome State Fault Refusal :=
  controlRow 0x06 (fun s =>
    if msg.length < 4 then s.answerControl msg ccInvalidLength []
    else if msgByte msg 3 ≠ 0 then s.answerControl msg ccInvalidData []
    else s.answerControl msg ccSuccess (leBytes 1 0xFF ++ leBytes 1 1 ++ vendorId ++ leBytes 2 Config.commandSet.toNat)) msg s

/-! ### Llynyar commands (R590–R594) -/

/-- Whether a message is of type 0x7F and long enough for its header. -/
def vendorRequest (msg : List Byte) : Bool := decide (7 ≤ msg.length) && msgByte msg 0 == 0x7F

/-- The response to a Llynyar command: bytes 0–5 of the request, the completion code, the result. -/
def State.answerVendor (s : State) (msg : List Byte) (cc : Nat) (data : List Byte) : State := s.respond (msg.take 6 ++ leBytes 1 cc ++ data)

/-- A Llynyar row: a request of the row's command code. It is dropped unanswered while no endpoint ID is assigned, and where its vendor
identifier differs. -/
def vendorRow (code : Nat) (act : State → State) (msg : List Byte) (s : State) : Host.Outcome State Fault Refusal :=
  if !vendorRequest msg || msgByte msg 5 != code then .refused .illFormed
  else if s.answers && s.side.endpoint != 0 && (msg.drop 1).take 4 == vendorId then .next (act s)
  else .next s

/-- The control commands that have rows of their own. -/
def controlCodes : List Nat := [0x01, 0x02, 0x04, 0x05, 0x06]

/-- A request that has no row of its own: any other control command, and any other Llynyar command. -/
def otherRequest (msg : List Byte) : Bool :=
  if controlRequest msg then !controlCodes.contains (msgByte msg 2)
  else vendorRequest msg && (msgByte msg 5 == 0 || decide (8 < msgByte msg 5))

/-- UNSUPPORTED_CONTROL_COMMAND (R589, R590): a control command is answered with ERROR_UNSUPPORTED_CMD, a Llynyar command with code 0x01. -/
def execUnsupportedControlCommand (msg : List Byte) (s : State) : Host.Outcome State Fault Refusal :=
  if !otherRequest msg then .refused .illFormed
  else if controlRequest msg then controlRow (msgByte msg 2) (fun s => s.answerControl msg ccUnsupported []) msg s
  else vendorRow (msgByte msg 5) (fun s => s.answerVendor msg 0x01 []) msg s

/-- GET_STATE (R591, R592): the alert line is released. -/
def execGetState (msg : List Byte) (s : State) : Host.Outcome State Fault Refusal :=
  vendorRow 0x01 (fun s =>
    State.answerVendor { s with side := { s.side with alert := false } } msg 0 (s.stateBytes.flatMap (leBytes 1))) msg s

/-- POWER_ENABLE (R479, R591): in PRESENT the soft start begins. -/
def execPowerEnable (msg : List Byte) (s : State) : Host.Outcome State Fault Refusal :=
  vendorRow 0x02 (fun s =>
    State.answerVendor (if s.power.hot = .present then { s with power := { s.power with softStart := true } } else s) msg 0 []) msg s

/-- POWER_DISABLE (R350, R591): every rail goes off; a soft start ends. -/
def execPowerDisable (msg : List Byte) (s : State) : Host.Outcome State Fault Refusal :=
  vendorRow 0x03 (fun s =>
    State.answerVendor (if s.power.hot = .present then { s with power := { s.power with softStart := false, booted := false } }
      else s.powerOff .present) msg 0 []) msg s

/-- The FRU record (R594): 128 bytes. -/
def State.fru (s : State) : List Byte :=
  let body := leBytes 4 1 ++ serialNumber ++ s.code.ascii ++ leBytes 2 0xB0 ++ leBytes 2 (match s.code with
    | .l576 => 48
    | .l384 => 32) ++ leBytes 2 1 ++ (List.range 18).map (fun i => Config.fruByte (42 + i)) ++ List.replicate 64 0
  body ++ leBytes 4 (crc32 body)

/-- READ_FRU (R591, R594). -/
def execReadFru (msg : List Byte) (s : State) : Host.Outcome State Fault Refusal :=
  vendorRow 0x04 (fun s =>
    let off := msgByte msg 7 + 256 * msgByte msg 8
    let n := msgByte msg 9
    if n < 1 ∨ 48 < n ∨ 128 < off + n then s.answerVendor msg 0x02 [] else s.answerVendor msg 0 ((s.fru.drop off).take n)) msg s

/-- A sensor as READ_SENSORS gives it (R591, R609). -/
def State.sensorValue (s : State) (n : Nat) : Nat :=
  if 61 ≤ n then SMap.get (Config.boardReading n).toNat s.monitor.board n
  else if !s.powered || sensorStopped s.power.state n then 0x8000
  else (SMap.get (0x8000, 0) s.monitor.readings n).1

/-- READ_SENSORS (R591). -/
def execReadSensors (msg : List Byte) (s : State) : Host.Outcome State Fault Refusal :=
  vendorRow 0x05 (fun s =>
    let first := msgByte msg 7
    let n := msgByte msg 8
    if n < 1 ∨ 24 < n ∨ 65 < first + n then s.answerVendor msg 0x02 []
    else s.answerVendor msg 0 ((List.range n).flatMap fun i => leBytes 2 (s.sensorValue (first + i)))) msg s

/-- READ_INPUT (R591): voltage, current, 1 ms average power. -/
def execReadInput (msg : List Byte) (s : State) : Host.Outcome State Fault Refusal :=
  vendorRow 0x06 (fun s => s.answerVendor msg 0 (leBytes 6 s.monitor.input)) msg s

/-- The trip record (R593): 32 bytes. -/
def TripRecord.bytes (t : TripRecord) : List Byte :=
  leBytes 1 (b2n t.valid) ++ leBytes 1 t.cause ++ leBytes 1 t.sensor ++ leBytes 1 t.count ++ leBytes 2 t.value ++ leBytes 2 0 ++
    leBytes 8 t.crest ++ leBytes 8 t.dipStart ++ leBytes 8 0

/-- READ_TRIP (R591, R593). -/
def execReadTrip (msg : List Byte) (s : State) : Host.Outcome State Fault Refusal :=
  vendorRow 0x07 (fun s => s.answerVendor msg 0 s.side.trip.bytes) msg s

/-- CLEAR_TRIP (R591, R593): in PRESENT only. -/
def execClearTrip (msg : List Byte) (s : State) : Host.Outcome State Fault Refusal :=
  vendorRow 0x08 (fun s =>
    if s.power.hot ≠ .present then s.answerVendor msg 0x03 []
    else State.answerVendor (s.alertFrom { s with side := { s.side with trip := { s.side.trip with valid := false, count := 0 } } })
      msg 0 []) msg s

end Sys2Proof.Machine
end

