-- ==== Sys2Proof/Machine/WorkUnit.lean ====
section
/-! DEFINITION. The work of descriptors that take time (R459): COPY, FILL, PARAM_READ, SNAPSHOT, HBM_REPAIR, FIRMWARE. -/

namespace Sys2Proof.Machine

/-! ### Host transfers (R461, R471, R499) -/

/-- The completion of a host transfer with its count of units not written or read in error. -/
def State.transferDone (s : State) (d : DescRef) (bad : Nat) : State :=
  s.completeWith d stDone (completionExtra false 0 0 (bad != 0)) (bad % 2 ^ 32)

/-- One 64-byte unit to host memory: a stained one is not written, and an event names its device address. -/
def State.unitToHost (acc : State × Nat) (host dev : Nat) (bs : List (Byte × Bool)) : State × Nat :=
  if bs.any Prod.snd then (acc.1.event 0x0A 4 0 noStep dev, acc.2 + 1) else (acc.1.hostWrite host (bs.map Prod.fst), acc.2)

/-- One 64-byte unit from host memory: one that is read with an error is written stained. -/
def State.unitFromHost (acc : State × Nat) (host dev n : Nat) : State × Nat :=
  let bad := acc.1.hostError host n
  let s := if bad then acc.1.linkError 4 0 noStep host else acc.1
  (s.put 0 dev ((acc.1.hostBytes host n).map fun b => (b, bad)), acc.2 + b2n bad)

/-- COPY (R461). -/
def State.workCopy (s : State) (d : DescRef) : State :=
  let dev := d.f 80 48
  let host := d.f 128 64
  let us := units64 (d.f 192 32)
  let (s', bad) := if bit d.bits 64 then
      us.foldl (fun acc (u, k) => State.unitToHost acc (host + u) (dev + u) (s.load (dev + u) k)) (s.noteRead dev (d.f 192 32), 0)
    else us.foldl (fun acc (u, k) => State.unitFromHost acc (host + u) (dev + u) k) (s, 0)
  s'.transferDone d bad

/-- FILL (R494). -/
def State.workFill (s : State) (d : DescRef) : State :=
  (s.fillRange (d.f 64 48) (d.f 128 48) (BitVec.ofNat 64 (d.f 192 64))).complete d stDone

/-- The bytes that a PARAM_READ reads (R374, R376, R460). -/
def State.paramData (s : State) (d : DescRef) : List (Byte × Bool) :=
  match d.f 80 3 with
  | 5 => clean (leBytes 8 s.store.committed)
  | 4 => match s.paramBucket d with
    | some (_, b, _) =>
      let (p1, p2) := s.powers s.store.bank b.group
      clean (leBytes 4 p1 ++ leBytes 4 p2)
    | none => []
  | _ => s.load (s.paramAddr d) (paramBytes d)

/-- PARAM_READ (R376, R461). -/
def State.workParamRead (s : State) (d : DescRef) : State :=
  let ws := s.paramTables d
  let bs := if s.tableBad ws then (s.paramData d).map fun b => (b.1, true) else s.paramData d
  let a := s.paramAddr d
  let s := if s.tableBad ws then (s.noteTables ws).markOldest else s.noteTables ws
  let s := if d.f 80 3 < 4 then s.noteRead a (paramBytes d) else s
  let (s', bad) := (units64 (paramBytes d)).foldl (fun acc (u, k) =>
    State.unitToHost acc (d.f 192 64 + u) (a + u) ((bs.drop u).take k)) (s, 0)
  s'.transferDone d bad

/-! ### Snapshots, repair, firmware (R506, R510, R511, R567) -/

/-- SNAPSHOT, once captured: done when the buddy holds the copy, failed where the target was lost before (R511). -/
def State.workSnapshot (s : State) (d : DescRef) : State :=
  match s.snaps.runs.find? fun r => r.desc == d && r.image.isSome && r.copied with
  | none => s
  | some r =>
    let s : State := { s with snaps := { s.snaps with runs := s.snaps.runs.erase r } }
    if rankLost (s.rankEntry 0 r.rank) then (s.event 0x25 4 0 r.step (r.rank + 1 <<< 17)).complete d stWrongState
    else s.complete d stDone

/-- HBM_REPAIR: one spare row per bank; the aligned 8 KiB that the row serves are poisoned (R506). -/
def State.workRepair (s : State) (d : DescRef) : State :=
  let m := d.f 64 4
  let off := d.f 80 48
  let bank := Config.repairBank m off
  let lo := stackView + m * 2 ^ 36 + off / 8192 * 8192
  let told (s : State) (r : Nat) : State := (s.event 0x24 6 m noStep (r + off <<< 4)).complete d stDone
  if s.power.repairs.contains (m, bank) then told s 1
  else if Config.stackRefusesRepair m off then told s 2
  else told { s with power := { s.power with repairs := s.power.repairs ++ [(m, bank)] }, mem := s.mem.poison lo (lo + 8192) } 0

/-- FIRMWARE, in its turn with Cairn (R561, R567). -/
def State.workFirmware (s : State) (d : DescRef) : State :=
  match s.cairn.queue with
  | .firmware x :: rest =>
    if x ≠ d then s
    else
      let (s', r) := State.stage { s with cairn := { s.cairn with queue := rest } } (d.f 64 64) (d.f 128 32)
      s'.complete d (if r.isNone then stDone else stAuthFailed)
  | _ => s

/-! ### The row -/

/-- The range of device memory that a descriptor's work reaches. -/
def State.workRange (s : State) (d : DescRef) : Option (Nat × Nat) :=
  match d.kind with
  | 0x0C => if d.f 80 3 < 4 then some (s.paramAddr d, paramBytes d) else none
  | 0x17 => some (stackView + d.f 64 4 * 2 ^ 36 + d.f 80 48, 1)
  | _ => d.range

/-- Whether the work must wait: a die that it uses or crosses is in reset (R544), a stack is still being poisoned (R493), the mesh has no path
(R38), the memory that it reaches is off or in self-refresh (R517), or no service processor runs to make a repair (R570). -/
def State.workWaits (s : State) (d : DescRef) : Bool :=
  s.power.resetting.contains 24 || (d.kind == 0x17 && !s.processors) || s.descHeld d ||
    match s.workRange d with
    | none => false
    | some (a, n) => s.hostHeld 24 a n || !s.diesActive

/-- The work of a descriptor by its kind. -/
def State.work (s : State) (d : DescRef) : State :=
  match d.kind with
  | 0x0C => s.workParamRead d
  | 0x0D => s.workCopy d
  | 0x0E => s.workFill d
  | 0x0F => s.workSnapshot d
  | 0x17 => s.workRepair d
  | 0x18 => s.workFirmware d
  | _ => s.heldWork d

/-- The kinds whose work takes time. -/
def timedKinds : List Nat := [0x0C, 0x0D, 0x0E, 0x0F, 0x17, 0x18]

/-- Whether the work of a descriptor in progress is still to be done: a RESTORE that is staged only waits for its boundary. -/
def State.toWork (s : State) (d : DescRef) : Bool := d.kind != 0x10 || !s.snaps.staged.any fun x => x.desc == d

/-- DESCRIPTOR_WORK_DONE (R459): the work of the ring's oldest descriptor of a kind in progress, of one that takes time or of one that waited for
what its traffic reaches. -/
def execDescriptorWorkDone (r : BitVec 4) (kind : BitVec 8) (s : State) : Host.Outcome State Fault Refusal :=
  if !timedKinds.contains kind.toNat && !heldKinds.contains kind.toNat then .refused .illFormed
  else match s.descs.find? fun d => d.ring == r.toNat && d.kind == kind.toNat && s.toWork d with
    | none => .next s
    | some d => if s.workWaits d then .next s else .next (s.work d)

end Sys2Proof.Machine
end

