-- ==== Sys2Proof/Machine/Dispatch.lean ====
section
/-! DEFINITION. One arm per command: a direct call of its meaning. -/

namespace Sys2Proof.Machine

/-- The effect of a command on everything but the queue. -/
def exec (i : Instr) (s : State) : Host.Outcome State Fault Refusal :=
  match i with
  | .nop c w => Sys2Proof.Machine.execNop c w s
  | .cbegin c w => Sys2Proof.Machine.execCbegin c w s
  | .cend c w => Sys2Proof.Machine.execCend c w s
  | .loop c w => Sys2Proof.Machine.execLoop c w s
  | .twait c w => Sys2Proof.Machine.execTwait c w s
  | .tsig c w => Sys2Proof.Machine.execTsig c w s
  | .sli c w => Sys2Proof.Machine.execSli c w s
  | .salu c w => Sys2Proof.Machine.execSalu c w s
  | .sld c w => Sys2Proof.Machine.execSld c w s
  | .sst c w => Sys2Proof.Machine.execSst c w s
  | .sid c w => Sys2Proof.Machine.execSid c w s
  | .sflag c w => Sys2Proof.Machine.execSflag c w s
  | .loadset c w => Sys2Proof.Machine.execLoadset c w s
  | .pass c w => Sys2Proof.Machine.execPass c w s
  | .enq c w => Sys2Proof.Machine.execEnq c w s
  | .flush c w => Sys2Proof.Machine.execFlush c w s
  | .matvec c w => Sys2Proof.Machine.execMatvec c w s
  | .tclr c w => Sys2Proof.Machine.execTclr c w s
  | .combine c w => Sys2Proof.Machine.execCombine c w s
  | .vop c w => Sys2Proof.Machine.execVop c w s
  | .vcvt c w => Sys2Proof.Machine.execVcvt c w s
  | .vsplit c w => Sys2Proof.Machine.execVsplit c w s
  | .vperm c w => Sys2Proof.Machine.execVperm c w s
  | .vsetvl c w => Sys2Proof.Machine.execVsetvl c w s
  | .vmovs c w => Sys2Proof.Machine.execVmovs c w s
  | .vld c w => Sys2Proof.Machine.execVld c w s
  | .vst c w => Sys2Proof.Machine.execVst c w s
  | .kload c w => Sys2Proof.Machine.execKload c w s
  | .kapply c w => Sys2Proof.Machine.execKapply c w s
  | .rreg c w => Sys2Proof.Machine.execRreg c w s
  | .rtrow c w => Sys2Proof.Machine.execRtrow c w s
  | .wrun c w => Sys2Proof.Machine.execWrun c w s
  | .wpool c w => Sys2Proof.Machine.execWpool c w s
  | .copy c w => Sys2Proof.Machine.execCopy c w s
  | .fill c w => Sys2Proof.Machine.execFill c w s
  | .dsplit c w => Sys2Proof.Machine.execDsplit c w s
  | .fsend c w => Sys2Proof.Machine.execFsend c w s
  | .frecv c w => Sys2Proof.Machine.execFrecv c w s
  | .bsend c w => Sys2Proof.Machine.execBsend c w s
  | .kvread c w => Sys2Proof.Machine.execKvread c w s
  | .kvappend c w => Sys2Proof.Machine.execKvappend c w s
  | .kvflush c w => Sys2Proof.Machine.execKvflush c w s
  | .instructionComplete c unit => Sys2Proof.Machine.execInstructionComplete c unit s
  | .tokenWaitMet c => Sys2Proof.Machine.execTokenWaitMet c s
  | .interlockRelease c => Sys2Proof.Machine.execInterlockRelease c s
  | .batchWaitExpiry c => Sys2Proof.Machine.execBatchWaitExpiry c s
  | .blockFinish c => Sys2Proof.Machine.execBlockFinish c s
  | .pack m w => Sys2Proof.Machine.execPack m w s
  | .unpack m w => Sys2Proof.Machine.execUnpack m w s
  | .ship m w => Sys2Proof.Machine.execShip m w s
  | .fetch m w => Sys2Proof.Machine.execFetch m w s
  | .fwait m w => Sys2Proof.Machine.execFwait m w s
  | .update m w => Sys2Proof.Machine.execUpdate m w s
  | .vcontrib m w => Sys2Proof.Machine.execVcontrib m w s
  | .rerun m w => Sys2Proof.Machine.execRerun m w s
  | .ostage m w => Sys2Proof.Machine.execOstage m w s
  | .gather m w => Sys2Proof.Machine.execGather m w s
  | .cwait m w => Sys2Proof.Machine.execCwait m w s
  | .mdieWaitMet m => Sys2Proof.Machine.execMdieWaitMet m s
  | .crestBoundary => Sys2Proof.Machine.execCrestBoundary s
  | .lateWorkFinish lateness => Sys2Proof.Machine.execLateWorkFinish lateness s
  | .overrunRepeat lateness => Sys2Proof.Machine.execOverrunRepeat lateness s
  | .stepCompletion step => Sys2Proof.Machine.execStepCompletion step s
  | .normPartial step group => Sys2Proof.Machine.execNormPartial step group s
  | .submissionDoorbell r index => Sys2Proof.Machine.execSubmissionDoorbell r index s
  | .completionDoorbell r index => Sys2Proof.Machine.execCompletionDoorbell r index s
  | .eventDoorbell index => Sys2Proof.Machine.execEventDoorbell index s
  | .descriptorFetch r => Sys2Proof.Machine.execDescriptorFetch r s
  | .hostReadCompletion addr error data => Sys2Proof.Machine.execHostReadCompletion addr error data s
  | .irqHoldoffExpiry ring => Sys2Proof.Machine.execIrqHoldoffExpiry ring s
  | .planLoad r d => Sys2Proof.Machine.execPlanLoad r d s
  | .planUnload r d => Sys2Proof.Machine.execPlanUnload r d s
  | .step r d => Sys2Proof.Machine.execStep r d s
  | .abort r d => Sys2Proof.Machine.execAbort r d s
  | .realign r d => Sys2Proof.Machine.execRealign r d s
  | .clipFactor r d => Sys2Proof.Machine.execClipFactor r d s
  | .ringAdvance r d => Sys2Proof.Machine.execRingAdvance r d s
  | .shardMap r d => Sys2Proof.Machine.execShardMap r d s
  | .rankTable r d => Sys2Proof.Machine.execRankTable r d s
  | .rankMove r d => Sys2Proof.Machine.execRankMove r d s
  | .paramLoad r d => Sys2Proof.Machine.execParamLoad r d s
  | .paramRead r d => Sys2Proof.Machine.execParamRead r d s
  | .copyDescriptor r d => Sys2Proof.Machine.execCopyDescriptor r d s
  | .fillDescriptor r d => Sys2Proof.Machine.execFillDescriptor r d s
  | .snapshot r d => Sys2Proof.Machine.execSnapshot r d s
  | .restore r d => Sys2Proof.Machine.execRestore r d s
  | .talusLend r d => Sys2Proof.Machine.execTalusLend r d s
  | .talusEnd r d => Sys2Proof.Machine.execTalusEnd r d s
  | .talusBind r d => Sys2Proof.Machine.execTalusBind r d s
  | .talusRevoke r d => Sys2Proof.Machine.execTalusRevoke r d s
  | .powerState r d => Sys2Proof.Machine.execPowerState r d s
  | .quiesce r d => Sys2Proof.Machine.execQuiesce r d s
  | .hbmRepair r d => Sys2Proof.Machine.execHbmRepair r d s
  | .firmware r d => Sys2Proof.Machine.execFirmware r d s
  | .peerLost r d => Sys2Proof.Machine.execPeerLost r d s
  | .quiesceDrained => Sys2Proof.Machine.execQuiesceDrained s
  | .powerTransition => Sys2Proof.Machine.execPowerTransition s
  | .frame p frame => Sys2Proof.Machine.execFrame p frame s
  | .frameRetryExhausted p => Sys2Proof.Machine.execFrameRetryExhausted p s
  | .bucketPacket p k => Sys2Proof.Machine.execBucketPacket p k s
  | .fsendData p k => Sys2Proof.Machine.execFsendData p k s
  | .gatherData p k => Sys2Proof.Machine.execGatherData p k s
  | .ostageData p k => Sys2Proof.Machine.execOstageData p k s
  | .snapshotCopy p k => Sys2Proof.Machine.execSnapshotCopy p k s
  | .talusReadRequest p k => Sys2Proof.Machine.execTalusReadRequest p k s
  | .talusReadReply p k => Sys2Proof.Machine.execTalusReadReply p k s
  | .talusWrite p k => Sys2Proof.Machine.execTalusWrite p k s
  | .talusRefusal p k => Sys2Proof.Machine.execTalusRefusal p k s
  | .collectiveData p k => Sys2Proof.Machine.execCollectiveData p k s
  | .beacon p k => Sys2Proof.Machine.execBeacon p k s
  | .barrierArrive p k => Sys2Proof.Machine.execBarrierArrive p k s
  | .barrierRelease p k => Sys2Proof.Machine.execBarrierRelease p k s
  | .verdictContribution p k => Sys2Proof.Machine.execVerdictContribution p k s
  | .verdict p k => Sys2Proof.Machine.execVerdict p k s
  | .rankMovePacket p k => Sys2Proof.Machine.execRankMovePacket p k s
  | .identityQuery p k => Sys2Proof.Machine.execIdentityQuery p k s
  | .identityReply p k => Sys2Proof.Machine.execIdentityReply p k s
  | .resetPacket p k => Sys2Proof.Machine.execResetPacket p k s
  | .acknowledgement p k => Sys2Proof.Machine.execAcknowledgement p k s
  | .unreachableNotice p k => Sys2Proof.Machine.execUnreachableNotice p k s
  | .controlPacketResend seq => Sys2Proof.Machine.execControlPacketResend seq s
  | .heldPacketRelease l => Sys2Proof.Machine.execHeldPacketRelease l s
  | .meshLinkFailure a b => Sys2Proof.Machine.execMeshLinkFailure a b s
  | .mergeEntryRetire m => Sys2Proof.Machine.execMergeEntryRetire m s
  | .beaconLoss => Sys2Proof.Machine.execBeaconLoss s
  | .partnerDetected p generation => Sys2Proof.Machine.execPartnerDetected p generation s
  | .equaliseDone p tuned => Sys2Proof.Machine.execEqualiseDone p tuned s
  | .measureDone p rtt delay => Sys2Proof.Machine.execMeasureDone p rtt delay s
  | .presenceClose => Sys2Proof.Machine.execPresenceClose s
  | .presenceLoss => Sys2Proof.Machine.execPresenceLoss s
  | .inputPowerLoss => Sys2Proof.Machine.execInputPowerLoss s
  | .enterPowered => Sys2Proof.Machine.execEnterPowered s
  | .cairnBoot errA errB => Sys2Proof.Machine.execCairnBoot errA errB s
  | .stackPoisonDone m => Sys2Proof.Machine.execStackPoisonDone m s
  | .linkTrained revision reversed => Sys2Proof.Machine.execLinkTrained revision reversed s
  | .linkDown => Sys2Proof.Machine.execLinkDown s
  | .resetDone die => Sys2Proof.Machine.execResetDone die s
  | .supplyDip sample => Sys2Proof.Machine.execSupplyDip sample s
  | .supplyDipEnd lowest duration => Sys2Proof.Machine.execSupplyDipEnd lowest duration s
  | .supplyLow lowest duration => Sys2Proof.Machine.execSupplyLow lowest duration s
  | .overVoltage highest => Sys2Proof.Machine.execOverVoltage highest s
  | .trip temperature sensor value => Sys2Proof.Machine.execTrip temperature sensor value s
  | .sensorSample sensor reading => Sys2Proof.Machine.execSensorSample sensor reading s
  | .coolantEvent kind reading => Sys2Proof.Machine.execCoolantEvent kind reading s
  | .powerWarning average => Sys2Proof.Machine.execPowerWarning average s
  | .processorRestart p => Sys2Proof.Machine.execProcessorRestart p s
  | .crestPeriod v => Sys2Proof.Machine.execCrestPeriod v s
  | .crestControl v => Sys2Proof.Machine.execCrestControl v s
  | .arrayCurrentControl v => Sys2Proof.Machine.execArrayCurrentControl v s
  | .batchingWait v => Sys2Proof.Machine.execBatchingWait v s
  | .zeroStreakThreshold v => Sys2Proof.Machine.execZeroStreakThreshold v s
  | .cReset v => Sys2Proof.Machine.execCReset v s
  | .mReset v => Sys2Proof.Machine.execMReset v s
  | .lReset v => Sys2Proof.Machine.execLReset v s
  | .deviceReset v => Sys2Proof.Machine.execDeviceReset v s
  | .coreExchange v => Sys2Proof.Machine.execCoreExchange v s
  | .coreFailed die v => Sys2Proof.Machine.execCoreFailed die v s
  | .ringEnable ring v => Sys2Proof.Machine.execRingEnable ring v s
  | .ringDisable ring v => Sys2Proof.Machine.execRingDisable ring v s
  | .moduleEnable v => Sys2Proof.Machine.execModuleEnable v s
  | .supplyThermalControl v => Sys2Proof.Machine.execSupplyThermalControl v s
  | .fabricAddress v => Sys2Proof.Machine.execFabricAddress v s
  | .portEnable p v => Sys2Proof.Machine.execPortEnable p v s
  | .portDisable p v => Sys2Proof.Machine.execPortDisable p v s
  | .errorStatusClear v => Sys2Proof.Machine.execErrorStatusClear v s
  | .countClear offset v => Sys2Proof.Machine.execCountClear offset v s
  | .registerWrite doorbell offset width v => Sys2Proof.Machine.execRegisterWrite doorbell offset width v s
  | .getReport v => Sys2Proof.Machine.execGetReport v s
  | .accept v => Sys2Proof.Machine.execAccept v s
  | .getCerts v => Sys2Proof.Machine.execGetCerts v s
  | .getStatus v => Sys2Proof.Machine.execGetStatus v s
  | .stageImage v => Sys2Proof.Machine.execStageImage v s
  | .commitVersion v => Sys2Proof.Machine.execCommitVersion v s
  | .setBootSlot v => Sys2Proof.Machine.execSetBootSlot v s
  | .revokeKey v => Sys2Proof.Machine.execRevokeKey v s
  | .unknownMailboxCommand v => Sys2Proof.Machine.execUnknownMailboxCommand v s
  | .setEndpointId msg => Sys2Proof.Machine.execSetEndpointId msg s
  | .getEndpointId msg => Sys2Proof.Machine.execGetEndpointId msg s
  | .getMctpVersionSupport msg => Sys2Proof.Machine.execGetMctpVersionSupport msg s
  | .getMessageTypeSupport msg => Sys2Proof.Machine.execGetMessageTypeSupport msg s
  | .getVendorDefinedMessageSupport msg => Sys2Proof.Machine.execGetVendorDefinedMessageSupport msg s
  | .unsupportedControlCommand msg => Sys2Proof.Machine.execUnsupportedControlCommand msg s
  | .getState msg => Sys2Proof.Machine.execGetState msg s
  | .powerEnable msg => Sys2Proof.Machine.execPowerEnable msg s
  | .powerDisable msg => Sys2Proof.Machine.execPowerDisable msg s
  | .readFru msg => Sys2Proof.Machine.execReadFru msg s
  | .readSensors msg => Sys2Proof.Machine.execReadSensors msg s
  | .readInput msg => Sys2Proof.Machine.execReadInput msg s
  | .readTrip msg => Sys2Proof.Machine.execReadTrip msg s
  | .clearTrip msg => Sys2Proof.Machine.execClearTrip msg s
  | .sidebandControllerStart ga gap => Sys2Proof.Machine.execSidebandControllerStart ga gap s
  | .pchgBreak => Sys2Proof.Machine.execPchgBreak s
  | .stackFault m reason => Sys2Proof.Machine.execStackFault m reason s
  | .firewalledAccess p => Sys2Proof.Machine.execFirewalledAccess p s
  | .descriptorWorkDone r kind => Sys2Proof.Machine.execDescriptorWorkDone r kind s
  | .mailboxResult => Sys2Proof.Machine.execMailboxResult s
  | .mdieWordFinish m => Sys2Proof.Machine.execMdieWordFinish m s

end Sys2Proof.Machine
end

