-- ==== Sys2Proof/Machine/Transposer.lean ====
section
/-! DEFINITION. The transposing mover of an M-die (R138). R324 and R381 give it no word of an M-die program, so no command of the table drives
it; its operation is here, with what it is told as plain arguments (assumption log 68). -/

namespace Sys2Proof.Machine

/-- What a transposing mover is told (R138): a source of rows × cols elements by rows, binary32 or bfloat16, the MX format of the copy (R86's
codes), and where its element and scale arrays go. The copy is by columns: row j of the copy holds the `rows` elements of column j. -/
structure MxCopy where
  wide : Bool
  source : Nat
  rows : Nat
  cols : Nat
  fmt : Nat
  dest : Nat
  scales : Nat
  deriving DecidableEq, Repr

/-- Bytes of one source element. -/
def MxCopy.width (t : MxCopy) : Nat := if t.wide then 4 else 2

/-- Column j of the source: its values with their stain. -/
def MxCopy.column (t : MxCopy) (s : State) (j : Nat) : List (Val × Bool) :=
  (List.range t.rows).map fun i =>
    let e := numOf (s.load (t.source + (i * t.cols + j) * t.width) t.width)
    (if t.wide then f32 e.1 else fpBF16.decode e.1, e.2)

/-- A row of the copy: the scale code of each 32-element block, the element codes, and the stain of each (R93). -/
def mxRow (fmt : Nat) (vs : List (Val × Bool)) : List (Nat × Bool) × List (Nat × Bool) :=
  let blocks := (List.range (vs.length / 32)).map fun b => (vs.drop (32 * b)).take 32
  let coded := blocks.map fun b => (convertBlock fmt (b.map fun v => (v.1, .nearest)), b)
  (coded.map fun c => (c.1.1, c.2.any Prod.snd), coded.flatMap fun c => List.zipWith (fun e v => (e, v.2)) c.1.2 c.2)

/-- The bytes of packed elements (R92): a byte is stained by any element that has a bit in it. -/
def mxBytes (fmt : Nat) (es : List (Nat × Bool)) : List (Byte × Bool) :=
  let w := elemBits fmt
  let v := es.zipIdx.foldl (fun v (e, i) => v + e.1 <<< (w * i)) 0
  (List.range (es.length * w / 8)).map fun k =>
    (BitVec.ofNat 8 (v >>> (8 * k)), es.zipIdx.any fun (e, i) => e.2 && decide (w * i < 8 * (k + 1)) && decide (8 * k < w * (i + 1)))

/-- One row of the copy written: its elements and its scales. -/
def MxCopy.putRow (t : MxCopy) (s : State) (j : Nat) (vs : List (Val × Bool)) : State :=
  let (scales, es) := mxRow t.fmt vs
  (s.put 0 (t.dest + j * (t.rows * elemBits t.fmt / 8)) (mxBytes t.fmt es)).put 0 (t.scales + j * (t.rows / 32))
    (scales.map fun c => (BitVec.ofNat 8 c.1, c.2))

/-- The copy of a tensor in a step (R89, R93, R138): round to nearest even; NONFINITE is the step's where an unstained value is NaN or infinite.
A copy whose column is no multiple of 32 elements long, or whose elements start on no 64-byte boundary, writes nothing (R92). -/
def State.transposeMx (s : State) (step : Nat) (t : MxCopy) : State :=
  if !isMX t.fmt || t.rows % 32 != 0 || t.dest % 64 != 0 then s
  else
    let cols := (List.range t.cols).map fun j => t.column s j
    let s := s.noteRead t.source (t.rows * t.cols * t.width)
    let s := cols.zipIdx.foldl (fun s (vs, j) => t.putRow s j vs) s
    if cols.any fun vs => vs.any fun v => !v.2 && !v.1.isFinite then s.raiseStep step fNonfinite else s

end Sys2Proof.Machine
end

