-- ==== Sys2Proof/WellFormed.lean ====
section
/-! DEFINITION. The check of a command on its operands alone: a word that the plan load accepts by itself (R217, R220, R324, R381), a
packet, descriptor or code of the row's own kind (R411, R458, R562, R589–R591), a die, ring, port or sensor that the module has. -/

namespace Sys2Proof

/-- Whether a command is one that can reach the module under its row. -/
def Instr.wf : Instr → Bool
  | .nop _ w => Machine.wordStatus .nop w.toNat == none
  | .cbegin _ w => Machine.wordStatus .cbegin w.toNat == none
  | .cend _ w => Machine.wordStatus .cend w.toNat == none
  | .loop _ w => Machine.wordStatus .loop w.toNat == none
  | .twait _ w => Machine.wordStatus .twait w.toNat == none
  | .tsig _ w => Machine.wordStatus .tsig w.toNat == none
  | .sli _ w => Machine.wordStatus .sli w.toNat == none
  | .salu _ w => Machine.wordStatus .salu w.toNat == none
  | .sld _ w => Machine.wordStatus .sld w.toNat == none
  | .sst _ w => Machine.wordStatus .sst w.toNat == none
  | .sid _ w => Machine.wordStatus .sid w.toNat == none
  | .sflag _ w => Machine.wordStatus .sflag w.toNat == none
  | .loadset _ w => Machine.wordStatus .loadset w.toNat == none
  | .pass _ w => Machine.wordStatus .pass w.toNat == none
  | .enq _ w => Machine.wordStatus .enq w.toNat == none
  | .flush _ w => Machine.wordStatus .flush w.toNat == none
  | .matvec c w => decide (30 ≤ c.toNat % 32) && Machine.wordStatus .matvec w.toNat == none
  | .tclr _ w => Machine.wordStatus .tclr w.toNat == none
  | .combine _ w => Machine.wordStatus .combine w.toNat == none
  | .vop _ w => Machine.wordStatus .vop w.toNat == none
  | .vcvt _ w => Machine.wordStatus .vcvt w.toNat == none
  | .vsplit _ w => Machine.wordStatus .vsplit w.toNat == none
  | .vperm _ w => Machine.wordStatus .vperm w.toNat == none
  | .vsetvl _ w => Machine.wordStatus .vsetvl w.toNat == none
  | .vmovs _ w => Machine.wordStatus .vmovs w.toNat == none
  | .vld _ w => Machine.wordStatus .vld w.toNat == none
  | .vst _ w => Machine.wordStatus .vst w.toNat == none
  | .kload _ w => Machine.wordStatus .kload w.toNat == none
  | .kapply _ w => Machine.wordStatus .kapply w.toNat == none
  | .rreg _ w => Machine.wordStatus .rreg w.toNat == none
  | .rtrow _ w => Machine.wordStatus .rtrow w.toNat == none
  | .wrun _ w => Machine.wordStatus .wrun w.toNat == none
  | .wpool _ w => Machine.wordStatus .wpool w.toNat == none
  | .copy _ w => Machine.wordStatus .copy w.toNat == none
  | .fill _ w => Machine.wordStatus .fill w.toNat == none
  | .dsplit _ w => Machine.wordStatus .dsplit w.toNat == none
  | .fsend _ w => Machine.wordStatus .fsend w.toNat == none
  | .frecv _ w => Machine.wordStatus .frecv w.toNat == none
  | .bsend _ w => Machine.wordStatus .bsend w.toNat == none
  | .kvread _ w => Machine.wordStatus .kvread w.toNat == none
  | .kvappend _ w => Machine.wordStatus .kvappend w.toNat == none
  | .kvflush _ w => Machine.wordStatus .kvflush w.toNat == none
  | .instructionComplete _ _ => true
  | .tokenWaitMet _ => true
  | .interlockRelease _ => true
  | .batchWaitExpiry _ => true
  | .blockFinish _ => true
  | .pack m w => decide (m.toNat < 12) && Machine.mwordStatus .pack w.toNat == none
  | .unpack m w => decide (m.toNat < 12) && Machine.mwordStatus .unpack w.toNat == none
  | .ship m w => decide (m.toNat < 12) && Machine.mwordStatus .ship w.toNat == none
  | .fetch m w => decide (m.toNat < 12) && Machine.mwordStatus .fetch w.toNat == none
  | .fwait m w => decide (m.toNat < 12) && Machine.mwordStatus .fwait w.toNat == none
  | .update m w => decide (m.toNat < 12) && Machine.mwordStatus .update w.toNat == none
  | .vcontrib m w => decide (m.toNat < 12) && Machine.mwordStatus .vcontrib w.toNat == none
  | .rerun m w => decide (m.toNat < 12) && Machine.mwordStatus .rerun w.toNat == none
  | .ostage m w => decide (m.toNat < 12) && Machine.mwordStatus .ostage w.toNat == none
  | .gather m w => decide (m.toNat < 12) && Machine.mwordStatus .gather w.toNat == none
  | .cwait m w => decide (m.toNat < 12) && Machine.mwordStatus .cwait w.toNat == none
  | .mdieWaitMet m => decide (m.toNat < 12)
  | .crestBoundary => true
  | .lateWorkFinish _ => true
  | .overrunRepeat _ => true
  | .stepCompletion _ => true
  | .normPartial _ _ => true
  | .submissionDoorbell _ _ => true
  | .completionDoorbell _ _ => true
  | .eventDoorbell _ => true
  | .descriptorFetch _ => true
  | .hostReadCompletion _ _ _ => true
  | .irqHoldoffExpiry ring => decide (16 ≤ ring.toNat) && decide (ring.toNat ≤ 20)
  | .planLoad _ d => Machine.fld d.toNat 0 8 == 0x01
  | .planUnload _ d => Machine.fld d.toNat 0 8 == 0x02
  | .step _ d => Machine.fld d.toNat 0 8 == 0x03
  | .abort _ d => Machine.fld d.toNat 0 8 == 0x04
  | .realign _ d => Machine.fld d.toNat 0 8 == 0x05
  | .clipFactor _ d => Machine.fld d.toNat 0 8 == 0x06
  | .ringAdvance _ d => Machine.fld d.toNat 0 8 == 0x07
  | .shardMap _ d => Machine.fld d.toNat 0 8 == 0x08
  | .rankTable _ d => Machine.fld d.toNat 0 8 == 0x09
  | .rankMove _ d => Machine.fld d.toNat 0 8 == 0x0A
  | .paramLoad _ d => Machine.fld d.toNat 0 8 == 0x0B
  | .paramRead _ d => Machine.fld d.toNat 0 8 == 0x0C
  | .copyDescriptor _ d => Machine.fld d.toNat 0 8 == 0x0D
  | .fillDescriptor _ d => Machine.fld d.toNat 0 8 == 0x0E
  | .snapshot _ d => Machine.fld d.toNat 0 8 == 0x0F
  | .restore _ d => Machine.fld d.toNat 0 8 == 0x10
  | .talusLend _ d => Machine.fld d.toNat 0 8 == 0x11
  | .talusEnd _ d => Machine.fld d.toNat 0 8 == 0x12
  | .talusBind _ d => Machine.fld d.toNat 0 8 == 0x13
  | .talusRevoke _ d => Machine.fld d.toNat 0 8 == 0x14
  | .powerState _ d => Machine.fld d.toNat 0 8 == 0x15
  | .quiesce _ d => Machine.fld d.toNat 0 8 == 0x16
  | .hbmRepair _ d => Machine.fld d.toNat 0 8 == 0x17
  | .firmware _ d => Machine.fld d.toNat 0 8 == 0x18
  | .peerLost _ d => Machine.fld d.toNat 0 8 == 0x19
  | .quiesceDrained => true
  | .powerTransition => true
  | .frame _ _ => true
  | .frameRetryExhausted _ => true
  | .bucketPacket _ k => k.type == 0x10
  | .fsendData _ k => k.type == 0x01
  | .gatherData _ k => k.type == 0x02
  | .ostageData _ k => k.type == 0x11
  | .snapshotCopy _ k => k.type == 0x03
  | .talusReadRequest _ k => k.type == 0x04
  | .talusReadReply _ k => k.type == 0x05
  | .talusWrite _ k => k.type == 0x06
  | .talusRefusal _ k => k.type == 0x07
  | .collectiveData _ k => k.type == 0x08
  | .beacon _ k => k.type == 0x20
  | .barrierArrive _ k => k.type == 0x21
  | .barrierRelease _ k => k.type == 0x22
  | .verdictContribution _ k => k.type == 0x23
  | .verdict _ k => k.type == 0x24
  | .rankMovePacket _ k => k.type == 0x25
  | .identityQuery _ k => k.type == 0x26
  | .identityReply _ k => k.type == 0x27
  | .resetPacket _ k => k.type == 0x28
  | .acknowledgement _ k => k.type == 0x29
  | .unreachableNotice _ k => k.type == 0x2A
  | .controlPacketResend _ => true
  | .heldPacketRelease _ => true
  | .meshLinkFailure a b => Machine.meshLinked a.toNat b.toNat
  | .mergeEntryRetire m => decide (m.toNat < 12)
  | .beaconLoss => true
  | .partnerDetected _ generation => decide (2 ≤ generation.toNat)
  | .equaliseDone _ _ => true
  | .measureDone _ _ _ => true
  | .presenceClose => true
  | .presenceLoss => true
  | .inputPowerLoss => true
  | .enterPowered => true
  | .cairnBoot _ _ => true
  | .stackPoisonDone m => decide (m.toNat < 12)
  | .linkTrained revision _ => revision != 0
  | .linkDown => true
  | .resetDone die => decide (die.toNat ≤ 24)
  | .supplyDip _ => true
  | .supplyDipEnd _ _ => true
  | .supplyLow _ _ => true
  | .overVoltage _ => true
  | .trip temperature sensor _ => !temperature || decide (sensor.toNat ≤ 48)
  | .sensorSample sensor _ => decide (sensor.toNat ≤ 67)
  | .coolantEvent _ _ => true
  | .powerWarning _ => true
  | .processorRestart _ => true
  | .crestPeriod _ => true
  | .crestControl _ => true
  | .arrayCurrentControl _ => true
  | .batchingWait _ => true
  | .zeroStreakThreshold _ => true
  | .cReset _ => true
  | .mReset _ => true
  | .lReset _ => true
  | .deviceReset _ => true
  | .coreExchange _ => true
  | .coreFailed _ _ => true
  | .ringEnable ring _ => decide (ring.toNat ≤ 20)
  | .ringDisable ring _ => decide (ring.toNat ≤ 20)
  | .moduleEnable _ => true
  | .supplyThermalControl _ => true
  | .fabricAddress _ => true
  | .portEnable _ _ => true
  | .portDisable _ _ => true
  | .errorStatusClear _ => true
  | .countClear _ _ => true
  | .registerWrite _ _ _ _ => true
  | .getReport v => Machine.fld v.toNat 0 8 == 1
  | .accept v => Machine.fld v.toNat 0 8 == 2
  | .getCerts v => Machine.fld v.toNat 0 8 == 3
  | .getStatus v => Machine.fld v.toNat 0 8 == 4
  | .stageImage v => Machine.fld v.toNat 0 8 == 5
  | .commitVersion v => Machine.fld v.toNat 0 8 == 6
  | .setBootSlot v => Machine.fld v.toNat 0 8 == 7
  | .revokeKey v => Machine.fld v.toNat 0 8 == 8
  | .unknownMailboxCommand v => Machine.fld v.toNat 0 8 == 0 || decide (8 < Machine.fld v.toNat 0 8)
  | .setEndpointId msg => Machine.controlRequest msg && Machine.msgByte msg 2 == 0x01
  | .getEndpointId msg => Machine.controlRequest msg && Machine.msgByte msg 2 == 0x02
  | .getMctpVersionSupport msg => Machine.controlRequest msg && Machine.msgByte msg 2 == 0x04
  | .getMessageTypeSupport msg => Machine.controlRequest msg && Machine.msgByte msg 2 == 0x05
  | .getVendorDefinedMessageSupport msg => Machine.controlRequest msg && Machine.msgByte msg 2 == 0x06
  | .unsupportedControlCommand msg => Machine.otherRequest msg
  | .getState msg => Machine.vendorRequest msg && Machine.msgByte msg 5 == 0x01
  | .powerEnable msg => Machine.vendorRequest msg && Machine.msgByte msg 5 == 0x02
  | .powerDisable msg => Machine.vendorRequest msg && Machine.msgByte msg 5 == 0x03
  | .readFru msg => Machine.vendorRequest msg && Machine.msgByte msg 5 == 0x04
  | .readSensors msg => Machine.vendorRequest msg && Machine.msgByte msg 5 == 0x05
  | .readInput msg => Machine.vendorRequest msg && Machine.msgByte msg 5 == 0x06
  | .readTrip msg => Machine.vendorRequest msg && Machine.msgByte msg 5 == 0x07
  | .clearTrip msg => Machine.vendorRequest msg && Machine.msgByte msg 5 == 0x08
  | .sidebandControllerStart _ _ => true
  | .pchgBreak => true
  | .stackFault m reason => decide (m.toNat < 12) && decide (reason.toNat ≤ 2)
  | .firewalledAccess _ => true
  | .descriptorWorkDone _ kind => Machine.timedKinds.contains kind.toNat || Machine.heldKinds.contains kind.toNat
  | .mailboxResult => true
  | .mdieWordFinish m => decide (m.toNat < 12)

end Sys2Proof
end

