-- ==== Sys2Proof/Safety.lean ====
section
/-! DEFINITION. The terms in which claims are made: the rows of each family by their codes, when an instruction may issue, the form that
every step keeps, and what a safe step is. -/

namespace Sys2Proof

/-! ### Rows of a family -/

/-- The command that carries a core instruction's word to a logical core. -/
def Machine.CoreOp.row (o : Machine.CoreOp) (c : BitVec 8) (w : IWord) : Instr :=
  match o with
  | .nop => .nop c w
  | .cbegin => .cbegin c w
  | .cend => .cend c w
  | .loop => .loop c w
  | .twait => .twait c w
  | .tsig => .tsig c w
  | .sli => .sli c w
  | .salu => .salu c w
  | .sld => .sld c w
  | .sst => .sst c w
  | .sid => .sid c w
  | .sflag => .sflag c w
  | .loadset => .loadset c w
  | .pass => .pass c w
  | .enq => .enq c w
  | .flush => .flush c w
  | .matvec => .matvec c w
  | .tclr => .tclr c w
  | .combine => .combine c w
  | .vop => .vop c w
  | .vcvt => .vcvt c w
  | .vsplit => .vsplit c w
  | .vperm => .vperm c w
  | .vsetvl => .vsetvl c w
  | .vmovs => .vmovs c w
  | .vld => .vld c w
  | .vst => .vst c w
  | .kload => .kload c w
  | .kapply => .kapply c w
  | .rreg => .rreg c w
  | .rtrow => .rtrow c w
  | .wrun => .wrun c w
  | .wpool => .wpool c w
  | .copy => .copy c w
  | .fill => .fill c w
  | .dsplit => .dsplit c w
  | .fsend => .fsend c w
  | .frecv => .frecv c w
  | .bsend => .bsend c w
  | .kvread => .kvread c w
  | .kvappend => .kvappend c w
  | .kvflush => .kvflush c w

/-- The command that carries a program word to an M-die. -/
def Machine.MOp.row (o : Machine.MOp) (m : BitVec 4) (w : IWord) : Instr :=
  match o with
  | .pack => .pack m w
  | .unpack => .unpack m w
  | .ship => .ship m w
  | .fetch => .fetch m w
  | .fwait => .fwait m w
  | .update => .update m w
  | .vcontrib => .vcontrib m w
  | .rerun => .rerun m w
  | .ostage => .ostage m w
  | .gather => .gather m w
  | .cwait => .cwait m w

/-- The command that carries a fetched descriptor, by the descriptor's kind (R460). -/
def descriptorRow (r : BitVec 4) (d : Desc) : Option Instr :=
  match Machine.fld d.toNat 0 8 with
  | 0x01 => some (.planLoad r d)
  | 0x02 => some (.planUnload r d)
  | 0x03 => some (.step r d)
  | 0x04 => some (.abort r d)
  | 0x05 => some (.realign r d)
  | 0x06 => some (.clipFactor r d)
  | 0x07 => some (.ringAdvance r d)
  | 0x08 => some (.shardMap r d)
  | 0x09 => some (.rankTable r d)
  | 0x0A => some (.rankMove r d)
  | 0x0B => some (.paramLoad r d)
  | 0x0C => some (.paramRead r d)
  | 0x0D => some (.copyDescriptor r d)
  | 0x0E => some (.fillDescriptor r d)
  | 0x0F => some (.snapshot r d)
  | 0x10 => some (.restore r d)
  | 0x11 => some (.talusLend r d)
  | 0x12 => some (.talusEnd r d)
  | 0x13 => some (.talusBind r d)
  | 0x14 => some (.talusRevoke r d)
  | 0x15 => some (.powerState r d)
  | 0x16 => some (.quiesce r d)
  | 0x17 => some (.hbmRepair r d)
  | 0x18 => some (.firmware r d)
  | 0x19 => some (.peerLost r d)
  | _ => none

/-- The command that carries a received packet, by the packet's type (R411, R412). -/
def packetRow (p : BitVec 5) (k : Packet) : Option Instr :=
  match k.type with
  | 0x10 => some (.bucketPacket p k)
  | 0x01 => some (.fsendData p k)
  | 0x02 => some (.gatherData p k)
  | 0x11 => some (.ostageData p k)
  | 0x03 => some (.snapshotCopy p k)
  | 0x04 => some (.talusReadRequest p k)
  | 0x05 => some (.talusReadReply p k)
  | 0x06 => some (.talusWrite p k)
  | 0x07 => some (.talusRefusal p k)
  | 0x08 => some (.collectiveData p k)
  | 0x20 => some (.beacon p k)
  | 0x21 => some (.barrierArrive p k)
  | 0x22 => some (.barrierRelease p k)
  | 0x23 => some (.verdictContribution p k)
  | 0x24 => some (.verdict p k)
  | 0x25 => some (.rankMovePacket p k)
  | 0x26 => some (.identityQuery p k)
  | 0x27 => some (.identityReply p k)
  | 0x28 => some (.resetPacket p k)
  | 0x29 => some (.acknowledgement p k)
  | 0x2A => some (.unreachableNotice p k)
  | _ => none

/-- The command of a write of MB_COMMAND, by its code (R562, R615). -/
def mailboxRow (v : Word) : Instr :=
  match Machine.fld v.toNat 0 8 with
  | 1 => .getReport v
  | 2 => .accept v
  | 3 => .getCerts v
  | 4 => .getStatus v
  | 5 => .stageImage v
  | 6 => .commitVersion v
  | 7 => .setBootSlot v
  | 8 => .revokeKey v
  | _ => .unknownMailboxCommand v

/-- The command of an MCTP control request, by its code (R589). -/
def controlMessageRow (msg : List Byte) : Instr :=
  match Machine.msgByte msg 2 with
  | 0x01 => .setEndpointId msg
  | 0x02 => .getEndpointId msg
  | 0x04 => .getMctpVersionSupport msg
  | 0x05 => .getMessageTypeSupport msg
  | 0x06 => .getVendorDefinedMessageSupport msg
  | _ => .unsupportedControlCommand msg

/-- The command of a Llynyar request, by its code (R591). -/
def vendorMessageRow (msg : List Byte) : Instr :=
  match Machine.msgByte msg 5 with
  | 0x01 => .getState msg
  | 0x02 => .powerEnable msg
  | 0x03 => .powerDisable msg
  | 0x04 => .readFru msg
  | 0x05 => .readSensors msg
  | 0x06 => .readInput msg
  | 0x07 => .readTrip msg
  | 0x08 => .clearTrip msg
  | _ => .unsupportedControlCommand msg

/-- The setup register that a command of its own row writes: its offset, and what the write does (R595, R596). -/
def registerRow : Instr → Option (Nat × (Machine.State → Machine.RegResult))
  | .crestPeriod v => some (0x200, Machine.writeCrestPeriod v.toNat)
  | .crestControl v => some (0x208, Machine.writeCrestControl v.toNat)
  | .arrayCurrentControl v => some (0x400, Machine.writeArrayCurrent v.toNat)
  | .batchingWait v => some (0x408, Machine.writeBatchWait v.toNat)
  | .zeroStreakThreshold v => some (0x410, Machine.writeThreshold v.toNat)
  | .cReset v => some (0x418, Machine.writeResetControl v.toNat)
  | .mReset v => some (0x418, Machine.writeResetControl v.toNat)
  | .lReset v => some (0x418, Machine.writeResetControl v.toNat)
  | .deviceReset v => some (0x418, Machine.writeResetControl v.toNat)
  | .coreExchange v => some (0x420, Machine.writeCoreExchange v.toNat)
  | .coreFailed die v => some (0x440 + 8 * die.toNat, Machine.writeCoreFailed die.toNat v.toNat)
  | .ringEnable ring v => some (0x1008 + 64 * ring.toNat, Machine.writeRingConfig ring.toNat v.toNat)
  | .ringDisable ring v => some (0x1008 + 64 * ring.toNat, Machine.writeRingConfig ring.toNat v.toNat)
  | .moduleEnable v => some (0x1600, Machine.writeModuleEnable v.toNat)
  | .supplyThermalControl v => some (0x2000, Machine.writeSupply v.toNat)
  | .fabricAddress v => some (0x3000, Machine.writeFabricAddress v.toNat)
  | .portEnable p v => some (0x3100 + 16 * p.toNat, Machine.writePortControl p.toNat v.toNat)
  | .portDisable p v => some (0x3100 + 16 * p.toNat, Machine.writePortControl p.toNat v.toNat)
  | .errorStatusClear v => some (0x4000, Machine.writeErrorStatus v.toNat)
  | .getReport v => some (0x5000, Machine.writeMailboxCommand v.toNat)
  | .accept v => some (0x5000, Machine.writeMailboxCommand v.toNat)
  | .getCerts v => some (0x5000, Machine.writeMailboxCommand v.toNat)
  | .getStatus v => some (0x5000, Machine.writeMailboxCommand v.toNat)
  | .stageImage v => some (0x5000, Machine.writeMailboxCommand v.toNat)
  | .commitVersion v => some (0x5000, Machine.writeMailboxCommand v.toNat)
  | .setBootSlot v => some (0x5000, Machine.writeMailboxCommand v.toNat)
  | .revokeKey v => some (0x5000, Machine.writeMailboxCommand v.toNat)
  | .unknownMailboxCommand v => some (0x5000, Machine.writeMailboxCommand v.toNat)
  | _ => none

namespace Machine

/-! ### Issue at a core -/

/-- Whether the two words of a core's next instruction show no error (R489). -/
def State.cleanFetch (s : State) (c : Nat) : Bool :=
  let k := s.core c
  k.imem.markAt (k.fetchAt k.index) == .clean && k.imem.markAt (k.fetchAt k.index + 8) == .clean

/-- Whether a core is free to take its next instruction, with clock and power, with a block of the crest, from an instruction memory that
shows no error there, and the step of that instruction is one whose work has effect (R59, R178, R223, R396, R489, R517). -/
def State.takes (s : State) (c : Nat) (t : Waiting) : Bool :=
  s.clocked && !s.blockless c && (s.core c).hold.isNone && !(s.core c).fetched && !s.fetchStained c && s.cleanFetch c &&
    (t.op.frame || !(s.stopped (s.issueOf c t).step || s.retires (s.issueOf c t)))

/-- Whether nothing holds an instruction at issue: its token wait is met and its token reads with good parity, no interlock holds it, an
SFLAG has nothing before it, and a TSIG has a mesh path (R38, R177, R214, R226, R228, R231, R492). A CEND always holds. -/
def State.unheld (s : State) (c : Nat) (t : Waiting) : Bool :=
  !(t.op == .tsig && s.partitioned && s.noPath (c / 32) (fld t.word 63 8 / 32)) &&
  !(s.core c).waitParity t && !((t.op == .twait || t.op == .frecv) && decide ((s.core c).token (waitToken t.word) < waitCount t.word)) &&
    !s.interlocked t.op (s.issueOf c t) && !(t.op == .sflag && !(s.core c).ops.isEmpty) && t.op != .cend

/-! ### Descriptors -/

/-- The checks of a descriptor by its kind, beside those of its reserved fields (R458–R461). -/
def descriptorChecks (kind : Nat) (s : State) (x : DescRef) : List (Bool × Nat) :=
  match kind with
  | 0x01 => checkPlanLoad s x
  | 0x02 => checkPlanUnload s x
  | 0x03 => checkStep s x
  | 0x04 => [(s.plan.isNone, stNoPlan)]
  | 0x05 => checkRealign s x
  | 0x06 => checkClip s x
  | 0x07 => checkRingAdvance s x
  | 0x08 => checkShardMap s x
  | 0x09 => checkRankTable s x
  | 0x0A => checkRankMove s x
  | 0x0B => checkParam s x
  | 0x0C => checkParam s x
  | 0x0D => checkCopyDesc s x
  | 0x0E => checkFillDesc s x
  | 0x0F => checkSnapshot s x
  | 0x10 => checkRestore s x
  | 0x11 => checkLend s x
  | 0x12 => [(x.f 64 32 == 0, stBadField)]
  | 0x13 => checkBind s x
  | 0x14 => [(s.plan.isNone, stNoPlan)]
  | 0x15 => checkPower s x
  | 0x16 => checkQuiesce s x
  | 0x17 => checkRepair s x
  | 0x18 => checkFirmware s x
  | 0x19 => checkPeerLost s x
  | _ => []

/-- What an accepted descriptor does at once, by its kind (R459). -/
def descriptorEffect (kind : Nat) (s : State) (x : DescRef) : State :=
  match kind with
  | 0x01 => actPlanLoad s x
  | 0x02 => s.atBoundary x (.unload x)
  | 0x03 => actStep s x
  | 0x04 => actAbort s x
  | 0x05 => s.atBoundary x (.realign (x.f 64 64) x)
  | 0x06 => actClip s x
  | 0x07 => s.atBoundary x (.ringAdvance (x.f 64 48) (x.f 128 32) (x.f 192 64) x)
  | 0x08 => actShardMap s x
  | 0x09 => actRankTable s x
  | 0x0A => actRankMove s x
  | 0x0B => actParamLoad s x
  | 0x0C => State.accept s x
  | 0x0D => State.accept s x
  | 0x0E => State.accept s x
  | 0x0F => actSnapshot s x
  | 0x10 => actRestore s x
  | 0x11 => actLend s x
  | 0x12 => actEnd s x
  | 0x13 => s.atBoundary x (.talusBind (x.f 64 18) x)
  | 0x14 => s.atBoundary x (.talusRevoke x)
  | 0x15 => s.atBoundary x (.power (x.f 64 3) x)
  | 0x16 => actQuiesce s x
  | 0x17 => State.accept s x
  | 0x18 => actFirmware s x
  | 0x19 => s.atBoundary x (.peerLost (x.f 64 17) x)
  | _ => s

/-! ### Packets -/

/-- What a good packet does at this module, by its type (R411, R412): p is the receiving port, all says whether its end-to-end CRC failed. -/
def packetEffect (type : Nat) (s : State) (p : Nat) (k : Packet) (all : Bool) : State :=
  let l := portDie p
  match type with
  | 0x10 => State.receiveBucket s l k all
  | 0x01 => State.receiveWrite s l k all
  | 0x02 => State.receiveWrite s l k all
  | 0x11 => State.receiveOstage s l k all
  | 0x03 => State.receiveSnapshot s l k all
  | 0x04 => State.serveRead s l k all
  | 0x05 => State.takeReply s l k all
  | 0x06 => State.serveWrite s l k all
  | 0x07 => State.takeRefusal s l k all
  | 0x08 => State.takeCollective s l k all
  | 0x20 => State.takeBeacon s p k
  | 0x21 => State.takeArrivals s l k all
  | 0x22 => State.takeRelease s l k all
  | 0x23 => State.takeAcked 0x23 s l k all
  | 0x24 => State.takeAcked 0x24 s l k all
  | 0x25 => State.takeAcked 0x25 s l k all
  | 0x26 => State.takeAcked 0x26 s l k all
  | 0x27 => State.takeAcked 0x27 s l k all
  | 0x28 => State.takeReset s l k all
  | 0x29 => State.takeAck s l k all
  | 0x2A => s.loseAddress k.source
  | _ => s

/-! ### The form that every step keeps -/

/-- The canonical form of the module's memories and of its per-core, per-M-die and per-ring maps. -/
def State.canonical (s : State) : Bool := s.mem.wf && s.tiles.wf

/-- A command that the module answers with a next state. -/
def safe (o : Host.Outcome State Fault Refusal) : Prop := ∃ t, o = .next t

end Machine

end Sys2Proof
end

