-- ==== Sys2Proof/Certificates/Slice0/Obligations.lean ====
section
/-! DEFINITION. The statements for the provers. -/

open Sys2Proof Sys2Proof.Machine

/-- A step is exec of the front command on the queue's rest (R50, R54). For every state: when the queue is c :: rest, step answers exec c of
the state with the queue's rest; on an empty queue it answers the same state (the queue is the model's own, log entry 1). -/
def Obligations.StepRunsFrontCommand : Prop :=
  (∀ (i : Instr) (rest : List Instr) (s : State), s.pending = i :: rest → step s = exec i { s with pending := rest }) ∧
    ∀ s : State, s.pending = [] → step s = .next s

/-- What reset leaves, where the spec gives the value (R51, R52, R146, R155, R183, R184, R226, R228, R399, R402, R476, R493). After reset
the crest period is 8,000 ns and the counter 0, alignment is off, no plan is loaded, the module is POWERED and READY with all 12 stacks
being poisoned, every ring and port is at its reset value, tokens are 0, scalar and vector registers and all of memory read as stained,
memory's data bits are 0, L is 128, and the array current control, batching wait and threshold have their reset values. -/
def Obligations.ResetState : Prop :=
  State.reset.crest.period = 8000 ∧ State.reset.crest.counter = 0 ∧ bit State.reset.crest.control 0 = false ∧
    State.reset.plan = none ∧ State.reset.pending = [] ∧
    State.reset.power.hot = .powered ∧ State.reset.power.state = .ready ∧ State.reset.power.poisoning = List.range 12 ∧
    (∀ i, State.reset.ring i = Ring.init) ∧ (∀ p, (State.reset.port p).state = .disabled) ∧
    (∀ c k, (State.reset.core c).token k = 0) ∧ (∀ c r, (State.reset.core c).sstain r = true) ∧
    (∀ c v j, (State.reset.core c).laneStain v j = true) ∧ (∀ c, (State.reset.core c).vl = 128) ∧
    (∀ a, State.reset.loadByte a = (0, true)) ∧ (∀ c t o n, ∀ b ∈ State.reset.tileLoad c t o n, b.2 = true) ∧
    fld State.reset.arrays.current 0 16 = 4096 ∧ fld State.reset.arrays.current 16 7 = 32 ∧
    fld State.reset.arrays.current 24 16 = 1024 ∧ fld State.reset.arrays.current 40 16 = 1024 ∧
    State.reset.arrays.batchWait = 1500 ∧ State.reset.arrays.threshold = 256

/-- The memories after reset are in canonical form (R153, R182, R493). State.reset.canonical holds: device memory and the tile buffers of
State.reset list rising addresses and nothing that equals what an unlisted address reads as. -/
def Obligations.ResetIsCanonical : Prop :=
  State.reset.canonical = true

/-- Every step keeps the memories in canonical form (R154, R493, R494, R495). For every state whose device memory and tile buffers are in
canonical form: if the step answers a next state, its memories are in canonical form, so that equal lists over the same layers are equal
memories. -/
def Obligations.StepKeepsCanonicalForm : Prop :=
  ∀ s t : State, s.canonical = true → step s = .next t → t.canonical = true

/-- Every well-formed command answers a next state, and nothing faults (R63, R221, R598). For every command whose operands are well formed,
in every state, exec answers a next state; no command faults in any state. -/
def Obligations.WellFormedCommandsAnswer : Prop :=
  (∀ (i : Instr) (s : State), i.wf = true → safe (exec i s)) ∧ ∀ (i : Instr) (s : State) (r : Fault), exec i s ≠ .fault r

/-- A word that a plan load refuses by itself never reaches a unit (R23, R217, R220, R324, R381). For each core instruction and each M-die
word: where the checks that depend on the word alone give a status, the row of that word is refused with that status; so is MATVEC in
the block of a general core, with BAD_FIELD (R23). The rules refuse such a word when its plan is loaded, so that no unit ever meets it;
that a command which carries it nevertheless is refused by name is the model's choice (log entry 4). -/
def Obligations.WordsRefusedAtLoad : Prop :=
  (∀ (o : CoreOp) (c : BitVec 8) (w : IWord) (s : State) (st : Nat), (o = .matvec → 30 ≤ c.toNat % 32) →
      wordStatus o w.toNat = some st → exec (o.row c w) s = .refused (.refusedAtLoad st)) ∧
    (∀ (c : BitVec 8) (w : IWord) (s : State), c.toNat % 32 < 30 → exec (.matvec c w) s = .refused (.refusedAtLoad stBadField)) ∧
    ∀ (o : MOp) (m : BitVec 4) (w : IWord) (s : State) (st : Nat), m.toNat < 12 →
      mwordStatus o w.toNat = some st → exec (o.row m w) s = .refused (.refusedAtLoad st)

/-- A core instruction that nothing holds and no check refuses is performed (R178, R218, R221, R226). For each of the 42 core instructions
but CEND, on a core that takes it, where nothing holds it and its issue checks pass: exec answers the state with the instruction
performed (its effect, and then its sig or, for a unit's operation, its place among the operations outstanding), after which the
instructions that wait behind it issue. -/
def Obligations.CoreInstructionsPerform : Prop :=
  ∀ (o : CoreOp) (c : BitVec 8) (w : IWord) (s : State), wordStatus o w.toNat = none → (o = .matvec → 30 ≤ c.toNat % 32) →
    s.takes c.toNat ⟨o, w.toNat⟩ = true → s.unheld c.toNat ⟨o, w.toNat⟩ = true →
    checkIssue o (s.issueOf c.toNat ⟨o, w.toNat⟩) s = none →
    exec (o.row c w) s =
      .next (State.drain drainFuel c.toNat (s.perform c.toNat ⟨o, w.toNat⟩ (s.issueOf c.toNat ⟨o, w.toNat⟩)))

/-- An instruction refused at issue writes nothing and stains the contribution (R221, R222). Where an issue check of a core instruction
gives a refusal and nothing waits behind it: exec answers a next state in which device memory, tile buffers and the scale ledger are as
before, no core's scalar or vector registers, slots, active length, sets, queue, row-live register, look-aside buffer or flags change,
an earlier first-refusal record is kept, and the contribution of a step in flight or of the next one submitted is marked stained. -/
def Obligations.RefusedInstructionWritesNothing : Prop :=
  ∀ (o : CoreOp) (c : BitVec 8) (w : IWord) (s : State) (r : IssueRefusal), wordStatus o w.toNat = none → (o = .matvec → 30 ≤ c.toNat % 32) →
    SMap.wf CoreState.init s.cores = true →
    s.takes c.toNat ⟨o, w.toNat⟩ = true → s.unheld c.toNat ⟨o, w.toNat⟩ = true → (s.core c.toNat).waiting = [] → (s.core c.toNat).loops = [] →
    checkIssue o (s.issueOf c.toNat ⟨o, w.toNat⟩) s = some r →
    ∃ t, exec (o.row c w) s = .next t ∧ t.mem = s.mem ∧ t.tiles = s.tiles ∧ t.scales = s.scales ∧
      (∀ d, (t.core d).sregs = (s.core d).sregs ∧ (t.core d).vregs = (s.core d).vregs ∧ (t.core d).kslots = (s.core d).kslots ∧
        (t.core d).vl = (s.core d).vl ∧ (t.core d).active = (s.core d).active ∧ (t.core d).loading = (s.core d).loading ∧
        (t.core d).batch = (s.core d).batch ∧ (t.core d).rowLive = (s.core d).rowLive ∧ (t.core d).lookAside = (s.core d).lookAside ∧
        (t.core d).flags0 = (s.core d).flags0 ∧ (t.core d).flags1 = (s.core d).flags1) ∧
      (bit s.err.refusal 30 = true → t.err.refusal = s.err.refusal) ∧
      (t.store.heldStain = true ∨ ∃ x ∈ t.steps, x.flying = true ∧ x.first.stain = true)

/-- An instruction of a step that is over, or of another variant, retires without effect; a core without a block or without clock takes none
(R38, R59, R217, R223, R226, R517, R626). On a core with clock, power and a block of the crest, whose instruction memory delivers the
word unstained, where the step rule of an instruction's step select or variant lets an instruction other than CBEGIN and CEND retire and
nothing waits behind it: exec answers a next state in which no memory, scale, step or mark has changed and no core has a register, slot,
set, queue, flag, operation, look-aside entry, instruction-memory byte or token that differs, but for the one token that the
instruction's own sig names: it is one more, stopping at 65,535, where the sig has a mesh path, and as before where it has none. A core
to which the running crest gives no unfinished block, or without clock, takes no instruction: exec answers the same state. That words
arrive as commands, that CBEGIN and CEND run whatever the step, and that a core without a block takes a word as no command at all, is
the model's reading (log entries 3 and 87). -/
def Obligations.StepSelectRetires : Prop :=
  (∀ (o : CoreOp) (c : BitVec 8) (w : IWord) (s : State), wordStatus o w.toNat = none → (o = .matvec → 30 ≤ c.toNat % 32) →
    SMap.wf CoreState.init s.cores = true → (∀ d, SMap.wf 0 (s.core d).tokens = true) → o.frame = false → s.clocked = true →
    s.blockless c.toNat = false → s.fetchStained c.toNat = false →
    (s.core c.toNat).hold = none → (s.core c.toNat).waiting = [] →
    (s.core c.toNat).loops = [] → s.stopped (s.issueOf c.toNat ⟨o, w.toNat⟩).step = false →
    s.retires (s.issueOf c.toNat ⟨o, w.toNat⟩) = true →
    ∃ t, exec (o.row c w) s = .next t ∧ t.mem = s.mem ∧ t.tiles = s.tiles ∧ t.scales = s.scales ∧ t.steps = s.steps ∧ t.store = s.store ∧
      (∀ d, (t.core d).sregs = (s.core d).sregs ∧ (t.core d).vregs = (s.core d).vregs ∧ (t.core d).vl = (s.core d).vl ∧
        (t.core d).kslots = (s.core d).kslots ∧ (t.core d).active = (s.core d).active ∧ (t.core d).loading = (s.core d).loading ∧
        (t.core d).batch = (s.core d).batch ∧ (t.core d).rowLive = (s.core d).rowLive ∧ (t.core d).lookAside = (s.core d).lookAside ∧
        (t.core d).flags0 = (s.core d).flags0 ∧ (t.core d).flags1 = (s.core d).flags1 ∧ (t.core d).ops = (s.core d).ops ∧
        (t.core d).imem = (s.core d).imem ∧ (t.core d).half = (s.core d).half ∧ (t.core d).ahead = (s.core d).ahead ∧
        (d ≠ c.toNat → (t.core d).index = (s.core d).index ∧ (t.core d).loops = (s.core d).loops ∧ (t.core d).hold = (s.core d).hold ∧
          (t.core d).waiting = (s.core d).waiting ∧ (t.core d).fetched = (s.core d).fetched)) ∧
      (∀ d k, (Word.sig w.toNat = true → d = Word.sigCore w.toNat → k = Word.sigToken w.toNat → s.sigHeld c.toNat w.toNat = true) →
        (t.core d).token k = (s.core d).token k) ∧
      (Word.sig w.toNat = true → s.sigHeld c.toNat w.toNat = false →
        (t.core (Word.sigCore w.toNat)).token (Word.sigToken w.toNat) =
          min 65535 ((s.core (Word.sigCore w.toNat)).token (Word.sigToken w.toNat) + 1))) ∧
  ∀ (o : CoreOp) (c : BitVec 8) (w : IWord) (s : State), wordStatus o w.toNat = none → (o = .matvec → 30 ≤ c.toNat % 32) →
    (s.blockless c.toNat = true ∨ s.clocked = false) → exec (o.row c w) s = .next s

/-- SLI, SALU, SLD, SID and SFLAG write one scalar register and leave the rest (R224, R225, R228, R231, R232). For each of SLI, SALU, SLD,
SID and SFLAG that is taken, unheld and unrefused with nothing waiting behind it: exec answers a next state in which register sd holds
the value and stain that the rule gives (SLI the immediate, unstained; SALU its function, stained where an operand is; SLD the word of
the core store with its stain; SID the identity value, unstained; SFLAG the flag bank of its step, unstained), every other scalar
register, all vector registers, slots and flags of the core, device memory and tile buffers are as before. -/
def Obligations.ScalarInstructionsWriteTheirRegister : Prop :=
  ∀ (o : CoreOp) (c : BitVec 8) (w : IWord) (s : State) (v : Nat) (b : Bool), wordStatus o w.toNat = none →
    SMap.wf CoreState.init s.cores = true → SMap.wf (0, true) (s.core c.toNat).sregs = true →
    s.takes c.toNat ⟨o, w.toNat⟩ = true → s.unheld c.toNat ⟨o, w.toNat⟩ = true → (s.core c.toNat).waiting = [] → (s.core c.toNat).loops = [] →
    checkIssue o (s.issueOf c.toNat ⟨o, w.toNat⟩) s = none →
    ((o = .sli ∧ v = fld w.toNat 64 64 ∧ b = false) ∨
      (o = .salu ∧ v = salu (fld w.toNat 57 4) ((s.core c.toNat).sval (Word.slot w.toNat 1)) (saluSecond (s.issueOf c.toNat ⟨o, w.toNat⟩) s).1 ∧
        b = ((s.core c.toNat).sstain (Word.slot w.toNat 1) || (saluSecond (s.issueOf c.toNat ⟨o, w.toNat⟩) s).2)) ∨
      (o = .sld ∧ v = s.num (storeAddr c.toNat (sldOffset (s.issueOf c.toNat ⟨o, w.toNat⟩) s)) 8 ∧
        b = s.stainedAt (storeAddr c.toNat (sldOffset (s.issueOf c.toNat ⟨o, w.toNat⟩) s)) 8) ∨
      (o = .sid ∧ v = sidValue (s.issueOf c.toNat ⟨o, w.toNat⟩) s ∧ b = false) ∨
      (o = .sflag ∧ v = (s.core c.toNat).bank (s.issueOf c.toNat ⟨o, w.toNat⟩).step ∧ b = false)) →
    ∃ t, exec (o.row c w) s = .next t ∧
      (t.core c.toNat).sval (Word.slot w.toNat 0) = v % 2 ^ 64 ∧ (t.core c.toNat).sstain (Word.slot w.toNat 0) = b ∧
      (∀ r, r ≠ Word.slot w.toNat 0 →
        (t.core c.toNat).sval r = (s.core c.toNat).sval r ∧ (t.core c.toNat).sstain r = (s.core c.toNat).sstain r) ∧
      (∀ d, d ≠ c.toNat → (t.core d).sregs = (s.core d).sregs) ∧
      (∀ d, (t.core d).vregs = (s.core d).vregs ∧ (t.core d).kslots = (s.core d).kslots ∧ (t.core d).flags0 = (s.core d).flags0 ∧
        (t.core d).flags1 = (s.core d).flags1 ∧ (t.core d).ops = (s.core d).ops) ∧
      t.mem = s.mem ∧ t.tiles = s.tiles

/-- The nine functions of SALU on 64-bit words (R232). For all 64-bit words a and b, SALU's functions 0 to 8 give a + b, a − b, a × b modulo
2^64, AND, OR, exclusive OR, and the shifts of a left, right logical and right arithmetic by b modulo 64. -/
def Obligations.SaluFunctions : Prop :=
  ∀ a b : Word, salu 0 a.toNat b.toNat = (a + b).toNat ∧ salu 1 a.toNat b.toNat = (a - b).toNat ∧ salu 2 a.toNat b.toNat = (a * b).toNat ∧
    salu 3 a.toNat b.toNat = (a &&& b).toNat ∧ salu 4 a.toNat b.toNat = (a ||| b).toNat ∧ salu 5 a.toNat b.toNat = (a ^^^ b).toNat ∧
    salu 6 a.toNat b.toNat = (a <<< (b.toNat % 64)).toNat ∧ salu 7 a.toNat b.toNat = (a >>> (b.toNat % 64)).toNat ∧
    salu 8 a.toNat b.toNat = (a.sshiftRight (b.toNat % 64)).toNat

/-- SST stores its register with its stain, and no other byte (R231, R232, R489, R495). An SST that is taken, unheld and unrefused with
nothing waiting behind it answers a next state in which the 8 bytes of the core store at base plus offset read as the source register,
little-endian, each with the register's stain; every byte of device memory outside them reads as before, bits and stain, and every tile
buffer and every core's scalar and vector registers are as before. -/
def Obligations.StoreWritesEightBytes : Prop :=
  ∀ (c : BitVec 8) (w : IWord) (s : State), wordStatus .sst w.toNat = none → s.mem.wf = true → SMap.wf CoreState.init s.cores = true →
    s.takes c.toNat ⟨.sst, w.toNat⟩ = true → s.unheld c.toNat ⟨.sst, w.toNat⟩ = true → (s.core c.toNat).waiting = [] →
    (s.core c.toNat).loops = [] → checkIssue .sst (s.issueOf c.toNat ⟨.sst, w.toNat⟩) s = none →
    ∃ t, exec (.sst c w) s = .next t ∧
      (∀ i, i < 8 → t.loadByte (storeAddr c.toNat (sldOffset (s.issueOf c.toNat ⟨.sst, w.toNat⟩) s) + i) =
        (BitVec.ofNat 8 ((s.core c.toNat).sval (Word.slot w.toNat 0) >>> (8 * i)), (s.core c.toNat).sstain (Word.slot w.toNat 0))) ∧
      (∀ a, a < storeAddr c.toNat (sldOffset (s.issueOf c.toNat ⟨.sst, w.toNat⟩) s) ∨
        storeAddr c.toNat (sldOffset (s.issueOf c.toNat ⟨.sst, w.toNat⟩) s) + 8 ≤ a → t.loadByte a = s.loadByte a) ∧
      t.tiles = s.tiles ∧ ∀ d, (t.core d).sregs = (s.core d).sregs ∧ (t.core d).vregs = (s.core d).vregs

/-- TSIG adds to a token, which stops at 65,535 (R226, R231). A TSIG without sig that is taken, unheld and with nothing waiting behind it
answers a next state in which the named token of the named core is the smaller of 65,535 and the sum; every other token, and all memory,
are as before. -/
def Obligations.TsigAddsAndSaturates : Prop :=
  ∀ (c : BitVec 8) (w : IWord) (s : State), wordStatus .tsig w.toNat = none → Word.sig w.toNat = false →
    SMap.wf CoreState.init s.cores = true → (∀ d, SMap.wf 0 (s.core d).tokens = true) →
    s.takes c.toNat ⟨.tsig, w.toNat⟩ = true → s.unheld c.toNat ⟨.tsig, w.toNat⟩ = true → (s.core c.toNat).waiting = [] →
    (s.core c.toNat).loops = [] →
    ∃ t, exec (.tsig c w) s = .next t ∧
      (t.core (fld w.toNat 63 8)).token (fld w.toNat 57 6) =
        min 65535 ((s.core (fld w.toNat 63 8)).token (fld w.toNat 57 6) + fld w.toNat 71 16) ∧
      (∀ d k, d ≠ fld w.toNat 63 8 ∨ k ≠ fld w.toNat 57 6 → (t.core d).token k = (s.core d).token k) ∧ t.mem = s.mem ∧ t.tiles = s.tiles

/-- TWAIT and FRECV subtract their threshold or hold the sequencer until it is reached (R226, R517). For TWAIT and FRECV on a core that
takes them, with the token's parity good and no interlock: where the token has reached n and nothing waits behind, exec answers a state
in which the token is less by n (the instruction's own sig apart); where it has not, exec answers a state in which the core holds on
that token and n with the instruction first among those that wait, and tokens and memory are as before; TOKEN_WAIT_MET on a core that so
holds leaves the state unchanged while the token is below n or the core has no clock, and otherwise lets issue resume. -/
def Obligations.TokenWaits : Prop :=
  (∀ (o : CoreOp) (c : BitVec 8) (w : IWord) (s : State), (o = .twait ∨ o = .frecv) → wordStatus o w.toNat = none →
      SMap.wf CoreState.init s.cores = true → SMap.wf 0 (s.core c.toNat).tokens = true →
      s.takes c.toNat ⟨o, w.toNat⟩ = true → (s.core c.toNat).waitParity ⟨o, w.toNat⟩ = false →
      s.interlocked o (s.issueOf c.toNat ⟨o, w.toNat⟩) = false →
      (waitCount w.toNat ≤ (s.core c.toNat).token (waitToken w.toNat) → Word.sig w.toNat = false →
        (s.core c.toNat).waiting = [] → (s.core c.toNat).loops = [] →
        ∃ t, exec (o.row c w) s = .next t ∧
          (t.core c.toNat).token (waitToken w.toNat) = (s.core c.toNat).token (waitToken w.toNat) - waitCount w.toNat ∧
          (t.core c.toNat).hold = none ∧ t.mem = s.mem ∧ t.tiles = s.tiles) ∧
      ((s.core c.toNat).token (waitToken w.toNat) < waitCount w.toNat →
        ∃ t, exec (o.row c w) s = .next t ∧ (t.core c.toNat).hold = some (.token (waitToken w.toNat) (waitCount w.toNat)) ∧
          (t.core c.toNat).waiting = ⟨o, w.toNat⟩ :: (s.core c.toNat).waiting ∧ (t.core c.toNat).tokens = (s.core c.toNat).tokens ∧
          t.mem = s.mem ∧ t.tiles = s.tiles)) ∧
    ∀ (c : BitVec 8) (s : State) (k n : Nat), (s.core c.toNat).hold = some (.token k n) →
      ((s.core c.toNat).token k < n ∨ s.clocked = false → exec (.tokenWaitMet c) s = .next s) ∧
      (s.clocked = true → n ≤ (s.core c.toNat).token k → exec (.tokenWaitMet c) s = .next (s.resume c.toNat))

/-- A LOOP opens a frame over its body, and the body runs again while iterations are left (R233). A LOOP without sig that is taken on a core
with nothing waiting and no loop open answers a state in which one loop is open from the next instruction over its body's length with
its count; and in the sequencer's position rule, after the last instruction of a body with more than one iteration left the whole body
waits again with one iteration fewer, and with one left the loop closes and the next index follows. -/
def Obligations.LoopsRunTheirBody : Prop :=
  (∀ (c : BitVec 8) (w : IWord) (s : State), wordStatus .loop w.toNat = none → Word.sig w.toNat = false → SMap.wf CoreState.init s.cores = true →
      s.takes c.toNat ⟨.loop, w.toNat⟩ = true → (s.core c.toNat).waiting = [] → (s.core c.toNat).loops = [] →
      s.interlocked .loop (s.issueOf c.toNat ⟨.loop, w.toNat⟩) = false →
      ∃ t, exec (.loop c w) s = .next t ∧ (t.core c.toNat).index = (s.core c.toNat).index + 1 ∧
        (t.core c.toNat).loops = [⟨(s.core c.toNat).index + 1, (s.core c.toNat).index + fld w.toNat 73 13, fld w.toNat 57 16, []⟩] ∧
        t.mem = s.mem ∧ t.tiles = s.tiles) ∧
    ∀ (f : LoopFrame) (fs : List LoopFrame),
      (1 < f.left → closeLoops f.last (f :: fs) = ({ f with left := f.left - 1 } :: fs, f.body, f.first)) ∧
      (f.left ≤ 1 → closeLoops f.last (f :: fs) = closeLoops f.last fs) ∧
      ∀ i, i ≠ f.last → closeLoops i (f :: fs) = (f :: fs, [], i + 1)

/-- VOP gives each active lane its operation, raises its flags and leaves every other lane (R181, R185, R188, R192, R193, R225). A VOP that
is taken, unheld, whose unit no transfer without a mesh path blocks, and with nothing waiting behind it answers a next state in which
each lane below L of vd holds the operation on the lanes of its operands as they were, stained where an operand that the operation reads
is stained; the flags that the lanes with an unstained result raise are ORed into the bank of the instruction's step, and into no other
bank; lanes from L on, every other vector register, scalar registers, memory and tile buffers are as before. -/
def Obligations.VectorLanes : Prop :=
  ∀ (c : BitVec 8) (w : IWord) (s : State), wordStatus .vop w.toNat = none → SMap.wf CoreState.init s.cores = true →
    SMap.wf (0, true) (s.core c.toNat).vregs = true → (s.core c.toNat).vl ≤ 128 →
    s.heldUp .vop (s.issueOf c.toNat ⟨.vop, w.toNat⟩) = false →
    s.takes c.toNat ⟨.vop, w.toNat⟩ = true → s.unheld c.toNat ⟨.vop, w.toNat⟩ = true → (s.core c.toNat).waiting = [] →
    (s.core c.toNat).loops = [] →
    ∃ t, exec (.vop c w) s = .next t ∧
      (∀ j, j < (s.core c.toNat).vl →
        (t.core c.toNat).lane (Word.slot w.toNat 0) j =
          (vopLane (fld w.toNat 57 6) (bit w.toNat 63) ((s.core c.toNat).lane (Word.slot w.toNat 1) j)
            ((s.core c.toNat).lane (Word.slot w.toNat 2) j) ((s.core c.toNat).lane (Word.slot w.toNat 3) j)).1 % 2 ^ 32 ∧
        (t.core c.toNat).laneStain (Word.slot w.toNat 0) j =
          ((s.core c.toNat).laneStain (Word.slot w.toNat 1) j ||
            (decide (1 < vopArity (fld w.toNat 57 6)) && (s.core c.toNat).laneStain (Word.slot w.toNat 2) j) ||
            (decide (2 < vopArity (fld w.toNat 57 6)) && (s.core c.toNat).laneStain (Word.slot w.toNat 3) j))) ∧
      (∀ v j, j < 128 → (v ≠ Word.slot w.toNat 0 ∨ (s.core c.toNat).vl ≤ j) →
        (t.core c.toNat).lane v j = (s.core c.toNat).lane v j ∧ (t.core c.toNat).laneStain v j = (s.core c.toNat).laneStain v j) ∧
      (t.core c.toNat).bank (s.issueOf c.toNat ⟨.vop, w.toNat⟩).step = (s.core c.toNat).bank (s.issueOf c.toNat ⟨.vop, w.toNat⟩).step |||
        ((List.range (s.core c.toNat).vl).filter fun j => !(t.core c.toNat).laneStain (Word.slot w.toNat 0) j).foldl (fun f j => f |||
          (vopLane (fld w.toNat 57 6) (bit w.toNat 63) ((s.core c.toNat).lane (Word.slot w.toNat 1) j)
            ((s.core c.toNat).lane (Word.slot w.toNat 2) j) ((s.core c.toNat).lane (Word.slot w.toNat 3) j)).2) 0 ∧
      (t.core c.toNat).bank ((s.issueOf c.toNat ⟨.vop, w.toNat⟩).step + 1) = (s.core c.toNat).bank ((s.issueOf c.toNat ⟨.vop, w.toNat⟩).step + 1) ∧
      (∀ d, d ≠ c.toNat → (t.core d).vregs = (s.core d).vregs ∧ (t.core d).flags0 = (s.core d).flags0 ∧ (t.core d).flags1 = (s.core d).flags1) ∧
      (∀ d, (t.core d).sregs = (s.core d).sregs) ∧ t.mem = s.mem ∧ t.tiles = s.tiles

/-- TCLR writes +0, unstained, to every lane of its handle and no other byte (R43, R153, R156). A TCLR that is taken, unheld, whose unit no
transfer without a mesh path blocks, and with nothing waiting behind it answers a next state in which every byte of rows 128h to 128h +
127 of the core's accumulator memory reads 0 and unstained, every byte of device memory outside them reads as before, bits and stain,
and every tile buffer and every core's scalar and vector registers are as before. -/
def Obligations.TclrClearsItsTile : Prop :=
  ∀ (c : BitVec 8) (w : IWord) (s : State), wordStatus .tclr w.toNat = none → s.mem.wf = true → SMap.wf CoreState.init s.cores = true →
    s.heldUp .tclr (s.issueOf c.toNat ⟨.tclr, w.toNat⟩) = false →
    s.takes c.toNat ⟨.tclr, w.toNat⟩ = true → s.unheld c.toNat ⟨.tclr, w.toNat⟩ = true → (s.core c.toNat).waiting = [] →
    (s.core c.toNat).loops = [] →
    ∃ t, exec (.tclr c w) s = .next t ∧
      (∀ r j, r < 128 → j < 128 → t.acc c.toNat (128 * fld w.toNat 57 5 + r) j = (0, false)) ∧
      (∀ a, a < accAddr c.toNat (128 * fld w.toNat 57 5) 0 ∨ accAddr c.toNat (128 * fld w.toNat 57 5) 0 + 65536 ≤ a →
        t.loadByte a = s.loadByte a) ∧
      t.tiles = s.tiles ∧ ∀ d, (t.core d).sregs = (s.core d).sregs ∧ (t.core d).vregs = (s.core d).vregs

/-- Operations complete and apply their sig, interlocks release, the batching queue issues on expiry, a block ends and finishes (R38, R57,
R130, R147, R148, R177, R218, R226, R229, R231, R496, R517). INSTRUCTION_COMPLETE of a unit with no operation begun at the core, or
whose first one the mesh holds (log entry 63), leaves the state unchanged, and so it does where a packet that the oldest operation sends
is not yet in a port buffer or its sig has no mesh path; otherwise, where the oldest operation that the unit has begun is p, exec
answers a state without p among the core's operations, with p's sig applied to its token (stopping at 65,535), on which a waiting SFLAG
may go on, and with every register and all memory as before, since an operation's effects are made at its issue (the model's choice, log
entry 21). Without clock the three rows that follow change nothing. INTERLOCK_RELEASE of a core whose held instruction meets no
outstanding operation any more issues that instruction: where its own checks pass and nothing else holds it, it is performed; it changes
nothing while the interlock stands. BATCH_WAIT_EXPIRY issues the batching queue, which is then empty with no operation still queued, and
no register or tile buffer changes: its pass was computed when the queue was issued (log entry 21). CEND issues the batching queue and
holds the core at the end of its block; BLOCK_FINISH does nothing while an operation of the core is outstanding, and otherwise retires
CEND: the core is no longer among the units with work and its position is the block's start. A block with no operation outstanding and
nothing batched runs CEND and BLOCK_FINISH to that end. -/
def Obligations.CoreEventRows : Prop :=
  (∀ (c : BitVec 8) (u : BitVec 4) (s : State),
      (takeOp u.toNat (s.core c.toNat).ops = none → exec (.instructionComplete c u) s = .next s) ∧
      ∀ p rest, takeOp u.toNat (s.core c.toNat).ops = some (p, rest) →
        p ∈ (s.core c.toNat).ops ∧ p.unit = u.toNat ∧ p.queued = false ∧ p.stuck = false ∧ rest.length + 1 = (s.core c.toNat).ops.length ∧
        (s.unsent p.sends = true ∨ s.sigHeld c.toNat p.word = true → exec (.instructionComplete c u) s = .next s) ∧
        (s.unsent p.sends = false → s.sigHeld c.toNat p.word = false → exec (.instructionComplete c u) s =
          .next ((((s.retireOwned p.key).onCore c.toNat fun k => { k with ops := rest }).signal p.word).afterComplete c.toNat)) ∧
        (s.unsent p.sends = false → s.sigHeld c.toNat p.word = false → SMap.wf CoreState.init s.cores = true → (∀ d, SMap.wf 0 (s.core d).tokens = true) → (s.core c.toNat).hold ≠ some .flags →
          ∃ t, exec (.instructionComplete c u) s = .next t ∧ (t.core c.toNat).ops = rest ∧
            (∀ d, (t.core d).sregs = (s.core d).sregs ∧ (t.core d).vregs = (s.core d).vregs) ∧ t.mem = s.mem ∧ t.tiles = s.tiles ∧
            (Word.sig p.word = false → ∀ d, (t.core d).tokens = (s.core d).tokens) ∧
            (Word.sig p.word = true → (t.core (Word.sigCore p.word)).token (Word.sigToken p.word) =
              min 65535 ((s.core (Word.sigCore p.word)).token (Word.sigToken p.word) + 1)))) ∧
  (∀ (c : BitVec 8) (s : State), (s.clocked = true → s.interlockFree c.toNat = true → exec (.interlockRelease c) s = .next (s.resume c.toNat)) ∧
      (s.clocked = false ∨ s.interlockFree c.toNat = false → exec (.interlockRelease c) s = .next s) ∧
      ∀ (u : Waiting) (rest : List Waiting) (x : State), s.clocked = true → s.interlockFree c.toNat = true → (s.core c.toNat).waiting = u :: rest →
        SMap.wf CoreState.init s.cores = true → (s.core c.toNat).fetched = true →
        x = ((s.onCore c.toNat fun k => { k with hold := none }).onCore c.toNat fun k => { k with waiting := rest }).onCore c.toNat
          (fun k => { k with fetched := false }) →
        x.takes c.toNat u = true → x.unheld c.toNat u = true → checkIssue u.op (x.issueOf c.toNat u) x = none →
        exec (.interlockRelease c) s = .next (State.drain (drainFuel - 1) c.toNat (x.perform c.toNat u (x.issueOf c.toNat u)))) ∧
    (∀ (c : BitVec 8) (s : State), (s.clocked = false → exec (.batchWaitExpiry c) s = .next s) ∧
      (s.clocked = true → exec (.batchWaitExpiry c) s = .next ((s.issueBatch c.toNat).onCore c.toNat CoreState.unqueue)) ∧
      (s.clocked = true → SMap.wf CoreState.init s.cores = true → ∃ t, exec (.batchWaitExpiry c) s = .next t ∧ (t.core c.toNat).batch = [] ∧
        (∀ p ∈ (t.core c.toNat).ops, p.queued = false) ∧
        (∀ d, (t.core d).sregs = (s.core d).sregs ∧ (t.core d).vregs = (s.core d).vregs) ∧ t.tiles = s.tiles)) ∧
    (∀ (c : BitVec 8) (w : IWord) (s : State), wordStatus .cend w.toNat = none → s.takes c.toNat ⟨.cend, w.toNat⟩ = true →
      s.interlocked .cend (s.issueOf c.toNat ⟨.cend, w.toNat⟩) = false →
      SMap.wf CoreState.init ((s.issueBatch c.toNat).onCore c.toNat CoreState.unqueue).cores = true →
      exec (.cend c w) s =
        .next (((s.issueBatch c.toNat).onCore c.toNat CoreState.unqueue).holdOn c.toNat ⟨.cend, w.toNat⟩ .block) ∧
      (SMap.wf CoreState.init s.cores = true → (s.core c.toNat).ops = [] → (s.core c.toNat).batch = [] → (s.core c.toNat).waiting = [] →
        Word.sig w.toNat = false →
        ∃ t u, exec (.cend c w) s = .next t ∧ (t.core c.toNat).hold = some .block ∧ t.mem = s.mem ∧ t.tiles = s.tiles ∧
          exec (.blockFinish c) t = .next u ∧ (u.core c.toNat).hold = none ∧ (u.core c.toNat).index = 0 ∧ (u.core c.toNat).loops = [] ∧
          u.crest.units = s.crest.units.erase ⟨0, c.toNat⟩ ∧ u.mem = s.mem ∧ u.tiles = s.tiles ∧
          ∀ d, (u.core d).sregs = (s.core d).sregs ∧ (u.core d).vregs = (s.core d).vregs)) ∧
    ∀ (c : BitVec 8) (s : State) (u : Waiting), (s.core c.toNat).hold = some .block → (s.core c.toNat).waiting = [u] → Word.sig u.word = false →
      SMap.wf CoreState.init s.cores = true →
      ((s.core c.toNat).ops ≠ [] → exec (.blockFinish c) s = .next s) ∧
      ((s.core c.toNat).ops = [] → ∃ t, exec (.blockFinish c) s = .next t ∧ (t.core c.toNat).hold = none ∧ (t.core c.toNat).index = 0 ∧
        t.crest.units = s.crest.units.erase ⟨0, c.toNat⟩ ∧ t.mem = s.mem ∧ t.tiles = s.tiles)

/-- A binary32 number rounds to itself (R87, R88, R89, R189). Every binary32 code that is not a NaN, decoded to its exact value and rounded
as an arithmetic result, gives the same code; every NaN gives 0x7FC00000, the NaN of arithmetic (a conversion of R88 keeps a NaN's sign,
and is another function). -/
def Obligations.Binary32RoundsToItself : Prop :=
  ∀ x : Lane, ((f32 x.toNat).isNaN = false → (toF32 (f32 x.toNat)).code = x.toNat) ∧
    ((f32 x.toNat).isNaN = true → (toF32 (f32 x.toNat)).code = 0x7FC00000)

/-- A program word that need not wait runs on its M-die, one at a time, and ends with its last write (R38, R57, R92, R138, R325, R349, R381,
R383, R385, R389, R500, R517). For each of the 11 M-die words on an active M-die with no word running: where the word neither retires
nor waits and the mesh has a path for it, exec answers the state with the word running and its effect made: the plan, the scale ledger
and the tile buffers are as before, what has been sent still stands, and only OSTAGE and GATHER may change a core or a fold. FWAIT,
CWAIT and VCONTRIB then have no effect until they finish; UPDATE of a bucket of the M-die for a step in flight notes the bucket among
those updated. A word whose wait is not met is held without effect, one without a mesh path is stuck without effect, one behind a
running word waits, and an M-die in REST or DORMANT takes none. A word that uses an uncorrectable table word has no effect but the mark
on the oldest step in flight and the count of the read. MDIE_WAIT_MET runs the held word of an M-die whose wait is over and otherwise
changes nothing. MDIE_WORD_FINISH ends the word that runs, and changes nothing while it is held or stuck, while its talus reads are
outstanding or a packet that it sends is in no port buffer yet, or where none runs; with nothing behind it one more word has finished,
memory and cores are as before, and the M-die leaves the units with work with the last word of its program; a word that an ABORT's crest
left unfinished, which those counts leave out, is not spoken of. A VCONTRIB that finishes before its step's contribution is complete
adds its M-die to those that have contributed. A transposing mover, which no word drives (log entry 68), changes no core, tile buffer,
M-die program, plan or scale, sends nothing, and does nothing for a copy that is not of whole MX blocks from a 64-byte boundary. -/
def Obligations.MdieWordsRun : Prop :=
  (∀ (o : MOp) (m : BitVec 4) (w : IWord) (s : State), m.toNat < 12 → mwordStatus o w.toNat = none →
      (s.diesActive = false → exec (o.row m w) s = .next s) ∧
      (s.diesActive = true → (s.mdie m.toNat).busy = none → s.mRetires { op := o, word := w.toNat } = false → s.mWaits m.toNat { op := o, word := w.toNat } = false →
        s.mHeldUp m.toNat { op := o, word := w.toNat } = false → SMap.wf MDie.init s.mdies = true →
        (∀ x, x = (s.setMdie m.toNat { s.mdie m.toNat with busy := some { op := o, word := w.toNat }, held := false, stuck := false }).mApply
            m.toNat { op := o, word := w.toNat } →
          exec (o.row m w) s = .next (x.setMdie m.toNat { x.mdie m.toNat with sends := (s.fabric.nextTransfer, x.fabric.nextTransfer) })) ∧
        ∃ t, exec (o.row m w) s = .next t ∧ (t.mdie m.toNat).busy = some { op := o, word := w.toNat } ∧ (t.mdie m.toNat).held = false ∧
          (t.mdie m.toNat).stuck = false ∧ (t.mdie m.toNat).queue = (s.mdie m.toNat).queue ∧ t.plan = s.plan ∧ t.scales = s.scales ∧
          t.tiles = s.tiles ∧ s.sent <+: t.sent ∧ (o ≠ .ostage → o ≠ .gather → t.cores = s.cores ∧ t.folds = s.folds) ∧
          (s.tables = [] → o = .fwait ∨ o = .cwait ∨ o = .vcontrib → t = { s with mdies := t.mdies }) ∧
          (s.tables = [] → o = .update → ∀ p b g, s.wordBucket m.toNat { op := o, word := w.toNat } = some (p, b, g) →
            s.inFlight (s.mStep { op := o, word := w.toNat }) = true → ∃ r, t.step? (s.mStep { op := o, word := w.toNat }) = some r ∧ b.tag ∈ r.updated)) ∧
      (s.diesActive = true → (s.mdie m.toNat).busy = none → s.mRetires { op := o, word := w.toNat } = false → s.mWaits m.toNat { op := o, word := w.toNat } = false →
        s.mHeldUp m.toNat { op := o, word := w.toNat } = true →
        exec (o.row m w) s = .next (s.setMdie m.toNat { s.mdie m.toNat with busy := some { op := o, word := w.toNat }, held := false, stuck := true, sends := (0, 0) })) ∧
      (s.diesActive = true → (s.mdie m.toNat).busy = none → s.mRetires { op := o, word := w.toNat } = false → s.mWaits m.toNat { op := o, word := w.toNat } = true →
        exec (o.row m w) s = .next (s.setMdie m.toNat { s.mdie m.toNat with busy := some { op := o, word := w.toNat }, held := true })) ∧
      (s.diesActive = true → (s.mdie m.toNat).busy ≠ none →
        exec (o.row m w) s = .next (s.setMdie m.toNat { s.mdie m.toNat with queue := (s.mdie m.toNat).queue ++ [{ op := o, word := w.toNat }] }))) ∧
  (∀ (s : State) (m : Nat) (u : MWord), u.op ≠ .vcontrib → s.tableBad (s.wordTables m u) = true →
    s.mApply m u = (s.noteTables (s.wordTables m u)).markOldest ∧ (s.mApply m u).mem = s.mem ∧ (s.mApply m u).cores = s.cores ∧
    (s.mApply m u).sent = s.sent ∧
    ((s.mApply m u).store.heldStain = true ∨ ∃ x ∈ (s.mApply m u).steps, x.flying = true ∧ x.first.stain = true)) ∧
  (∀ (m : BitVec 4) (s : State), m.toNat < 12 →
    ((s.mdie m.toNat).busy = none → exec (.mdieWaitMet m) s = .next s ∧ exec (.mdieWordFinish m) s = .next s) ∧
    ∀ u, (s.mdie m.toNat).busy = some u →
      ((s.mdie m.toNat).held = true → s.mWaits m.toNat u = false → s.mHeldUp m.toNat u = false → SMap.wf MDie.init s.mdies = true →
        (∀ x, x = (s.setMdie m.toNat { s.mdie m.toNat with busy := some u, held := false, stuck := false }).mApply m.toNat u →
          exec (.mdieWaitMet m) s =
            .next (x.setMdie m.toNat { x.mdie m.toNat with sends := (s.fabric.nextTransfer, x.fabric.nextTransfer) })) ∧
        ∃ t, exec (.mdieWaitMet m) s = .next t ∧ (t.mdie m.toNat).busy = some u ∧ (t.mdie m.toNat).held = false ∧ t.plan = s.plan) ∧
      ((s.mdie m.toNat).held = false ∨ s.mWaits m.toNat u = true → exec (.mdieWaitMet m) s = .next s) ∧
      (s.mUnfinished m.toNat = true ↔ (s.mdie m.toNat).held = true ∨ (s.mdie m.toNat).stuck = true ∨
        (s.talus.reads.any fun r => r.mdie == m.toNat) = true ∨ s.unsent (s.mdie m.toNat).sends = true) ∧
      (s.mUnfinished m.toNat = false →
        exec (.mdieWordFinish m) s = .next (s.mFinish m.toNat u) ∧
        ((s.mdie m.toNat).queue = [] → SMap.wf MDie.init s.mdies = true → u.op ≠ .vcontrib → u.carried = none →
          ∃ t, exec (.mdieWordFinish m) s = .next t ∧ (t.mdie m.toNat).busy = none ∧
            (t.mdie m.toNat).finished = (s.mdie m.toNat).finished + 1 ∧ t.mem = s.mem ∧ t.cores = s.cores ∧ t.tiles = s.tiles ∧
            t.steps = s.steps ∧ t.plan = s.plan ∧
            t.crest.units = (if s.programWords m.toNat ≤ (s.mdie m.toNat).finished + 1 then s.crest.units.erase ⟨2, m.toNat⟩ else s.crest.units)) ∧
        ∀ r, u.op = .vcontrib → u.carried = none → (s.mdie m.toNat).queue = [] → SMap.wf MDie.init s.mdies = true → s.tables = [] →
          s.step? (s.mStep u) = some r → r.flying = true → r.first.handed = false → r.first.done.contains m.toNat = false →
          r.first.done.length < 11 →
          ∃ t, exec (.mdieWordFinish m) s = .next t ∧ (t.mdie m.toNat).busy = none ∧ t.mem = s.mem ∧ t.cores = s.cores ∧
            t.step? (s.mStep u) = some { r with first := { r.first with done := r.first.done ++ [m.toNat] } }) ∧
      (s.mUnfinished m.toNat = true →
        exec (.mdieWordFinish m) s = .next s)) ∧
  (∀ (s : State) (n : Nat) (x : MxCopy), (isMX x.fmt = false ∨ x.rows % 32 ≠ 0 ∨ x.dest % 64 ≠ 0 → s.transposeMx n x = s) ∧
    (s.transposeMx n x).cores = s.cores ∧ (s.transposeMx n x).tiles = s.tiles ∧ (s.transposeMx n x).plan = s.plan ∧
    (s.transposeMx n x).scales = s.scales ∧ (s.transposeMx n x).mdies = s.mdies ∧ (s.transposeMx n x).sent = s.sent)

/-- What a crest boundary does: the boundary's actions, a slip, or the end of a realign's wait (R54, R60, R63, R65). CREST_BOUNDARY performs
orders 2 to 6 where nothing is deferred, waiting or unfinished; where the finish check finds an unfinished unit it slips; while a
boundary is deferred it changes nothing; while a realign waits it resumes. LATE_WORK_FINISH ends the deferred boundary once no unit is
late, with its overrun event and the grid moved on by the lateness, and OVERRUN_REPEAT writes a further overrun event while one is. -/
def Obligations.CrestBoundaryCases : Prop :=
  ∀ (s : State) (l : BitVec 32),
    (s.crest.deferred = none → s.crest.waiting = none → s.lateUnit = none → exec .crestBoundary s = .next s.boundary) ∧
    (s.crest.deferred = none → s.crest.waiting = none → ∀ d, s.lateUnit = some d → exec .crestBoundary s = .next (s.slip d)) ∧
    (s.crest.deferred = none → ∀ g, s.crest.waiting = some g → exec .crestBoundary s = .next (s.resumeCrest g)) ∧
    (∀ d, s.crest.deferred = some d → exec .crestBoundary s = .next s) ∧
    (∀ d, s.crest.deferred = some d → s.lateUnit = none →
      exec (.lateWorkFinish l) s = .next ({ s.overrunEvent d l.toNat with
        crest := { (s.overrunEvent d l.toNat).crest.elapse l.toNat with deferred := none } } : State).boundary) ∧
    (∀ d u, s.crest.deferred = some d → s.lateUnit = some u →
      exec (.lateWorkFinish l) s = .next s ∧ exec (.overrunRepeat l) s = .next (s.overrunEvent u l.toNat)) ∧
    (s.crest.deferred = none → exec (.lateWorkFinish l) s = .next s ∧ exec (.overrunRepeat l) s = .next s)

/-- Without a plan a boundary, in time or late, counts the crest and puts the written settings into force (R51, R52, R54, R60, R62, R63,
R146, R399, R518). On a module with no plan, no step, no command waiting for order 4, no realign, dip or snapshot, alignment not
locking, no beacon to send and no memory event due: where no late crest defers it, CREST_BOUNDARY answers a state whose crest counter is
one more modulo 2^64, whose crest period, control, array current control, batching wait and zero-streak threshold in force are those
last written, and whose memory, cores, M-dies, rings and host memory are as before; where one does, CREST_BOUNDARY changes nothing and
LATE_WORK_FINISH ends the deferral with the same effect but for the record of the overrun event. While late work remains
LATE_WORK_FINISH changes nothing, and OVERRUN_REPEAT writes the overrun event of what is late and changes nothing but records; with no
late crest, or nothing late any more, OVERRUN_REPEAT changes nothing. -/
def Obligations.IdleBoundaryCountsAndApplies : Prop :=
  (∀ s : State, s.plan = none → s.steps = [] → s.crest.cmds = [] → s.crest.waiting = none → s.crest.units = [] →
    s.power.dip = none → s.crest.locking = false → bit s.crest.controlNext 1 = false → s.snaps.runs = [] →
    s.err.told21 = [] → s.err.told22 = [] →
    (s.crest.deferred = none →
      ∃ t, exec .crestBoundary s = .next t ∧ t.crest.counter = (s.crest.counter + 1) % 2 ^ 64 ∧ t.crest.period = s.crest.periodNext ∧
        t.crest.control = s.crest.controlNext ∧ t.arrays.currentInForce = s.arrays.current ∧ t.arrays.batchWaitInForce = s.arrays.batchWait ∧
        t.arrays.thresholdInForce = s.arrays.threshold ∧ t.mem = s.mem ∧ t.tiles = s.tiles ∧ t.cores = s.cores ∧ t.mdies = s.mdies ∧
        t.rings = s.rings ∧ t.link = s.link) ∧
    ∀ (d : Deferred) (n : BitVec 32), s.crest.deferred = some d → exec .crestBoundary s = .next s ∧
      ∃ t, exec (.lateWorkFinish n) s = .next t ∧ t.crest.deferred = none ∧ t.crest.counter = (s.crest.counter + 1) % 2 ^ 64 ∧
        t.crest.period = s.crest.periodNext ∧ t.crest.control = s.crest.controlNext ∧ t.arrays.currentInForce = s.arrays.current ∧
        t.arrays.batchWaitInForce = s.arrays.batchWait ∧ t.arrays.thresholdInForce = s.arrays.threshold ∧ t.mem = s.mem ∧ t.tiles = s.tiles ∧
        t.cores = s.cores ∧ t.mdies = s.mdies ∧ t.power = s.power) ∧
  ∀ (n : BitVec 32) (s : State),
    (s.crest.deferred = none ∨ s.lateUnit = none → exec (.overrunRepeat n) s = .next s) ∧
    (s.crest.deferred = none ∨ s.lateUnit ≠ none → exec (.lateWorkFinish n) s = .next s) ∧
    ∀ d e, s.crest.deferred = some d → s.lateUnit = some e → ∃ t, exec (.overrunRepeat n) s = .next t ∧ t = s.overrunEvent e n.toNat ∧
      t = { s with link := t.link, rings := t.rings, err := t.err }

/-- A step completes once it is due, and its completion record carries the highest-ranked status (R73, R79, R388, R470, R471, R473).
STEP_COMPLETION of a step that is due (discarded or aborted, or committed with its GATHER finished) completes: exec answers
State.completeStep of it, which takes the step from the list and writes, where the step's completion ring is enabled, the completion
record of its descriptor there, with the status, the supersede mark, void causes and flags, and a detail of step number, overruns up to
65,535, verdict code (0 for an aborted step) and epoch. The status is FABRIC_PEER_LOST where its peer was lost, else the discard's
status, else DETERMINISM_VOID where a void cause applies, else CREST_OVERRUN where a crest of it overran, else DONE; no memory and no
other step changes. While no step of that number is due nothing changes. -/
def Obligations.StepCompletionRow : Prop :=
  ∀ (n : Word) (s : State),
    ((s.steps.find? fun r => r.number == n.toNat && r.due) = none → exec (.stepCompletion n) s = .next s) ∧
    ∀ r, (s.steps.find? fun r => r.number == n.toNat && r.due) = some r →
      r.number = n.toNat ∧ r.due = true ∧
      (r.peerLost = true → s.stepStatus r = stPeerLost) ∧
      (r.peerLost = false → ∀ st, r.phase = .ended st → s.stepStatus r = st) ∧
      (r.peerLost = false → r.phase = .committed → r.voidCauses ≠ 0 → s.stepStatus r = stDeterminismVoid) ∧
      (r.peerLost = false → r.phase = .committed → r.voidCauses = 0 → r.overruns ≠ 0 → s.stepStatus r = stCrestOverrun) ∧
      (r.peerLost = false → r.phase = .committed → r.voidCauses = 0 → r.overruns = 0 → s.stepStatus r = stDone) ∧
      exec (.stepCompletion n) s = .next (s.completeStep r) ∧
      (s.completeStep r).steps = s.steps.erase r ∧ (s.completeStep r).mem = s.mem ∧ (s.completeStep r).tiles = s.tiles ∧
      (s.completeStep r).cores = s.cores ∧ (s.completeStep r).store = s.store ∧ (s.completeStep r).scales = s.scales ∧
      ((s.ring (16 + r.desc.cring % 4)).enable = true → SMap.wf Ring.init s.rings = true →
        ∃ y : State, s.completeStep r = y.putRecord (16 + r.desc.cring % 4) (completionRecord y r.desc (s.stepStatus r)
            (completionExtra r.superseded r.voidCauses r.flags false)
            (r.number + (min r.overruns 65535) <<< 64 + (if r.phase = .ended stAborted then 0 else r.verdictCode) <<< 80 + s.store.epoch <<< 82)) ∧
          y = { s with steps := s.steps.erase r, descs := s.descs.erase r.desc, fetched := s.fetched.erase r.desc, rings := y.rings,
                       link := y.link, err := y.err } ∧
          (y.ring (16 + r.desc.cring % 4)).prod = (s.ring (16 + r.desc.cring % 4)).prod)

/-- A norm partial is written once, and a stained one never (R89, R391, R472, R499, R500). NORM_PARTIAL of a step in flight and a software-
class group whose buckets have folded, with no open predecessor and not yet written: the step notes the group among its partials and
keeps the sum's flags; an unstained partial is written as a completion record of kind 0x80 that carries step, group and value; a stained
one is not written, and an event (class 4, detail 0: the model's, log entry 39) follows in its place. Where a table word that it uses is
uncorrectable nothing is written and the oldest step is marked. In every other case, a step or group that there is not among them,
nothing changes: so once noted a partial is not written again. -/
def Obligations.NormPartialOnce : Prop :=
  ∀ (n : Word) (g : BitVec 6) (s : State),
    (s.step? n.toNat = none ∨ s.group? g.toNat = none → exec (.normPartial n g) s = .next s) ∧
    ∀ (r : StepRec) (gr : Group), s.step? n.toNat = some r → s.group? g.toNat = some gr →
    ((r.flying = false ∨ gr.software = false ∨ s.predecessorOpen n.toNat = true ∨ s.groupFolded g.toNat n.toNat = false ∨
      r.partials.contains g.toNat = true) → exec (.normPartial n g) s = .next s) ∧
    (r.flying = true → gr.software = true → s.predecessorOpen n.toNat = false → s.groupFolded g.toNat n.toNat = true →
      r.partials.contains g.toNat = false → ∀ y : State, y = s.noteTables (s.partialTables g.toNat) →
      (s.tableBad (s.partialTables g.toNat) = true → exec (.normPartial n g) s = .next y.markOldest) ∧
      (s.tableBad (s.partialTables g.toNat) = false →
        ∃ t z : State, exec (.normPartial n g) s = .next t ∧ (∃ x, t.step? n.toNat = some x ∧ x.partials = r.partials ++ [g.toNat]) ∧
          t.mem = s.mem ∧ t.cores = s.cores ∧
          z = (y.updStep n.toNat fun x => { x with partials := x.partials ++ [g.toNat] }).raiseStep n.toNat (y.normPartial g.toNat n.toNat).1.flags ∧
          ((y.normPartial g.toNat n.toNat).2 = true → t = z.event 0x0A 4 0 n.toNat 0) ∧
          ((y.normPartial g.toNat n.toNat).2 = false → t = z.putFree r.desc.cring (completionRecord z { r.desc with kind := 0x80 } stDone 0
            (n.toNat + g.toNat <<< 64 + (y.normPartial g.toNat n.toNat).1.code <<< 96)))))

/-- A doorbell moves its ring's index or is refused with its cause (R451, R452, R485). For the submission, completion and event doorbells:
while the link is down nothing changes; outside READY and QUIESCING or with the ring disabled the illegal-write record takes cause 3 and
no ring changes (that QUIESCING still takes indices is the model's choice, log entry 46); an invalid index writes the ring-error event
of R452 and takes cause 4 (R616, which lets no illegal write write an event, is overruled there by the model's choice, log entry 89);
otherwise the producer index of a submission ring or the consumer index of another ring becomes the value written. -/
def Obligations.Doorbells : Prop :=
  ∀ (i v : Nat) (s : State), SMap.wf Ring.init s.rings = true →
    (∀ r : BitVec 4, i = r.toNat → ∀ x : BitVec 32, v = x.toNat → exec (.submissionDoorbell r x) s = .next (s.doorbell i v)) ∧
    (∀ r : BitVec 2, i = 16 + r.toNat → ∀ x : BitVec 32, v = x.toNat → exec (.completionDoorbell r x) s = .next (s.doorbell i v)) ∧
    (i = 20 → ∀ x : BitVec 32, v = x.toNat → exec (.eventDoorbell x) s = .next (s.doorbell i v)) ∧
    (s.linkUp = false → s.doorbell i v = s) ∧
    (s.linkUp = true → (s.power.hot ≠ .ready ∧ s.power.hot ≠ .quiescing ∨ (s.ring i).enable = false) →
      s.doorbell i v = s.illegalWrite true (64 * i) 3 ∧ (s.doorbell i v).rings = s.rings) ∧
    ((s.power.hot = .ready ∨ s.power.hot = .quiescing) → (s.ring i).enable = true →
      (badIndexOf (s.ring i) i v = true → s.doorbell i v = (s.event 0x17 7 i noStep 0).illegalWrite true (64 * i) 4) ∧
      (badIndexOf (s.ring i) i v = false → i < 16 → (s.doorbell i v).ring i = { s.ring i with prod := v } ∧
        ∀ j, j ≠ i → (s.doorbell i v).ring j = s.ring j) ∧
      (badIndexOf (s.ring i) i v = false → 16 ≤ i → s.waits = [] → (s.doorbell i v).ring i = { s.ring i with cons := v } ∧
        ∀ j, j ≠ i → (s.doorbell i v).ring j = s.ring j))

/-- A fetch takes the entry at the consumer index and reserves its record, or halts the ring (R447, R453, R454, R455, R456, R458).
DESCRIPTOR_FETCH of the ring whose turn it is: where the entry's read has no error, its completion ring is in use and its kind is
listed, exec answers a state with the descriptor appended to those fetched, the ring's consumer index one more modulo 2^32, one more
record reserved in the completion ring, and device memory, cores, plan and steps as before. A read with an error writes the link event
with its host address and halts the ring with its event, reason 1; an entry whose completion ring is not in use halts it with reason 2;
in both cases nothing is fetched and the consumer index stays. Of a ring whose turn it is not nothing is fetched. -/
def Obligations.DescriptorFetchTakesTheEntry : Prop :=
  ∀ (r : BitVec 4) (s : State), SMap.wf Ring.init s.rings = true →
    (s.dueRing ≠ some r.toNat → exec (.descriptorFetch r) s = .next (s.refuseKind r.toNat)) ∧
    (s.dueRing = some r.toNat →
    ((s.nextHeader r.toNat).2 = false → (s.ring (16 + fld (s.nextHeader r.toNat).1 9 2)).enable = true →
      legalKind (fld (s.nextHeader r.toNat).1 0 8) = true → (∀ x ∈ s.fetched, legalKind x.kind = true) →
      ∃ t, exec (.descriptorFetch r) s = .next t ∧
        t.fetched = s.fetched ++ [⟨r.toNat, fld (s.nextHeader r.toNat).1 9 2, fld (s.nextHeader r.toNat).1 0 8, fld (s.nextHeader r.toNat).1 32 32,
          s.hostNum ((s.ring r.toNat).base.toNat + (s.ring r.toNat).cons % 2 ^ (s.ring r.toNat).size * 64) 64⟩] ∧
        (t.ring r.toNat).cons = ((s.ring r.toNat).cons + 1) % 2 ^ 32 ∧
        (t.ring (16 + fld (s.nextHeader r.toNat).1 9 2)).reserved = (s.ring (16 + fld (s.nextHeader r.toNat).1 9 2)).reserved + 1 ∧
        t.nextRing = (r.toNat + 1) % 16 ∧ t.mem = s.mem ∧ t.cores = s.cores ∧ t.plan = s.plan ∧ t.steps = s.steps ∧ t.link = s.link) ∧
    ((s.nextHeader r.toNat).2 = true →
      ∃ t, exec (.descriptorFetch r) s = .next t ∧
        t = (({ s with nextRing := (r.toNat + 1) % 16 } : State).linkError 4 0 noStep
          ((s.ring r.toNat).base.toNat + (s.ring r.toNat).cons % 2 ^ (s.ring r.toNat).size * 64)).haltRing r.toNat 1 ∧
        (t.ring r.toNat).halted = true ∧ (t.ring r.toNat).cons = (s.ring r.toNat).cons ∧
        t.fetched = s.fetched ∧ t.mem = s.mem ∧ t.steps = s.steps) ∧
    ((s.nextHeader r.toNat).2 = false → (s.ring (16 + fld (s.nextHeader r.toNat).1 9 2)).enable = false →
      ∃ t, exec (.descriptorFetch r) s = .next t ∧ t = ({ s with nextRing := (r.toNat + 1) % 16 } : State).haltRing r.toNat 2 ∧
        (t.ring r.toNat).halted = true ∧ (t.ring r.toNat).cons = (s.ring r.toNat).cons ∧
        t.fetched = s.fetched ∧ t.mem = s.mem ∧ t.steps = s.steps))

/-- What the adapter answers is what later reads of host memory get (R447). What the adapter answers is kept and answers later reads: so the
model takes the row (log entries 11 and 46); that a read may complete with an error is R447's. A HOST_READ_COMPLETION with data makes
the bytes of its range those of the data, without error, and leaves every byte outside it; with an error it leaves every byte, and a
read that touches the range while the link is up completes with an error. Nothing of the module itself changes. -/
def Obligations.HostReadCompletionAnswers : Prop :=
  ∀ (a : Word) (data : List Byte) (s : State), a.toNat + data.length ≤ 2 ^ 64 →
    (s.link.bytes.Pairwise fun x y => x.1 < y.1) →
    (∃ t, exec (.hostReadCompletion a false data) s = .next t ∧ (∀ i, i < data.length → t.hostByte (a.toNat + i) = data.getD i 0) ∧
      (∀ x, x < 2 ^ 64 → (x < a.toNat ∨ a.toNat + data.length ≤ x) → t.hostByte x = s.hostByte x) ∧
      (0 < data.length → s.linkUp = true → t.hostError a.toNat data.length = false) ∧ t = { s with link := t.link }) ∧
    ∃ t, exec (.hostReadCompletion a true data) s = .next t ∧ t.link.bytes = s.link.bytes ∧
      (∀ x n, x < a.toNat + data.length → a.toNat < x + n → t.hostError x n = true) ∧ t = { s with link := t.link }

/-- The end of a holdoff interval writes the interrupt word that fell due (R457). IRQ_HOLDOFF_EXPIRY of a completion ring or the event ring:
with no interval running nothing changes; with no word due the interval ends; with a word due and the module not RELEASED the ring's
interrupt data is written at its interrupt address and a new interval begins. -/
def Obligations.HoldoffExpiry : Prop :=
  ∀ (k : BitVec 5) (s : State), 16 ≤ k.toNat → k.toNat ≤ 20 → SMap.wf Ring.init s.rings = true →
    ((s.ring k.toNat).holding = false → exec (.irqHoldoffExpiry k) s = .next s) ∧
    ((s.ring k.toNat).holding = true → (s.ring k.toNat).due = false →
      exec (.irqHoldoffExpiry k) s = .next (s.setRing k.toNat { s.ring k.toNat with holding := false, due := false })) ∧
    ((s.ring k.toNat).holding = true → (s.ring k.toNat).due = true → s.power.hot ≠ .released → s.linkUp = true →
      (s.ring k.toNat).irqAddr.toNat + 4 ≤ 2 ^ 64 → (s.link.bytes.Pairwise fun x y => x.1 < y.1) →
      ∃ t, exec (.irqHoldoffExpiry k) s = .next t ∧ (t.ring k.toNat).holding = true ∧ (t.ring k.toNat).due = false ∧
        t.hostNum (s.ring k.toNat).irqAddr.toNat 4 = (s.ring k.toNat).irqData.toNat ∧ t.mem = s.mem ∧ t.cores = s.cores)

/-- A descriptor is refused with its first failing check, and no device state changes (R309, R447, R455, R458, R459, R469, R475, R503). For
each of the 25 descriptor rows: a fetched descriptor that its fence does not hold and whose check need not wait, whose reserved fields
or kind's checks fail, is completed with the status of the first check that fails; exec answers a state that differs from the one before
only in records (host memory, rings, error log, held events), in the lists of descriptors, and in the merge-buffer entries that the read
of a RING_ADVANCE's header retires. A PLAN_LOAD that passes those but whose image fails a check is completed with that check's status
and the detail of its place, and likewise leaves the device as it was. -/
def Obligations.DescriptorRefused : Prop :=
  ∀ (r : BitVec 4) (d : Desc) (i : Instr) (s : State) (x : DescRef), descriptorRow r d = some i →
    (s.fetched.find? fun y => y.ring == r.toNat && y.bits == d.toNat) = some x → s.fenced x = false → s.checkHeld x = false →
    (∀ st, firstOf ((reservedSet (fld d.toNat 0 8) x.bits, stBadField) :: descriptorChecks (fld d.toNat 0 8) s x) = some st →
      ∃ t, exec i s = .next t ∧ t = (s.noteImage x).complete x st ∧
        t = { s with link := t.link, rings := t.rings, err := t.err, heldEvents := t.heldEvents, merge := t.merge, descs := t.descs,
                     fetched := t.fetched } ∧
        t.fetched = s.fetched.erase x ∧ t.descs = s.descs.erase x ∧ (x.kind ≠ 0x07 → t.merge = s.merge)) ∧
    ∀ e, fld d.toNat 0 8 = 0x01 → x.kind = 0x01 →
      firstOf ((reservedSet 0x01 x.bits, stBadField) :: checkPlanLoad s x) = none → s.descHeld x = false →
      s.checkImage (x.f 64 64) (x.f 128 32) (x.f 192 64) = .error e →
      ∃ t y, exec i s = .next t ∧ t = State.completeWith y x e.status 0 e.detail ∧
        y = (if s.hostError (x.f 64 64) (x.f 128 32) then s.linkError 4 0 noStep (x.f 64 64) else s) ∧
        t = { s with link := t.link, rings := t.rings, err := t.err, heldEvents := t.heldEvents, descs := t.descs, fetched := t.fetched } ∧
        t.fetched = s.fetched.erase x ∧ t.descs = s.descs.erase x

/-- A descriptor that passes its checks is performed, and waits before that for its fence (R38, R455, R458, R459, R493, R544). For each of
the 25 descriptor rows: a fetched descriptor that passes its checks has the effect of its kind, after the records that its checks' own
reads leave; where its traffic must wait, for a die in reset, a stack being poisoned or a mesh path, it is accepted and stays in
progress (the model's reading, log entry 90). One that its fence bit holds, whose check must wait, or that the ring has not fetched,
changes nothing yet. -/
def Obligations.DescriptorPerformed : Prop :=
  ∀ (r : BitVec 4) (d : Desc) (i : Instr) (s : State), descriptorRow r d = some i →
    ((s.fetched.find? fun y => y.ring == r.toNat && y.bits == d.toNat) = none → exec i s = .next s) ∧
    ∀ x, (s.fetched.find? fun y => y.ring == r.toNat && y.bits == d.toNat) = some x →
      (s.fenced x = true ∨ s.checkHeld x = true → exec i s = .next s) ∧
      (s.fenced x = false → s.checkHeld x = false →
        firstOf ((reservedSet (fld d.toNat 0 8) x.bits, stBadField) :: descriptorChecks (fld d.toNat 0 8) s x) = none →
        (s.descHeld x = false → exec i s = .next (descriptorEffect (fld d.toNat 0 8) (s.noteImage x) x)) ∧
        (s.descHeld x = true → exec i s = .next ((s.noteImage x).accept x)))

/-- Commands of order 4 are accepted and wait for the boundary (R54, R65, R309, R348, R425, R459, R519). An accepted PLAN_UNLOAD, REALIGN,
RING_ADVANCE, TALUS_BIND, TALUS_REVOKE, POWER_STATE or PEER_LOST leaves the device as it was until a boundary: the descriptor moves from
those fetched to those in progress and one command is appended to those that wait for order 4, in the order of acceptance; nothing else
changes. -/
def Obligations.BoundaryCommandsWait : Prop :=
  ∀ (k : Nat) (s : State) (x : DescRef), k ∈ [0x02, 0x05, 0x07, 0x13, 0x14, 0x15, 0x19] →
    ∃ cmd, descriptorEffect k s x =
      { s with fetched := s.fetched.erase x, descs := s.descs ++ [x], crest := { s.crest with cmds := s.crest.cmds ++ [cmd] } } ∧
      (k = 0x02 → cmd = .unload x) ∧ (k = 0x05 → cmd = .realign (fld x.bits 64 64) x) ∧
      (k = 0x07 → cmd = .ringAdvance (fld x.bits 64 48) (fld x.bits 128 32) (fld x.bits 192 64) x) ∧
      (k = 0x13 → cmd = .talusBind (fld x.bits 64 18) x) ∧ (k = 0x14 → cmd = .talusRevoke x) ∧
      (k = 0x15 → cmd = .power (fld x.bits 64 3) x) ∧ (k = 0x19 → cmd = .peerLost (fld x.bits 64 17) x)

/-- An accepted STEP joins the steps in flight with the stain mark held for it (R69, R78, R385). The effect of an accepted STEP: the step of
its number is appended in flight, not begun, with its learning-rate factor, priming flag and record area, the void causes that hold now,
its contribution stained exactly where a mark was held for the next submitted step, which is then held no longer; memory, cores, plan
and the other steps are as before. -/
def Obligations.StepAccepted : Prop :=
  ∀ (s : State) (x : DescRef), ∃ t : State, t = descriptorEffect 0x03 s x ∧
    (∃ rec', t.steps = s.steps ++ [rec'] ∧ rec'.number = fld x.bits 64 64 ∧ rec'.lam = fld x.bits 128 32 ∧ rec'.prime = bit x.bits 160 ∧
      rec'.area = fld x.bits 192 64 ∧ rec'.flying = true ∧ rec'.begun = false ∧ rec'.first.stain = s.store.heldStain ∧ rec'.overruns = 0 ∧
      rec'.voids = s.voidsNow) ∧
    t.store.heldStain = false ∧ t.descs = s.descs ++ [x] ∧ t.mem = s.mem ∧ t.cores = s.cores ∧ t.plan = s.plan

/-- A descriptor that takes time is in progress until DESCRIPTOR_WORK_DONE does its work (R455, R459, R461, R494, R506). For PARAM_READ,
COPY, FILL, SNAPSHOT, HBM_REPAIR and FIRMWARE: acceptance puts the descriptor among those in progress and leaves memory as it was;
DESCRIPTOR_WORK_DONE of a ring and kind does the work of the oldest such descriptor unless it must wait (for a reset, a poisoning, a
mesh path, a processor): a PARAM_READ, COPY, FILL or HBM_REPAIR then leaves the list of descriptors in progress, with cores, tile
buffers, M-dies and plan as before, and a PARAM_READ leaves device memory as it was. A PLAN_LOAD, RANK_TABLE, PARAM_LOAD or RESTORE
whose traffic had to wait acts at its DESCRIPTOR_WORK_DONE (log entry 90). The row changes nothing where there is no such descriptor.
That a device word is read and its host unit formed by the one command is the model's choice (log entry 45). -/
def Obligations.TimedDescriptorsWork : Prop :=
  (∀ (k : Nat) (s : State) (x : DescRef), k ∈ timedKinds →
      x ∈ (descriptorEffect k s x).descs ∧ (descriptorEffect k s x).mem = s.mem ∧ (descriptorEffect k s x).cores = s.cores) ∧
    ∀ (r : BitVec 4) (k : BitVec 8) (s : State),
      (timedKinds.contains k.toNat = true →
        ((s.descs.find? fun d => d.ring == r.toNat && d.kind == k.toNat) = none → exec (.descriptorWorkDone r k) s = .next s) ∧
        ∀ x, (s.descs.find? fun d => d.ring == r.toNat && d.kind == k.toNat) = some x →
          (s.workWaits x = true → exec (.descriptorWorkDone r k) s = .next s) ∧
          (s.workWaits x = false → exec (.descriptorWorkDone r k) s = .next (s.work x) ∧
            (k.toNat ≠ 0x0F → k.toNat ≠ 0x18 → ∃ t, exec (.descriptorWorkDone r k) s = .next t ∧ t.descs = s.descs.erase x ∧ t.cores = s.cores ∧
              t.tiles = s.tiles ∧ t.plan = s.plan ∧ t.mdies = s.mdies ∧ (k.toNat = 0x0C → t.mem = s.mem)))) ∧
      (heldKinds.contains k.toNat = true →
        ((s.descs.find? fun d => d.ring == r.toNat && d.kind == k.toNat && s.toWork d) = none → exec (.descriptorWorkDone r k) s = .next s) ∧
        ∀ x, (s.descs.find? fun d => d.ring == r.toNat && d.kind == k.toNat && s.toWork d) = some x →
          exec (.descriptorWorkDone r k) s = .next (if s.workWaits x then s else s.heldWork x))

/-- The work of FILL makes every byte of its range the pattern's, unstained, in both views (R42, R494, R495). The work of a FILL whose range
lies in one region: every byte of the range reads as the byte of the 64-bit pattern at its place, unstained, and every address whose
canonical place no byte of the range has reads as before, byte and stain. -/
def Obligations.FillWritesItsPattern : Prop :=
  ∀ (s : State) (x : DescRef), s.mem.wf = true → fld x.bits 64 48 % 4096 = 0 → fld x.bits 128 48 % 4096 = 0 → 0 < fld x.bits 128 48 →
    s.reachable (fld x.bits 64 48) (fld x.bits 128 48) = true →
    (∀ a, fld x.bits 64 48 ≤ a → a < fld x.bits 64 48 + fld x.bits 128 48 →
      (s.workFill x).loadByte a = (BitVec.ofNat 8 (fld x.bits 192 64 >>> (8 * (a % 8))), false)) ∧
    ∀ y, (∀ a, fld x.bits 64 48 ≤ a → a < fld x.bits 64 48 + fld x.bits 128 48 → canon a ≠ canon y) →
      (s.workFill x).loadByte y = s.loadByte y

/-- The interleaved view and the stack view reach the same bytes (R41). For every interleaved-view address a, the byte and stain read at a
are those read at the stack-view address of stack b mod 12 at offset (b div 12) × 4,096 + (a mod 4,096), where b = a div 4,096. -/
def Obligations.HbmViewsAlias : Prop :=
  ∀ (s : State) (a : Nat), a < stackView → a < 12 * s.code.stackBytes →
    s.loadByte a = s.loadByte (stackView + (a / 4096 % 12) * 2 ^ 36 + (a / 4096 / 12 * 4096 + a % 4096))

/-- Where a lane of an accumulator row lies (R43). For logical core n, row r and lane j, the 32-bit accumulator word is the little-endian
number of the four bytes at 0x0310_0000_0000 + n × 0x0020_0000 + r × 512 + j × 4, and that address lies in the accumulator memory of
core n. -/
def Obligations.AccumulatorAddresses : Prop :=
  ∀ (s : State) (n r j : Nat), n < 256 → r < 4096 → j < 128 →
    (s.acc n r j).1 = leNat ((List.range 4).map fun i => (s.loadByte (0x031000000000 + n * 0x00200000 + r * 512 + j * 4 + i)).1) ∧
    regionOf s.code (0x031000000000 + n * 0x00200000 + r * 512 + j * 4) = some (.acc n)

/-- A packet at a port that is not ACTIVE, or one that is dropped, has no effect of its type (R402, R406, R413, R415, R419, R420, R489). For
each of the 21 packet rows: at a port that is not ACTIVE nothing changes; a packet that the L-die drops (header CRC, header field,
control body with a failed CRC or an illegal address, a header word that reads uncorrectable from the receive buffer) leaves the receive
buffer, whose credits for its virtual channel it returns (State.takeIn), and leaves device memory, tile buffers, cores, plan, scale
ledger, folds, parameter store but for a held mark, talus, packets sent, rank tables, held and waiting packets and every other port as
they were. -/
def Obligations.PacketsNotReceived : Prop :=
  ∀ (p : BitVec 5) (k : Packet) (i : Instr) (s : State), packetRow p k = some i →
    ((s.port p.toNat).state ≠ .active → exec i s = .next s) ∧
    ((s.port p.toNat).state = .active → (s.arriving p.toNat k).2 = none →
      ∃ t, exec i s = .next t ∧ t = (s.arriving p.toNat k).1.takeIn p.toNat k ∧ t.mem = s.mem ∧ t.tiles = s.tiles ∧ t.cores = s.cores ∧
        t.plan = s.plan ∧ t.scales = s.scales ∧ t.folds = s.folds ∧ t.store.committed = s.store.committed ∧ t.store.bank = s.store.bank ∧
        t.talus = s.talus ∧ t.sent = s.sent ∧ t.fabric = { s.fabric with ports := t.fabric.ports } ∧
        (SMap.wf Port.init s.fabric.ports = true → (∀ q, q ≠ p.toNat → t.port q = s.port q) ∧
          t.port p.toNat = { s.port p.toNat with
            returned := (s.port p.toNat).returned.modify k.vc fun n => n + packetCredits k, marks := [] }))

/-- A good packet at an ACTIVE port has the effect of its type (R406, R407, R409, R411, R412, R413, R415, R419, R489, R497). For each of the
21 packet rows: where the port is ACTIVE and the L-die does not drop the packet, exec answers the effect of the packet's type at the
L-die of that port, after which the packet's credits return to the partner, unless its access waits: then the packet stays in the
receive buffer. Every payload word is taken as stained exactly where the packet is a data packet whose end-to-end CRC or length is
wrong; without such an error each byte has the stain of its mask bit. With no uncorrectable word in the buffer the packet is taken as it
was received. -/
def Obligations.PacketsReceived : Prop :=
  ∀ (p : BitVec 5) (k k' : Packet) (i : Instr) (s x : State) (all : Bool), packetRow p k = some i → (s.port p.toNat).state = .active →
    s.arriving p.toNat k = (x, some (k', all)) →
    exec i s = .next (x.settle (packetEffect k.type x p.toNat k' all) p.toNat k) ∧
    all = (decide (k.vc ≠ 0) && badBody k) ∧ k'.body = k.body ∧ k'.header = k.header ∧
    (all = true → ∀ b ∈ k'.payload all, b.2 = true) ∧
    ((s.port p.toNat).marks = [] → k' = k ∧ s.inspect p.toNat k = (x, some all)) ∧
    x.mem = s.mem ∧ x.cores = s.cores ∧ x.tiles = s.tiles ∧ x.plan = s.plan ∧ x.steps = s.steps ∧ x.fabric = s.fabric ∧
    (∀ y : State, y.fabric.blocked.length ≤ x.fabric.blocked.length → x.settle y p.toNat k = y.takeIn p.toNat k) ∧
    (∀ y : State, x.fabric.blocked.length < y.fabric.blocked.length → SMap.wf Port.init y.fabric.ports = true →
      (x.settle y p.toNat k).port p.toNat = { y.port p.toNat with marks := [] } ∧
        ∀ q, q ≠ p.toNat → (x.settle y p.toNat k).port q = y.port q) ∧
    (∀ y : State, SMap.wf Port.init y.fabric.ports = true → (y.port p.toNat).state = .active → (y.takeIn p.toNat k).port p.toNat =
      { y.port p.toNat with returned := (y.port p.toNat).returned.modify k.vc fun n => n + packetCredits k, marks := [] })

/-- A control packet that is acknowledged acts once, however often it arrives (R407, R409, R414, R415, R437). For the packet rows of the
acknowledged types 0x23 to 0x27, and for the reset packet of the reset authority: every copy is answered by an acknowledgement of its
sequence number to its source, which goes out on a port or waits for credits and changes nothing but what is sent and the links; the
first copy of a (source, sequence) pair is then noted and acted on, and a further copy has no other effect. -/
def Obligations.AcknowledgedOnce : Prop :=
  ∀ (p : BitVec 5) (k k' a : Packet) (i : Instr) (s x c : State) (all : Bool), packetRow p k = some i → (s.port p.toNat).state = .active →
    s.arriving p.toNat k = (x, some (k', all)) → (k.type ∈ [0x23, 0x24, 0x25, 0x26, 0x27] ∨ (k.type = 0x28 ∧ x.fromAuthority k' = true)) →
    c = x.sendPlain 0x29 k'.source (x.fromOld 0 k') (leBytes 4 (bodyNum k' 0 4)) →
    a = x.controlPacket 0x29 k'.source (x.fromOld 0 k') (zeros 4 ++ leBytes 4 (bodyNum k' 0 4)) →
    a.type = 0x29 ∧ a.dest = k'.source ∧ c = State.carry { x with sent := x.sent ++ [a] } ⟨0, a⟩ ∧
    c = { x with sent := x.sent ++ [a], fabric := { x.fabric with ports := c.fabric.ports, waits := c.fabric.waits } } ∧
    (x.fabric.seen.contains (k'.source, bodyNum k' 0 4) = true → exec i s = .next (x.settle c p.toNat k)) ∧
    (x.fabric.seen.contains (k'.source, bodyNum k' 0 4) = false →
      exec i s = .next (x.settle (ackedAct k.type k'
        { c with fabric := { c.fabric with seen := x.fabric.seen ++ [(k'.source, bodyNum k' 0 4)] } }) p.toNat k))

/-- A fabric write reaches only what the receiver's own map allows (R38, R422, R423, R493). A payload whose range lies outside the
interleaved view or touches a reserved, unpopulated, engine or shadow part is not written: device memory, cores and tile buffers are
unchanged and the contribution is stained. Where the map allows it but its stack is being poisoned or the mesh has no path to it, the
packet waits and nothing is written yet. Otherwise its bytes are written with their stain, and its remote token is signalled only when
the transfer has landed whole. -/
def Obligations.FabricWritesAreChecked : Prop :=
  ∀ (s : State) (l a : Nat) (k : Packet) (all : Bool) (bs : List (Byte × Bool)),
    ((decide (a < stackView) && s.reachable a bs.length) = false →
      (s.fabricWrite l k all a bs).mem = s.mem ∧ (s.fabricWrite l k all a bs).cores = s.cores ∧ (s.fabricWrite l k all a bs).tiles = s.tiles ∧
      ((s.fabricWrite l k all a bs).store.heldStain = true ∨
        ∃ x ∈ (s.fabricWrite l k all a bs).steps, x.flying = true ∧ x.first.stain = true)) ∧
    ((decide (a < stackView) && s.reachable a bs.length) = true → s.fabricHeld l a bs.length = true →
      s.fabricWrite l k all a bs = { s with fabric := { s.fabric with blocked := s.fabric.blocked ++ [{ ldie := l, packet := k, all := all }] } }) ∧
    ((decide (a < stackView) && s.reachable a bs.length) = true → s.fabricHeld l a bs.length = false →
      (s.fabricWrite l k all a bs).mem = (s.save a bs).mem ∧
      (((s.fabric.landed.find? fun x => x.source == k.source && x.transfer == k.transfer).map Landed.bytes).getD 0 + k.body.length <
          k.transferLength → (s.fabricWrite l k all a bs).cores = s.cores) ∧
      (k.signal = false → (s.fabricWrite l k all a bs).cores = s.cores))

/-- Held packets are released when their condition is met, and unacknowledged packets are sent again (R365, R407, R414, R419, R424, R489,
R523). HELD_PACKET_RELEASE changes nothing while no packet held in the L-die meets its condition, and otherwise takes the oldest that
does out of its store and reads it: with no error among its words it is received as it was; with an uncorrectable word in its payload it
is received with those words stained; with one in its headers it is dropped as a packet with a bad header CRC, which marks the oldest
step. CONTROL_PACKET_RESEND of a sequence number that is acknowledged, or on a module whose dies have no power, changes nothing; of one
sent fewer than 16 times to a rank not lost it counts one more sending and sends the packet again. -/
def Obligations.HeldPacketsAndResends : Prop :=
  (∀ (l : BitVec 2) (s : State),
      ((s.fabric.held.find? fun h => h.ldie == l.toNat && s.checkStep h.packet != .held) = none → exec (.heldPacketRelease l) s = .next s) ∧
      ∀ (h : Held) (x : State), (s.fabric.held.find? fun h => h.ldie == l.toNat && s.checkStep h.packet != .held) = some h →
        x = { s with fabric := { s.fabric with held := s.fabric.held.erase h } } →
        ((x.readHeld h).2 = none →
          exec (.heldPacketRelease l) s = .next ((x.readHeld h).1.crcEvent (8 * l.toNat) (h.packet.source + 1 <<< 18)).markOldest) ∧
        (∀ k, (x.readHeld h).2 = some k → k.body = h.packet.body ∧ k.header = h.packet.header ∧
          exec (.heldPacketRelease l) s = .next (if h.packet.type == 0x10 then (x.readHeld h).1.receiveBucket l.toNat k false
            else (x.readHeld h).1.receiveOstage l.toNat k false)) ∧
        (h.marks = [] → x.readHeld h = (x, some h.packet)) ∧
        ((∀ m ∈ h.marks, m.2.stained = true → preludeBytes h.packet ≤ 8 * m.1) → ∃ k, (x.readHeld h).2 = some k)) ∧
    ∀ (q : BitVec 32) (s : State),
      ((s.fabric.unacked.find? fun u => u.seq == q.toNat) = none ∨ s.diesActive = false → exec (.controlPacketResend q) s = .next s) ∧
      ∀ u, (s.fabric.unacked.find? fun u => u.seq == q.toNat) = some u → s.diesActive = true → u.sends < 16 →
        (s.members.filter fun e => rankAddress e.2 == u.dest).any (fun e => !rankLost e.2) = true →
        exec (.controlPacketResend q) s = .next (State.emit { s with
          fabric := { s.fabric with unacked := { u with sends := u.sends + 1 } :: s.fabric.unacked.erase u } } u.packet) ∧
        (u.packet.format ≠ 1 → ∃ t, exec (.controlPacketResend q) s = .next t ∧ t.sent = s.sent ++ [u.packet] ∧
          t.fabric.unacked = { u with sends := u.sends + 1 } :: s.fabric.unacked.erase u ∧
          t = { s with sent := t.sent, fabric := t.fabric })

/-- A port takes good frames in order, counts the bad ones, and does what their link words ask (R404, R405, R408, R409, R415). FRAME at a
port that is not ACTIVE changes nothing. A frame with a wrong CRC counts a retry and asks again; at the 16th failed retry in a row of
the frame awaited the port enters FAULT. A good frame out of sequence is discarded. A good frame in sequence moves the receive sequence
number on by one modulo 16,384 and does what its link word says: credits of a VC come back, an acknowledged frame leaves the replay
buffer with every one before it, or all frames from the one asked for onward go on the line again in order; the packets and collectives
that waited are then tried again. Where no collective waits no frame changes memory, a core, a register or the plan. A packet to send
whose credits do not fit the partner's buffer, or behind another of its VC, or that draws on the shared pool while another waits for the
port, waits; else its port takes it. Which events count as a failed retry, and that packets wait so, are the model's choices (log
entries 52 and 54). -/
def Obligations.FramesInOrder : Prop :=
  (∀ (p : BitVec 5) (f : BitVec 2048) (s : State), SMap.wf Port.init s.fabric.ports = true → SMap.wf 0 s.err.retries = true →
    ((s.port p.toNat).state ≠ .active → exec (.frame p f) s = .next s) ∧
    ((s.port p.toNat).state = .active →
      (badFrame f.toNat = true →
        ((s.port p.toNat).fails + b2n ((s.port p.toNat).retrying && frameSeq f.toNat == (s.port p.toNat).rxSeq) < 16 →
          ∃ t, exec (.frame p f) s = .next t ∧ SMap.get 0 t.err.retries p.toNat = satAdd 32 (SMap.get 0 s.err.retries p.toNat) 1 ∧
            t = { s with fabric := t.fabric, err := t.err } ∧ (∀ q, q ≠ p.toNat → t.port q = s.port q) ∧
            (∃ n, n = (s.port p.toNat).fails + b2n ((s.port p.toNat).retrying && frameSeq f.toNat == (s.port p.toNat).rxSeq) ∧
              t.port p.toNat = { s.port p.toNat with retrying := true, fails := n })) ∧
        (16 ≤ (s.port p.toNat).fails + b2n ((s.port p.toNat).retrying && frameSeq f.toNat == (s.port p.toNat).rxSeq) →
          ∃ t, exec (.frame p f) s = .next t ∧
            (s.collectives = [] → (t.port p.toNat).state = .fault ∧ t.mem = s.mem ∧ t.cores = s.cores ∧ t.plan = s.plan))) ∧
      (badFrame f.toNat = false → frameSeq f.toNat ≠ (s.port p.toNat).rxSeq → exec (.frame p f) s = .next s) ∧
      (badFrame f.toNat = false → frameSeq f.toNat = (s.port p.toNat).rxSeq → ∃ t k', exec (.frame p f) s = .next t ∧
        t = (State.pump (s.setPort p.toNat (Port.linkWord k' (frameLink f.toNat)))).retryCollectives ∧
        k' = { s.port p.toNat with
          rxSeq := ((s.port p.toNat).rxSeq + 1) % 16384, retrying := false, fails := 0, stream := k'.stream } ∧
        (s.collectives = [] → t = { s with fabric := t.fabric } ∧ (t.port p.toNat).rxSeq = ((s.port p.toNat).rxSeq + 1) % 16384 ∧
          (t.port p.toNat).retrying = false ∧ (t.port p.toNat).fails = 0 ∧ (t.port p.toNat).state = .active) ∧
        (s.collectives = [] → s.fabric.waits = [] → (∀ q, q ≠ p.toNat → t.port q = s.port q) ∧
          (fld (frameLink f.toNat) 0 2 = 0 → (t.port p.toNat).inUse = (s.port p.toNat).inUse.modify (fld (frameLink f.toNat) 2 2) fun n =>
            n - fld (frameLink f.toNat) 4 10) ∧
          (∀ pre b post, fld (frameLink f.toNat) 0 2 = 1 → (s.port p.toNat).replay = pre ++ (fld (frameLink f.toNat) 2 14, b) :: post →
            (∀ x ∈ pre, x.1 ≠ fld (frameLink f.toNat) 2 14) → (t.port p.toNat).acked = some (fld (frameLink f.toNat) 2 14) ∧
              (t.port p.toNat).replay = post ∧
              ∀ x ∈ (t.port p.toNat).flying, x.1 ≠ fld (frameLink f.toNat) 2 14 ∧ x.1 ∉ pre.map Prod.fst) ∧
          (∀ pre b post, fld (frameLink f.toNat) 0 2 = 2 → (s.port p.toNat).replay = pre ++ (fld (frameLink f.toNat) 2 14, b) :: post →
            (∀ x ∈ pre, x.1 ≠ fld (frameLink f.toNat) 2 14) → (t.port p.toNat).line =
              (s.port p.toNat).line ++ fld (frameLink f.toNat) 2 14 :: post.map Prod.fst))))) ∧
  ∀ (s : State) (x : Sending) (p : Nat), s.portOf x = some p →
    (((s.fabric.waits.any fun y => y.packet.vc == x.packet.vc && s.portOf y == some p) = true ∨
        creditsFit ((s.port p).inUse.modify x.packet.vc fun n => n + packetCredits x.packet) = false ∨
        ((s.fabric.waits.any fun y => s.portOf y == some p) = true ∧
          pooled (s.port p).inUse < pooled ((s.port p).inUse.modify x.packet.vc fun n => n + packetCredits x.packet))) →
      s.carry x = { s with fabric := { s.fabric with waits := s.fabric.waits ++ [x] } }) ∧
    (s.mustWait x p = false → SMap.wf Port.init s.fabric.ports = true →
      s.carry x = s.setPort p ((s.carry x).port p) ∧
      ((s.carry x).port p).inUse = (s.port p).inUse.modify x.packet.vc (fun n => n + packetCredits x.packet) ∧
      ∃ fs, ((s.carry x).port p).replay = (s.port p).replay ++ fs ∧ ((s.carry x).port p).line = (s.port p).line ++ fs.map Prod.fst ∧
        fs.flatMap Prod.snd = s.fillFrames (linkBytes x.packet)) ∧
    ((s.fabric.waits.any fun y => s.portOf y == some p) = false →
      creditsFit ((s.port p).inUse.modify x.packet.vc fun n => n + packetCredits x.packet) = true → s.mustWait x p = false)

/-- A port passes DETECT, EQUALISE and MEASURE to ACTIVE, and reaches FAULT from EQUALISE and ACTIVE (R402, R403, R404, R405, R570).
PARTNER_DETECTED moves a port in DETECT to EQUALISE; EQUALISE_DONE, while the service processors run that tune its lanes, moves one in
EQUALISE to MEASURE or, untuned, to FAULT; MEASURE_DONE moves one in MEASURE to ACTIVE at the lower of the partner's highest generation
and the cap, with its round trip recorded; FRAME_RETRY_EXHAUSTED moves one in ACTIVE to FAULT, where no packet of its own is left. In
every other state of the port the row changes nothing. The first two change nothing of another port; the others may give another port
packets to send, but only where some wait or were in flight on the failed port, and try the waiting packets and collectives again. Where
no collective waits no row changes the state of another port, memory, a core or the plan. -/
def Obligations.PortStates : Prop :=
  ∀ (p : BitVec 5) (g : BitVec 2) (tuned : Bool) (rtt delay : BitVec 16) (s : State), SMap.wf Port.init s.fabric.ports = true → 2 ≤ g.toNat →
    ((s.port p.toNat).state = .detect → ∃ t, exec (.partnerDetected p g) s = .next t ∧ (t.port p.toNat).state = .equalise ∧
      (∀ q, q ≠ p.toNat → t.port q = s.port q) ∧ t.mem = s.mem ∧ t.cores = s.cores ∧ t.plan = s.plan) ∧
    ((s.port p.toNat).state ≠ .detect → exec (.partnerDetected p g) s = .next s) ∧
    ((s.port p.toNat).state = .equalise → s.processors = true → ∃ t, exec (.equaliseDone p tuned) s = .next t ∧
      (t.port p.toNat).state = (if tuned then .measure else .fault) ∧ (∀ q, q ≠ p.toNat → t.port q = s.port q) ∧ t.mem = s.mem ∧
      t.cores = s.cores ∧ t.plan = s.plan) ∧
    ((s.port p.toNat).state ≠ .equalise ∨ s.processors = false → exec (.equaliseDone p tuned) s = .next s) ∧
    ((s.port p.toNat).state = .measure → ∃ t, exec (.measureDone p rtt delay) s = .next t ∧
      t = (State.pump (s.enterPort p.toNat { s.port p.toNat with
        rtt := rtt.toNat, delay := delay.toNat,
        generation := min (if (s.port p.toNat).partner2 then 2 else 3) (s.port p.toNat).capUsed } .active)).retryCollectives ∧
      (s.collectives = [] → (t.port p.toNat).state = .active ∧ (t.port p.toNat).rtt = rtt.toNat ∧
        (t.port p.toNat).generation = min (if (s.port p.toNat).partner2 then 2 else 3) (s.port p.toNat).capUsed ∧
        (∀ q, q ≠ p.toNat → (t.port q).state = (s.port q).state) ∧ (s.fabric.waits = [] → ∀ q, q ≠ p.toNat → t.port q = s.port q) ∧
        t.mem = s.mem ∧ t.cores = s.cores ∧ t.plan = s.plan)) ∧
    ((s.port p.toNat).state ≠ .measure → exec (.measureDone p rtt delay) s = .next s) ∧
    ((s.port p.toNat).state = .active → ∃ t, exec (.frameRetryExhausted p) s = .next t ∧ t = s.faultPort p.toNat ∧
      (s.collectives = [] → (t.port p.toNat).state = .fault ∧ (t.port p.toNat).flying = [] ∧
        (∀ q, q ≠ p.toNat → (t.port q).state = (s.port q).state) ∧
        (s.fabric.waits = [] → (s.port p.toNat).flying = [] → ∀ q, q ≠ p.toNat → t.port q = s.port q) ∧
        t.mem = s.mem ∧ t.cores = s.cores ∧ t.plan = s.plan)) ∧
    ((s.port p.toNat).state ≠ .active → exec (.frameRetryExhausted p) s = .next s)

/-- A failed mesh link leaves service once, a lost beacon clears alignment, and a merge entry retires by one read of its word (R37, R38,
R430, R490, R496, R503). MESH_LINK_FAILURE of a link in service adds it to those out of service, marks the operations of cores whose
transfer retries over it (the model's, log entry 19), and changes otherwise only records and the partition mark; of a link already out
it changes nothing. BEACON_LOSS on a module that is its own source changes nothing; on every other it clears aligned, locking and the
run of good beacons, whether or not a beacon ever came (log entry 51). MERGE_ENTRY_RETIRE takes the M-die's oldest entry out of its
merge buffer and counts the read of the word as the word was when the entry began: memory does not change, and where the word was good
nothing else does, and where no processor runs (R570) nothing is counted; that the oldest entry goes first is the model's (log entry
53). With no entry it changes nothing. -/
def Obligations.MeshAndBeaconLoss : Prop :=
  (∀ (a b : BitVec 5) (s : State), meshLinked a.toNat b.toNat = true →
      (s.meshDown.contains (link a.toNat b.toNat) = true → exec (.meshLinkFailure a b) s = .next s) ∧
      (s.meshDown.contains (link a.toNat b.toNat) = false → ∃ t, exec (.meshLinkFailure a b) s = .next t ∧
        t.meshDown = s.meshDown ++ [link a.toNat b.toNat] ∧ (s.partitioned = true → t.partitioned = true) ∧
        ((partner s.meshDown a.toNat b.toNat).isSome = true → t.partitioned = true) ∧
        t = { s with meshDown := t.meshDown, partitioned := t.partitioned, cores := t.cores, link := t.link, rings := t.rings, err := t.err } ∧
        ∀ c, t.core c = { s.core c with ops := (t.core c).ops } ∧
          (t.core c).ops = (s.core c).ops.map fun q =>
            if q.dies.any fun d => (meshPath (c / 32) d).contains (link a.toNat b.toNat) then { q with retried := true } else q)) ∧
    (∀ s : State, ((bit s.crest.control 1 && fld s.crest.control 2 18 == s.address) = true → exec .beaconLoss s = .next s) ∧
      ((bit s.crest.control 1 && fld s.crest.control 2 18 == s.address) = false →
        ∃ t, exec .beaconLoss s = .next t ∧ t.crest.aligned = false ∧ t.crest.locking = false ∧ t.crest.good = 0 ∧ t.crest.beacons = false ∧
          t.crest.counter = s.crest.counter ∧ t.mem = s.mem ∧ t.cores = s.cores ∧ t.plan = s.plan ∧ t.steps = s.steps)) ∧
    ∀ (m : BitVec 4) (s : State), m.toNat < 12 →
      ((s.merge.find? fun e => e.mdie == m.toNat) = none → exec (.mergeEntryRetire m) s = .next s) ∧
      ∀ e, (s.merge.find? fun e => e.mdie == m.toNat) = some e → ∃ t, exec (.mergeEntryRetire m) s = .next t ∧
        t = { s with merge := s.merge.erase e, link := t.link, rings := t.rings, err := t.err } ∧
        (e.mark = .clean ∨ e.mark = .carried ∨ s.processors = false → t = { s with merge := s.merge.erase e }) ∧
        (e.mark = .sweep → s.processors = true → regionOf s.code e.word = some (.stack m.toNat) → SMap.wf ⟨0, 0, 0⟩ s.err.mem = true →
          (SMap.get ⟨0, 0, 0⟩ t.err.mem (8 * (8 + m.toNat))).unwritten = satAdd 21 (SMap.get ⟨0, 0, 0⟩ s.err.mem (8 * (8 + m.toNat))).unwritten 1)

/-- Presence loss moves the module to ABSENT and input power loss to PRESENT, in any state (R477). What the contacts' rows do beside the
hot-plug state is the model's (log entry 55). In any state but ABSENT itself, presence loss (seen while the pre-charge contact feeds the
sensing) moves the module to ABSENT, and the loss of input power moves it to PRESENT; in ABSENT the rows change nothing. -/
def Obligations.PresenceAndInputLoss : Prop :=
  ∀ s : State,
    (s.power.hot ≠ .absent → s.side.pchg = true → ∃ t, exec .presenceLoss s = .next t ∧ t.power.hot = .absent) ∧
    (s.power.hot ≠ .absent → ∃ t, exec .inputPowerLoss s = .next t ∧ t.power.hot = .present) ∧
    (s.power.hot = .absent → exec .presenceLoss s = .next s ∧ exec .inputPowerLoss s = .next s)

/-- The hot-plug rows move the module along R476 and otherwise change nothing (R445, R476, R479, R485, R487, R493, R543, R580, R581).
PRESENCE_CLOSE moves ABSENT to PRESENT, the pre-charge contact having made before it (the model's reading, log entry 83); ENTER_POWERED
moves PRESENT with soft start and Cairn's boot done to POWERED; LINK_TRAINED moves POWERED, booted and out of reset, at a revision
within the cap, to LINKED with that revision; LINK_DOWN moves every state with the link up to POWERED and keeps the plan, memory and
cores (log entries 55 and 73); QUIESCE_DRAINED moves QUIESCING with all descriptors completed to RELEASED; RESET_DONE takes its die from
those in reset, and that of the device takes all; STACK_POISON_DONE takes its stack from those being poisoned, and the packets and
collectives that waited are then tried again in order. Where its condition does not hold a row changes nothing. -/
def Obligations.HotPlugRows : Prop :=
  ∀ s : State,
    (s.power.hot = .absent → ∃ t, exec .presenceClose s = .next t ∧ t.power.hot = .present ∧ t.side.pchg = true ∧
      t.power = { s.power with hot := .present } ∧ t.mem = s.mem) ∧
    (s.power.hot ≠ .absent → exec .presenceClose s = .next s) ∧
    (s.power.hot = .present → s.power.softStart = true → s.power.booted = true → ∃ t, exec .enterPowered s = .next t ∧ t.power.hot = .powered) ∧
    (s.power.hot ≠ .present ∨ s.power.softStart = false ∨ s.power.booted = false → exec .enterPowered s = .next s) ∧
    (∀ (v : BitVec 2) (rev : Bool), v ≠ 0 → s.power.hot = .powered → s.power.booted = true → s.power.resetting.contains 24 = false →
      v.toNat ≤ s.link.cap →
      ∃ t, exec (.linkTrained v rev) s = .next t ∧ t.power.hot = .linked ∧ t.link.revision = v.toNat ∧ t.link.reversed = rev ∧ t.mem = s.mem) ∧
    (∀ (v : BitVec 2) (rev : Bool), v ≠ 0 → (s.power.hot ≠ .powered ∨ s.power.booted = false ∨ s.power.resetting.contains 24 = true ∨
      s.link.cap < v.toNat) → exec (.linkTrained v rev) s = .next s) ∧
    (s.linkUp = true → ∃ t, exec .linkDown s = .next t ∧ t.power.hot = .powered ∧ t.power.quiesce = none ∧ t.plan = s.plan ∧ t.mem = s.mem ∧
      t.tiles = s.tiles ∧ t.cores = s.cores ∧ t.steps = s.steps ∧ t.power.state = s.power.state) ∧
    (s.linkUp = false → exec .linkDown s = .next s) ∧
    (∀ d, s.power.quiesce = some d → s.power.hot = .quiescing → s.drained d = true →
      ∃ t, exec .quiesceDrained s = .next t ∧ t.power.hot = .released ∧ t.power.quiesce = none ∧ t.mem = s.mem) ∧
    (s.power.quiesce = none ∨ s.power.hot ≠ .quiescing → exec .quiesceDrained s = .next s) ∧
    (∀ d, s.power.quiesce = some d → s.drained d = false → exec .quiesceDrained s = .next s) ∧
    (∀ d : BitVec 5, d.toNat ≤ 24 → ∃ t, exec (.resetDone d) s = .next t ∧ t.power.resetting.contains d.toNat = false ∧
      t = { s with power := { s.power with resetting := t.power.resetting } } ∧ (d.toNat = 24 → t.power.resetting = []) ∧
      (d.toNat < 24 → ∀ x, x ≠ d.toNat → (x ∈ t.power.resetting ↔ x ∈ s.power.resetting)) ∧
      (d.toNat < 24 → d.toNat ∉ s.power.resetting → t = s)) ∧
    ∀ m : BitVec 4, m.toNat < 12 → ∃ t, exec (.stackPoisonDone m) s = .next t ∧
      t = State.unblock { s with power := { s.power with poisoning := s.power.poisoning.filter fun x => x != m.toNat } } ∧
      t.power.poisoning.contains m.toNat = false ∧ (∀ x, x ≠ m.toNat → (x ∈ t.power.poisoning ↔ x ∈ s.power.poisoning)) ∧
      (s.fabric.blocked = [] → s.collectives = [] → t = { s with power := { s.power with poisoning := t.power.poisoning } } ∧
        (m.toNat ∉ s.power.poisoning → t = s))

/-- A power transition moves one state towards its target (R483, R487, R517, R519, R520, R521). POWER_TRANSITION with no transition in
progress changes nothing; with one on a module in READY or QUIESCING it moves the power state to the next one on the line RUN, READY,
HOLD, REST, DORMANT towards the target, and the hot-plug state stays; on reaching the target the transition ends. Between RUN, READY and
HOLD memory and cores keep their contents. In every other hot-plug state no power state is entered: the transition ends where it stands,
with memory, cores and plan as before. -/
def Obligations.PowerStateSteps : Prop :=
  ∀ s : State, (s.power.target = none → exec .powerTransition s = .next s) ∧
    ∀ g, s.power.target = some g →
      (s.power.hot = .ready ∨ s.power.hot = .quiescing → ∃ t, exec .powerTransition s = .next t ∧ t.power.state = s.power.state.toward g ∧
        t.power.hot = s.power.hot ∧
        (s.power.state.toward g = g → t.power.target = none) ∧ (s.power.state.toward g ≠ g → t.power.target = some g) ∧
        (s.power.state.code ≤ 2 → g.code ≤ 2 → t.mem = s.mem ∧ t.tiles = s.tiles ∧ t.cores = s.cores) ∧
        (s.power.state.code < g.code → (s.power.state.toward g).code = s.power.state.code + 1) ∧
        (g.code < s.power.state.code → (s.power.state.toward g).code + 1 = s.power.state.code)) ∧
      (s.power.hot ≠ .ready → s.power.hot ≠ .quiescing → ∃ t, exec .powerTransition s = .next t ∧
        t.power = { s.power with target := none, desc := none } ∧ t.mem = s.mem ∧ t.tiles = s.tiles ∧ t.cores = s.cores ∧ t.plan = s.plan ∧
        ∀ d, s.power.desc = some d → t.descs = s.descs.erase d)

/-- Dips, over-voltage and trips (R525, R526, R527, R528, R530, R539). SUPPLY_DIP below the warning level begins a dip on a powered module
with none; SUPPLY_DIP_END writes event 0x30 with the dip's lowest sample, duration, crests and first crest, counts one dip, ends it and
marks in the crest log every crest it overlapped; SUPPLY_LOW writes event 0x31 with the lowest sample and the duration so far; above 72
V OVER_VOLTAGE writes event 0x37 with its highest sample and is counted; none of them changes memory or cores. TRIP below 50 V, or at
115 degrees or more of a junction sensor whose sample before was at that level, on a powered module turns it to PRESENT with a valid
trip record that holds the cause, the value and the crest counter, and its count grows by one up to 255; any other TRIP changes nothing. -/
def Obligations.SupplyRows : Prop :=
  ∀ s : State,
    (∀ x : BitVec 16, s.powered = true → s.power.dip = none → x.toNat < s.power.warnVoltage →
      ∃ t, exec (.supplyDip x) s = .next t ∧ t.power.dip = some ⟨x.toNat, [s.crest.counter]⟩ ∧ t.mem = s.mem ∧ t.cores = s.cores) ∧
    (∀ x : BitVec 16, (s.powered = false ∨ s.power.dip ≠ none ∨ s.power.warnVoltage ≤ x.toNat) → exec (.supplyDip x) s = .next s) ∧
    (∀ (x : BitVec 16) (y : BitVec 32), s.power.dip = none → exec (.supplyDipEnd x y) s = .next s ∧ exec (.supplyLow x y) s = .next s) ∧
    (∀ (x : BitVec 16) (y : BitVec 32) d, s.power.dip = some d → SMap.wf 0 s.crest.log = true →
      (∃ t z : State, exec (.supplyDipEnd x y) s = .next t ∧ t.power.dip = none ∧ t.err.dips = satAdd 32 s.err.dips 1 ∧
        z = s.event 0x30 4 0 noStep (min d.lowest x.toNat + y.toNat <<< 16 + (min 65535 d.crests.length) <<< 48 +
          (d.crests.headD 0 % 2 ^ 32) <<< 64) ∧
        t = { z with err := { z.err with dips := satAdd 32 s.err.dips 1 }, crest := t.crest, power := { z.power with dip := none } } ∧
        (∀ c ∈ d.crests, bit (SMap.get 0 t.crest.log (c % 65536)).toNat 0 = true) ∧ t.mem = s.mem ∧ t.cores = s.cores) ∧
      ∃ t, exec (.supplyLow x y) s = .next t ∧ (∃ e, t.power.dip = some e ∧ e.crests = d.crests ∧ e.lowest = min d.lowest x.toNat ∧
          t = ({ s with power := { s.power with dip := some e } } : State).event 0x31 4 0 noStep (min d.lowest x.toNat + y.toNat <<< 16)) ∧
        t.mem = s.mem ∧ t.cores = s.cores) ∧
    (∀ x : BitVec 16, (s.powered = true → 7200 < x.toNat → ∃ t, exec (.overVoltage x) s = .next t ∧
        t.err.overVolts = satAdd 32 s.err.overVolts 1 ∧ t.mem = s.mem ∧ t.cores = s.cores ∧ t.power = s.power ∧
        t = ({ s with err := { s.err with overVolts := satAdd 32 s.err.overVolts 1 } } : State).event 0x37 4 0 noStep x.toNat) ∧
      (s.powered = false ∨ x.toNat ≤ 7200 → exec (.overVoltage x) s = .next s)) ∧
    ∀ (h : Bool) (n : BitVec 8) (v : BitVec 16), (h = true → n.toNat ≤ 48) →
      (s.powered = false ∨ (h = false ∧ 5000 ≤ v.toNat) ∨ (h = true ∧ (v.toNat < 115 ∨ s.monitor.hot.contains n.toNat = false)) →
        exec (.trip h n v) s = .next s) ∧
      (s.powered = true → (h = false → v.toNat < 5000) → (h = true → 115 ≤ v.toNat ∧ s.monitor.hot.contains n.toNat = true) →
        ∃ t, exec (.trip h n v) s = .next t ∧ t.power.hot = .present ∧ t.side.trip.valid = true ∧
        t.side.trip.cause = b2n h ∧ t.side.trip.value = v.toNat ∧ t.side.trip.crest = s.crest.counter ∧
        (h = true → t.side.trip.sensor = n.toNat) ∧ t.side.trip.count = min (s.side.trip.count + 1) 255)

/-- Samples are stored with the crest, and warnings are recorded and change no result (R474, R502, R527, R528, R533, R534, R535, R548, R570,
R571, R609). SENSOR_SAMPLE of a junction or stack sensor that runs, on a powered module whose processors run, stores its reading with
the low 32 bits of the crest counter. A junction sample of 115 degrees or more is noted, and a second one in a row trips the module,
with the sensor and the value in the trip record (log entry 79). COOLANT_EVENT on a powered module notes a reading that is out of range
as its kind says and marks the crest's log entry, and with kind 3 notes inlet and flow in range; a reading that is not out of range so
changes nothing; POWER_WARNING above the warning level notes the excess and marks it. STACK_FAULT writes its event: where the event ring
has room and the link is up, its producer index moves on by one. PROCESSOR_RESTART counts the restart of the processor, up to 255, and
appends a log entry; FIREWALLED_ACCESS counts and does nothing else. But for a trip none of the six changes memory, a core, the plan, a
step, a scale or the parameter store. -/
def Obligations.SensorsAndWarnings : Prop :=
  ∀ s : State,
    (∀ (n : BitVec 7) (v : BitVec 16), n.toNat ≤ 60 → s.powered = true → s.processors = true → sensorStopped s.power.state n.toNat = false →
      SMap.wf (0x8000, 0) s.monitor.readings = true →
      (n.toNat ≤ 48 → signed 16 v.toNat < 1150 ∨ s.monitor.hot.contains n.toNat = false) →
      ∃ t, exec (.sensorSample n v) s = .next t ∧ SMap.get (0x8000, 0) t.monitor.readings n.toNat = (v.toNat, s.crest.counter % 2 ^ 32) ∧
        (n.toNat ≤ 48 → (t.monitor.hot.contains n.toNat = true ↔ 1150 ≤ signed 16 v.toNat))) ∧
    (∀ (n : BitVec 7) (v : BitVec 16), n.toNat ≤ 48 → s.powered = true → sensorStopped s.power.state n.toNat = false →
      1150 ≤ signed 16 v.toNat → s.monitor.hot.contains n.toNat = true →
      ∃ t, exec (.sensorSample n v) s = .next t ∧ t.power.hot = .present ∧ t.side.trip.valid = true ∧ t.side.trip.cause = 1 ∧
        t.side.trip.sensor = n.toNat ∧ t.side.trip.value = (signed 16 v.toNat / 10).toNat ∧ t.side.trip.crest = s.crest.counter) ∧
    (∀ (k : BitVec 2) (v : BitVec 16), s.powered = true →
      (k ≠ 3 → coolantKind (if k = 2 then 63 else 61) v.toNat = some k.toNat → SMap.wf 0 s.crest.log = true →
        ∃ t, exec (.coolantEvent k v) s = .next t ∧ (if k = 2 then t.monitor.flowOut else t.monitor.inletOut) = true ∧
        bit (SMap.get 0 t.crest.log (s.crest.counter % 65536)).toNat 2 = true ∧ t.crest.counter = s.crest.counter) ∧
      (k ≠ 3 → coolantKind (if k = 2 then 63 else 61) v.toNat ≠ some k.toNat → exec (.coolantEvent k v) s = .next s) ∧
      ∃ t, exec (.coolantEvent 3 v) s = .next t ∧ t.monitor.inletOut = false ∧ t.monitor.flowOut = false ∧ t.crest.log = s.crest.log) ∧
    (∀ v : BitVec 16, s.powered = true → s.power.warnPower ≠ 0 → s.power.warnPower < v.toNat → SMap.wf 0 s.crest.log = true →
      ∃ t, exec (.powerWarning v) s = .next t ∧ t.monitor.powerHigh = true ∧
        bit (SMap.get 0 t.crest.log (s.crest.counter % 65536)).toNat 4 = true) ∧
    (∀ (m e : BitVec 4), m.toNat < 12 → e.toNat ≤ 2 → s.powered = true → exec (.stackFault m e) s = .next (s.event 0x27 6 m.toNat noStep e.toNat) ∧
      ((s.ring 20).enable = true → (s.ring 20).full = false → s.linkUp = true → s.power.hot ≠ .released → s.err.lostUnreported = 0 →
        SMap.wf Ring.init s.rings = true →
        ∃ t, exec (.stackFault m e) s = .next t ∧ (t.ring 20).prod = ((s.ring 20).prod + 1) % 2 ^ 32 ∧ t.err = s.err)) ∧
    (∀ p : BitVec 2, s.processors = true → ∃ t, exec (.processorRestart p) s = .next t ∧
      t.cairn.restarts = s.cairn.restarts.modify p.toNat (fun n => satAdd 8 n 1) ∧ t.cairn.logTotal = s.cairn.logTotal + 1 ∧
      t = { s with cairn := t.cairn }) ∧
    (∀ p : BitVec 2, s.processors = true →
      exec (.firewalledAccess p) s = .next { s with cairn := { s.cairn with firewall := satAdd 32 s.cairn.firewall 1 } }) ∧
    ∀ (n : BitVec 7) (v : BitVec 16) (k : BitVec 2) (m : BitVec 4) (e : BitVec 4) (p : BitVec 2) (i : Instr), n.toNat ≤ 67 → m.toNat < 12 → e.toNat ≤ 2 →
      (n.toNat ≤ 48 → signed 16 v.toNat < 1150 ∨ s.monitor.hot.contains n.toNat = false) →
      i ∈ [.sensorSample n v, .coolantEvent k v, .powerWarning v, .stackFault m e, .processorRestart p, .firewalledAccess p] →
      ∃ t, exec i s = .next t ∧ t.mem = s.mem ∧ t.tiles = s.tiles ∧ t.cores = s.cores ∧ t.plan = s.plan ∧ t.steps = s.steps ∧
        t.scales = s.scales ∧ t.store = s.store ∧ t.power = s.power

/-- A register write takes effect or sets the illegal-write bit, as the hot-plug state and its checks say (R481, R597, R598, R599, R612).
For each row that writes one setup register (crest, array, reset, core-map, ring, module-enable, supply, fabric-address, port, error-
status and the nine mailbox commands): below LINKED nothing changes; in LINKED a register outside the identity, host-link and Cairn-
mailbox blocks is refused with cause 3; otherwise an accepted write answers the state with its effect, and a refused one answers the
state with the illegal-write record of its offset and cause and nothing else. -/
def Obligations.RegisterWritesAreChecked : Prop :=
  ∀ (i : Instr) (off : Nat) (f : State → RegResult) (s : State), registerRow i = some (off, f) → i.wf = true →
    (s.power.hot.code < 3 → exec i s = .next s) ∧
    (s.power.hot = .linked → linkedBlock off = false → exec i s = .next (s.illegalWrite false off 3)) ∧
    (4 ≤ s.power.hot.code ∨ (s.power.hot = .linked ∧ linkedBlock off = true) →
      (∀ t, f s = .ok t → exec i s = .next t) ∧ ∀ c, f s = .error c → exec i s = .next (s.illegalWrite false off c))

/-- Width, place and record of writes into the register window and the doorbell page (R451, R595, R596, R597, R612, R613). REGISTER_WRITE
below LINKED changes nothing. From LINKED on, a write into the window that is not 8 bytes aligned to 8 is refused with cause 0, one to
an offset that no register has with cause 1, and any other is a write of that register; a write into the doorbell page that is not 4
bytes at a multiple of 64 is refused with cause 0, one to a slot past the 21 rings with cause 1, and any other is the ring's doorbell.
COUNT_CLEAR is an 8-byte write of its register. The record of a refused write keeps an earlier record, else holds offset, doorbell bit
and cause; ERROR_STATUS_CLEAR clears the bits written as 1, the record with the first of them. -/
def Obligations.RegisterWindow : Prop :=
  (∀ (d : Bool) (off : BitVec 17) (w : BitVec 8) (v : Word) (s : State),
      (s.power.hot.code < 3 → exec (.registerWrite d off w v) s = .next s) ∧
      (3 ≤ s.power.hot.code →
        (w ≠ 8 ∨ off.toNat % 8 ≠ 0 → exec (.registerWrite false off w v) s = .next (s.illegalWrite false off.toNat 0)) ∧
        (off.toNat % 8 = 0 → registerAt off.toNat v.toNat = none →
          exec (.registerWrite false off 8 v) s = .next (s.illegalWrite false off.toNat 1)) ∧
        (∀ f, off.toNat % 8 = 0 → registerAt off.toNat v.toNat = some f →
          exec (.registerWrite false off 8 v) s = .next (s.regWrite off.toNat f)) ∧
        (w ≠ 4 ∨ off.toNat % 64 ≠ 0 → exec (.registerWrite true off w v) s = .next (s.illegalWrite true (off.toNat % 4096) 0)) ∧
        (off.toNat % 64 = 0 → 21 ≤ off.toNat % 4096 / 64 →
          exec (.registerWrite true off 4 v) s = .next (s.illegalWrite true (off.toNat % 4096) 1)) ∧
        (off.toNat % 64 = 0 → off.toNat % 4096 / 64 < 21 →
          exec (.registerWrite true off 4 v) s = .next (s.doorbell (off.toNat % 4096 / 64) (v.toNat % 2 ^ 32)))) ∧
      exec (.countClear off v) s = exec (.registerWrite false off 8 v) s) ∧
    (∀ (d : Bool) (off c : Nat) (s : State), c < 16 → (s.err.illegal = true → s.illegalWrite d off c = s) ∧
      (s.err.illegal = false → s.illegalWrite d off c = { s with err := (s.illegalWrite d off c).err } ∧
        (s.illegalWrite d off c).err.illegal = true ∧ fld (s.illegalWrite d off c).err.illegalInfo 0 17 = off % 2 ^ 17 ∧
        bit (s.illegalWrite d off c).err.illegalInfo 17 = d ∧ fld (s.illegalWrite d off c).err.illegalInfo 18 4 = c)) ∧
    ∀ (v : Word) (s : State), 4 ≤ s.power.hot.code → fld v.toNat 2 62 = 0 →
      ∃ t, exec (.errorStatusClear v) s = .next t ∧ t = { s with err := t.err } ∧ t.err.illegal = (s.err.illegal && !bit v.toNat 0) ∧
        t.err.losses = (s.err.losses && !bit v.toNat 1) ∧ t.err.illegalInfo = (if bit v.toNat 0 then 0 else s.err.illegalInfo)

/-- The crest, array, threshold and supply settings take legal values and refuse the others with cause 2 (R51, R146, R399, R526, R538,
R604). From ATTESTED on, CREST_PERIOD takes 2,000 to 1,000,000 ns for the next boundary while no plan is loaded, and is refused with
cause 3 while one is; BATCHING_WAIT takes up to 65,535 ns; ZERO_STREAK_THRESHOLD takes 1 to 65,535; ARRAY_CURRENT_CONTROL takes a
density up to 64 with reserved bits 0; CREST_CONTROL takes a legal source address with reserved bits 0; SUPPLY_THERMAL_CONTROL takes a
value within its fields' ranges with reserved bits 0, and where the input that was last sampled is below the new warning level starts a
dip with it (R538; that the input of that moment is the latest sample, and that no input is no dip, is the model's, log entry 47). But
for that dip each changes only its own register; every other value is refused with cause 2. -/
def Obligations.SettingsTakeWrites : Prop :=
  ∀ (v : Word) (s : State), 4 ≤ s.power.hot.code →
    (2000 ≤ v.toNat → v.toNat ≤ 1000000 → s.plan = none → exec (.crestPeriod v) s = .next { s with crest := { s.crest with periodNext := v.toNat } }) ∧
    (2000 ≤ v.toNat → v.toNat ≤ 1000000 → s.plan ≠ none → exec (.crestPeriod v) s = .next (s.illegalWrite false 0x200 3)) ∧
    (v.toNat < 2000 ∨ 1000000 < v.toNat → exec (.crestPeriod v) s = .next (s.illegalWrite false 0x200 2)) ∧
    (fld v.toNat 20 44 = 0 → (bit v.toNat 1 = true → fld v.toNat 2 6 ≤ 33) →
      exec (.crestControl v) s = .next { s with crest := { s.crest with controlNext := v.toNat } }) ∧
    (fld v.toNat 20 44 ≠ 0 ∨ (bit v.toNat 1 = true ∧ 33 < fld v.toNat 2 6) → exec (.crestControl v) s = .next (s.illegalWrite false 0x208 2)) ∧
    (fld v.toNat 16 7 ≤ 64 → bit v.toNat 23 = false → fld v.toNat 56 8 = 0 →
      exec (.arrayCurrentControl v) s = .next { s with arrays := { s.arrays with current := v.toNat } }) ∧
    (64 < fld v.toNat 16 7 ∨ bit v.toNat 23 = true ∨ fld v.toNat 56 8 ≠ 0 →
      exec (.arrayCurrentControl v) s = .next (s.illegalWrite false 0x400 2)) ∧
    (v.toNat ≤ 65535 → exec (.batchingWait v) s = .next { s with arrays := { s.arrays with batchWait := v.toNat } }) ∧
    (65535 < v.toNat → exec (.batchingWait v) s = .next (s.illegalWrite false 0x408 2)) ∧
    (1 ≤ v.toNat → v.toNat ≤ 65535 → exec (.zeroStreakThreshold v) s = .next { s with arrays := { s.arrays with threshold := v.toNat } }) ∧
    (v = 0 ∨ 65535 < v.toNat → exec (.zeroStreakThreshold v) s = .next (s.illegalWrite false 0x410 2)) ∧
    (520 ≤ fld v.toNat 0 10 → fld v.toNat 0 10 ≤ 580 → fld v.toNat 10 6 = 0 → 85 ≤ fld v.toNat 16 7 → fld v.toNat 16 7 ≤ 110 →
      bit v.toNat 23 = false → 70 ≤ fld v.toNat 24 7 → fld v.toNat 24 7 ≤ 95 → bit v.toNat 31 = false →
      (fld v.toNat 32 12 = 0 ∨ (100 ≤ fld v.toNat 32 12 ∧ fld v.toNat 32 12 ≤ 400)) → fld v.toNat 44 20 = 0 →
      exec (.supplyThermalControl v) s = .next { s with power := { s.power with
        supply := v.toNat,
        dip := if s.power.dip = none ∧ 0 < fld s.monitor.input 0 16 ∧ fld s.monitor.input 0 16 < fld v.toNat 0 10 * 10 then
          some ⟨fld s.monitor.input 0 16, [s.crest.counter]⟩ else s.power.dip } }) ∧
    (fld v.toNat 0 10 < 520 ∨ 580 < fld v.toNat 0 10 ∨ fld v.toNat 10 6 ≠ 0 ∨ fld v.toNat 16 7 < 85 ∨ 110 < fld v.toNat 16 7 ∨
        bit v.toNat 23 = true ∨ fld v.toNat 24 7 < 70 ∨ 95 < fld v.toNat 24 7 ∨ bit v.toNat 31 = true ∨
        (fld v.toNat 32 12 ≠ 0 ∧ (fld v.toNat 32 12 < 100 ∨ 400 < fld v.toNat 32 12)) ∨ fld v.toNat 44 20 ≠ 0 →
      exec (.supplyThermalControl v) s = .next (s.illegalWrite false 0x2000 2))

/-- A die reset returns its dies to their reset values; a device reset returns the device, and keeps fuses, host and sideband (R493, R543,
R544, R545, R546). From ATTESTED on, a C_RESET, M_RESET or L_RESET whose value names dies and no reserved bit is refused with cause 3
while a plan is loaded, talus is lent or bound, or a descriptor uses one of them. Otherwise the named dies are in reset; the cores of a
named C-die are at their reset state and its core stores and accumulators read 0 and stained; the stack of a named M-die reads 0 and
stained and is being poisoned, its program state at reset; the ports of a named L-die are DISABLED; cores of other C-dies, plan, steps
and host memory stay. A DEVICE_RESET leaves no plan, step, ring or core state, all of memory reading 0 and stained, hot-plug POWERED
with Cairn to boot, and keeps soft repairs, host memory and the trip record. -/
def Obligations.ResetCommands : Prop :=
  ∀ (v : Word) (s : State), 4 ≤ s.power.hot.code → fld v.toNat 24 8 = 0 → fld v.toNat 33 31 = 0 →
    SMap.wf MDie.init s.mdies = true → SMap.wf Port.init s.fabric.ports = true →
    (bit v.toNat 32 = false → fld v.toNat 0 24 ≠ 0 → s.resetForbidden v.toNat = true →
      ∀ i ∈ [Instr.cReset v, .mReset v, .lReset v], exec i s = .next (s.illegalWrite false 0x418 3)) ∧
    (bit v.toNat 32 = false → s.resetForbidden v.toNat = false → ∀ i ∈ [Instr.cReset v, .mReset v, .lReset v],
      ∃ t, exec i s = .next t ∧ (∀ d, d < 24 → bit v.toNat d = true → d ∈ t.power.resetting) ∧
        (∀ d, d < 8 → bit v.toNat d = true → (∀ c, 32 * d ≤ c → c < 32 * d + 32 → t.core c = CoreState.init) ∧
          (∀ a, storeBase + d * 2 ^ 28 ≤ a → a < storeBase + (d + 1) * 2 ^ 28 → t.loadByte a = (0, true)) ∧
          ∀ a, accBase + d * 2 ^ 26 ≤ a → a < accBase + (d + 1) * 2 ^ 26 → t.loadByte a = (0, true)) ∧
        (∀ m, m < 12 → bit v.toNat (8 + m) = true → t.mdie m = MDie.init ∧ m ∈ t.power.poisoning ∧
          ∀ o, o < s.code.stackBytes → t.loadByte (stackView + m * 2 ^ 36 + o) = (0, true)) ∧
        (∀ l k, l < 4 → k < 8 → bit v.toNat (20 + l) = true → (t.port (8 * l + k)).state = .disabled) ∧
        (∀ c, c < 256 → bit v.toNat (c / 32) = false → t.core c = s.core c) ∧
        t.plan = s.plan ∧ t.steps = s.steps ∧ t.link = s.link ∧ t.power.hot = s.power.hot) ∧
    (bit v.toNat 32 = true → fld v.toNat 0 24 = 0 → ∃ t, exec (.deviceReset v) s = .next t ∧ t.power.hot = .powered ∧ t.power.booted = false ∧
      t.power.resetting = [24] ∧ t.power.poisoning = List.range 12 ∧ t.plan = none ∧ t.steps = [] ∧ (∀ c, t.core c = CoreState.init) ∧
      (∀ i, t.ring i = Ring.init) ∧ (∀ a, t.loadByte a = (0, true)) ∧ t.fabric = { stale := true } ∧ t.power.repairs = s.power.repairs ∧
      t.link.bytes = s.link.bytes ∧ t.side.trip = s.side.trip ∧ t.code = s.code)

/-- Enabling a ring takes its fields and zeroes its indices, disabling stops it, MODULE_ENABLE enters READY (R449, R482, R488, R607, R608,
R622). From ATTESTED on: RING_ENABLE of a disabled ring with a legal size sets size, holdoff and enable and zeroes both indices; of an
enabled ring it is refused with cause 3. RING_DISABLE clears enable, but is refused with cause 3 for a completion ring with a reserved
record and for the event ring while the module is READY or QUIESCING. MODULE_ENABLE in ATTESTED with no enabled ring of an illegal base
or size enters READY and zeroes the indices of the rings that were in use when the link last went down; in READY it changes nothing;
with such a ring, or in QUIESCING or RELEASED, it is refused with cause 3. Which rings come back with zeroed indices is the model's
reading (log entry 55). -/
def Obligations.RingRows : Prop :=
  (∀ (r : BitVec 5) (v : Word) (s : State), 4 ≤ s.power.hot.code → r.toNat ≤ 20 → SMap.wf Ring.init s.rings = true →
      fld v.toNat 5 3 = 0 → fld v.toNat 9 7 = 0 → fld v.toNat 32 32 = 0 → 6 ≤ fld v.toNat 0 5 → fld v.toNat 0 5 ≤ 16 →
      (r.toNat < 16 → fld v.toNat 16 16 = 0) →
      (bit v.toNat 8 = true → (s.ring r.toNat).enable = true →
        exec (.ringEnable r v) s = .next (s.illegalWrite false (0x1008 + 64 * r.toNat) 3)) ∧
      (bit v.toNat 8 = true → (s.ring r.toNat).enable = false → r.toNat ≠ 20 → ∃ t, exec (.ringEnable r v) s = .next t ∧
        t = { s with rings := t.rings } ∧ (∀ i, i ≠ r.toNat → t.ring i = s.ring i) ∧
        t.ring r.toNat = { s.ring r.toNat with size := fld v.toNat 0 5, holdoff := fld v.toNat 16 16, enable := true, prod := 0, cons := 0,
                                               halted := false, holding := false, due := false, relinked := false }) ∧
      (bit v.toNat 8 = true → (s.ring 20).enable = false → ∃ t, exec (.ringEnable 20 v) s = .next t ∧ (t.ring 20).enable = true ∧
        t.eventsOpen = true ∧ t.heldEvents = [] ∧ t.mem = s.mem ∧ t.cores = s.cores ∧ t.plan = s.plan) ∧
      (bit v.toNat 8 = false → ((16 ≤ r.toNat ∧ r.toNat < 20 ∧ (s.ring r.toNat).enable = true ∧ (s.ring r.toNat).reserved ≠ 0) ∨
          (r.toNat = 20 ∧ (s.ring 20).enable = true ∧ (s.power.hot = .ready ∨ s.power.hot = .quiescing))) →
        exec (.ringDisable r v) s = .next (s.illegalWrite false (0x1008 + 64 * r.toNat) 3)) ∧
      (bit v.toNat 8 = false → (16 ≤ r.toNat → (s.ring r.toNat).reserved = 0) →
        (r.toNat = 20 → s.power.hot ≠ .ready ∧ s.power.hot ≠ .quiescing) → ∃ t, exec (.ringDisable r v) s = .next t ∧
          t = { s with rings := t.rings } ∧ (t.ring r.toNat).enable = false ∧ (∀ i, i ≠ r.toNat → t.ring i = s.ring i))) ∧
    ∀ s : State,
      (s.power.hot = .attested → s.badRing = false → ∃ t, exec (.moduleEnable 1) s = .next t ∧ t.power.hot = .ready ∧ t.power.enable = true ∧
        t.mem = s.mem ∧ t.cores = s.cores ∧ t.plan = s.plan ∧
        (SMap.wf Ring.init s.rings = true → ∀ i, i ≠ 20 → ((s.ring i).relinked = true → (t.ring i).prod = 0 ∧ (t.ring i).cons = 0) ∧
          ((s.ring i).relinked = false → t.ring i = s.ring i))) ∧
      (s.power.hot = .ready → exec (.moduleEnable 1) s = .next s) ∧
      ((s.power.hot = .attested ∧ s.badRing = true) ∨ s.power.hot = .quiescing ∨ s.power.hot = .released →
        exec (.moduleEnable 1) s = .next (s.illegalWrite false 0x1600 3))

/-- Core exchange and marking, the fabric address, and the enables of a port (R28, R29, R402, R605, R606, R610, R611). From ATTESTED on:
CORE_EXCHANGE without a plan swaps a logical core's physical core with the spare of its class on its C-die, changing no other core's, in
the map that the next plan load puts in force: until then every logical core runs where it ran; unless the spare is marked failed (cause
3); CORE_FAILED sets the set of indices marked failed on its C-die. PORT_ENABLE moves a DISABLED port to DETECT with the written cap,
changes nothing on a port that is already enabled, and is refused with cause 3 in REST and DORMANT; PORT_DISABLE puts a port into
DISABLED with nothing left but its caps; its packets in flight go to the other ports, and the packets and collectives that wait are
tried again. FABRIC_ADDRESS is refused with cause 3 while a plan is loaded or a port is not DISABLED, and otherwise sets rack and pod,
clearing the four rank tables where it changes one of them. -/
def Obligations.MapAndPortRows : Prop :=
  ∀ (v : Word) (s : State), 4 ≤ s.power.hot.code →
    (fld v.toNat 8 56 = 0 → s.plan = none → SMap.wf none s.coreMap.index = true → SMap.wf none s.coreMap.spare = true →
      (bit (SMap.get 0 s.coreMap.failed (fld v.toNat 0 8 / 32)) (s.spareIndex (fld v.toNat 0 8 / 32) (coreClass (fld v.toNat 0 8))) = true →
        exec (.coreExchange v) s = .next (s.illegalWrite false 0x420 3)) ∧
      (bit (SMap.get 0 s.coreMap.failed (fld v.toNat 0 8 / 32)) (s.spareIndex (fld v.toNat 0 8 / 32) (coreClass (fld v.toNat 0 8))) = false →
        ∃ t, exec (.coreExchange v) s = .next t ∧ t = { s with coreMap := t.coreMap } ∧
          t.coreIndex (fld v.toNat 0 8) = s.spareIndex (fld v.toNat 0 8 / 32) (coreClass (fld v.toNat 0 8)) ∧
          t.spareIndex (fld v.toNat 0 8 / 32) (coreClass (fld v.toNat 0 8)) = s.coreIndex (fld v.toNat 0 8) ∧
          t.coreMap.failed = s.coreMap.failed ∧ (∀ n, t.physicalCore n = s.physicalCore n) ∧
          ∀ n, n ≠ fld v.toNat 0 8 → t.coreIndex n = s.coreIndex n)) ∧
    (∀ d : BitVec 3, fld v.toNat 46 18 = 0 → ∃ t, exec (.coreFailed d v) s = .next t ∧
      t = { s with coreMap := { s.coreMap with failed := t.coreMap.failed } } ∧
      (SMap.wf 0 s.coreMap.failed = true → SMap.get 0 t.coreMap.failed d.toNat = fld v.toNat 0 34)) ∧
    (∀ p : BitVec 5, fld v.toNat 3 61 = 0 → 2 ≤ fld v.toNat 1 2 →
      (bit v.toNat 0 = true → 3 ≤ s.power.state.code → exec (.portEnable p v) s = .next (s.illegalWrite false (0x3100 + 16 * p.toNat) 3)) ∧
      (bit v.toNat 0 = true → s.power.state.code < 3 → (s.port p.toNat).state = .disabled → exec (.portEnable p v) s =
        .next (s.setPort p.toNat { s.port p.toNat with cap := fld v.toNat 1 2, capUsed := fld v.toNat 1 2, state := .detect })) ∧
      (bit v.toNat 0 = true → s.power.state.code < 3 → (s.port p.toNat).state ≠ .disabled →
        exec (.portEnable p v) s = .next s) ∧
      (bit v.toNat 0 = false → SMap.wf Port.init s.fabric.ports = true → ∃ t, exec (.portDisable p v) s = .next t ∧
        t = (State.reroute (s.setPort p.toNat { cap := fld v.toNat 1 2, capUsed := (s.port p.toNat).capUsed }) p.toNat
          (s.port p.toNat)).retryCollectives ∧
        (s.collectives = [] → t = { s with fabric := { s.fabric with ports := t.fabric.ports, waits := t.fabric.waits } } ∧
          t.port p.toNat = { cap := fld v.toNat 1 2, capUsed := (s.port p.toNat).capUsed } ∧
          (∀ q, q ≠ p.toNat → (t.port q).state = (s.port q).state) ∧
          (s.fabric.waits = [] → (s.port p.toNat).flying = [] → ∀ q, q ≠ p.toNat → t.port q = s.port q)))) ∧
    (fld v.toNat 18 46 = 0 →
      (s.plan ≠ none ∨ (∃ x ∈ s.fabric.ports, x.2.state ≠ .disabled) → exec (.fabricAddress v) s = .next (s.illegalWrite false 0x3000 3)) ∧
      (s.plan = none → (∀ x ∈ s.fabric.ports, x.2.state = .disabled) → ∃ t, exec (.fabricAddress v) s = .next t ∧
        t = { s with fabric := t.fabric, tables := t.tables } ∧ t.fabric.rack = fld v.toNat 6 7 ∧ t.fabric.pod = fld v.toNat 13 5 ∧ t.fabric.ports = s.fabric.ports ∧
        (fld v.toNat 6 7 = s.fabric.rack → fld v.toNat 13 5 = s.fabric.pod → t.fabric.ranks = s.fabric.ranks ∧ t.tables = s.tables) ∧
        (fld v.toNat 6 7 ≠ s.fabric.rack ∨ fld v.toNat 13 5 ≠ s.fabric.pod → t.fabric.ranks = [[], [], [], []])))

/-- A mailbox command is queued with its arguments, and its result comes with MAILBOX_RESULT (R480, R554, R555, R559, R561, R562, R615). For
each of the nine mailbox rows from LINKED on: with the reserved bits 0 and the mailbox not busy, the code is stored, busy is set and the
command joins Cairn's queue with the eight arguments; while busy it is refused with cause 3. MAILBOX_RESULT performs the command at the
head of Cairn's queue, clears busy, stores its result and counts it, up to 2^32 - 1; an unlisted code gives result 1 and changes nothing
else; ACCEPT in LINKED with an image running enters ATTESTED with result 0, and gives result 4 otherwise. CAIRN_BOOT, when a boot is
due, boots the next-boot slot where that slot's image passes, else the other, else none, and changes only Cairn and the booted mark. -/
def Obligations.MailboxRows : Prop :=
  (∀ (v : Word) (s : State), 3 ≤ s.power.hot.code →
      (fld v.toNat 8 56 = 0 → s.mailbox.busy = false → exec (mailboxRow v) s = .next { s with
        mailbox := { s.mailbox with code := v.toNat, busy := true },
        cairn := { s.cairn with queue := s.cairn.queue ++ [.mailbox v.toNat ((List.range 8).map fun i => SMap.get 0 s.mailbox.args i)] } }) ∧
      (fld v.toNat 8 56 = 0 → s.mailbox.busy = true → exec (mailboxRow v) s = .next (s.illegalWrite false 0x5000 3)) ∧
      (fld v.toNat 8 56 ≠ 0 → exec (mailboxRow v) s = .next (s.illegalWrite false 0x5000 2))) ∧
    (∀ (s : State) (code : Nat) (args : List Nat) rest, s.cairn.queue = .mailbox code args :: rest →
      ∃ t, exec .mailboxResult s = .next t ∧ t.mailbox.busy = false ∧ t.mailbox.result = (s.mailCommand code args).2 ∧ t.cairn.queue = rest ∧
        t.mailbox.count = satAdd 32 s.mailbox.count 1 ∧ t.mem = s.mem ∧ t.cores = s.cores ∧ t.plan = s.plan ∧
        (code = 0 ∨ 8 < code → t.mailbox.result = 1 ∧ t = { s with cairn := t.cairn, mailbox := t.mailbox }) ∧
        (code = 2 → s.power.hot = .linked → s.cairn.running ≠ none → t.power.hot = .attested ∧ t.mailbox.result = 0) ∧
        (code = 2 → s.power.hot ≠ .linked ∨ s.cairn.running = none → t.power.hot = s.power.hot ∧ t.mailbox.result = 4)) ∧
    (∀ s : State, (s.cairn.queue = [] → exec .mailboxResult s = .next s)) ∧
    ∀ (a b : Bool) (s : State),
      ((s.power.booted = true ∨ s.power.hot = .absent ∨ (s.power.hot = .present ∧ s.power.softStart = false)) → exec (.cairnBoot a b) s = .next s) ∧
      (s.power.booted = false → (2 ≤ s.power.hot.code ∨ (s.power.hot = .present ∧ s.power.softStart = true)) → s.cairn.nextSlot ≤ 1 →
        ∃ t, exec (.cairnBoot a b) s = .next t ∧ t = { s with cairn := t.cairn, power := { s.power with booted := true } } ∧
          t.cairn.running =
            (if s.cairn.slotReason s.cairn.nextSlot (fun i => if (if s.cairn.nextSlot = 0 then a else b) then none else some i) = none then
              some s.cairn.nextSlot
            else if s.cairn.slotReason (1 - s.cairn.nextSlot) (fun i => if (if s.cairn.nextSlot = 0 then b else a) then none else some i) = none then
              some (1 - s.cairn.nextSlot)
            else none) ∧
          t.cairn.nextSlot = t.cairn.running.getD s.cairn.nextSlot)

/-- The sideband controller starts on a legal slot with odd parity, and answers the MCTP control commands (R577, R581, R588, R589).
SIDEBAND_CONTROLLER_START latches the slot and is silent on a reserved slot or even parity; PCHG_BREAK stops the controller and loses
the endpoint ID. A control request changes nothing while the controller does not answer; otherwise exec answers a state that differs
only in response and endpoint ID, with a response that carries the instance ID, the command and a completion code; only SET_ENDPOINT_ID
changes the endpoint ID, and an unlisted command is answered with completion code 5. The layout of the control messages is the model's
presumption (log entry 60). -/
def Obligations.SidebandControl : Prop :=
  (∀ (g : BitVec 6) (p : Bool) (s : State), (s.side.started = true → exec (.sidebandControllerStart g p) s = .next s) ∧
      (s.side.started = false → ∃ t, exec (.sidebandControllerStart g p) s = .next t ∧ t = { s with side := t.side } ∧ t.side.started = true ∧
        t.side.slot = g.toNat ∧ t.side.pchg = true ∧ t.side.trip = s.side.trip ∧
        (t.side.silent = true ↔ 33 < g.toNat ∨ (((List.range 6).map fun i => b2n (bit g.toNat i)).sum + b2n p) % 2 = 0)) ∧
      ∃ t, exec .pchgBreak s = .next t ∧ t = { s with side := t.side } ∧ t.side.started = false ∧ t.side.endpoint = 0 ∧ t.side.alert = false ∧
        t.side.pchg = false ∧ t.side.trip = s.side.trip) ∧
    ∀ (msg : List Byte) (s : State), controlRequest msg = true →
      (s.answers = false → exec (controlMessageRow msg) s = .next s) ∧
      (s.answers = true → ∃ t, exec (controlMessageRow msg) s = .next t ∧
        t = { s with side := { s.side with endpoint := t.side.endpoint, response := t.side.response } } ∧
        (bit (msgByte msg 1) 6 = true → t.side.response = s.side.response) ∧
        (bit (msgByte msg 1) 6 = false → ∃ cc data, t.side.response =
          some (leBytes 1 0 ++ leBytes 1 (msgByte msg 1 % 32) ++ leBytes 1 (msgByte msg 2) ++ leBytes 1 cc ++ data) ∧
          (msgByte msg 2 ∉ controlCodes → cc = 5 ∧ data = [])) ∧
        (msgByte msg 2 ≠ 1 → t.side.endpoint = s.side.endpoint) ∧
        (msgByte msg 2 = 1 → 5 ≤ msg.length → msgByte msg 3 % 4 ≤ 1 → 8 ≤ msgByte msg 4 → msgByte msg 4 < 255 →
          t.side.endpoint = msgByte msg 4))

/-- A Llynyar command is answered with its first six bytes and a completion code, or dropped (R590, R591, R592, R593). A Llynyar request
changes nothing while the controller does not answer, while no endpoint ID is assigned, or where its vendor identifier differs.
Otherwise exec answers a state whose response repeats bytes 0 to 5 of the request behind which a completion code stands. GET_STATE
releases the alert line; POWER_ENABLE in PRESENT begins the soft start; POWER_DISABLE leaves the module in PRESENT; CLEAR_TRIP in
PRESENT makes the trip record invalid and zeroes its count, and elsewhere is answered with code 3; READ_FRU, READ_SENSORS, READ_INPUT,
READ_TRIP and an unknown command, answered with code 1, change nothing but the response. -/
def Obligations.LlynyarCommands : Prop :=
  ∀ (msg : List Byte) (s : State), vendorRequest msg = true →
    ((s.answers && s.side.endpoint != 0 && (msg.drop 1).take 4 == vendorId) = false → exec (vendorMessageRow msg) s = .next s) ∧
    ((s.answers && s.side.endpoint != 0 && (msg.drop 1).take 4 == vendorId) = true → ∃ t cc data, exec (vendorMessageRow msg) s = .next t ∧
      t.side.response = some (msg.take 6 ++ leBytes 1 cc ++ data) ∧
      (msgByte msg 5 = 1 → cc = 0 ∧ t = { s with side := { s.side with alert := false, response := t.side.response } } ∧
        data = s.stateBytes.flatMap (leBytes 1)) ∧
      (msgByte msg 5 = 2 → cc = 0 ∧ (s.power.hot = .present → t.power.softStart = true ∧ t.power.hot = .present) ∧
        (s.power.hot ≠ .present → t = { s with side := { s.side with response := t.side.response } })) ∧
      (msgByte msg 5 = 3 → cc = 0 ∧ t.power.hot = .present ∧ t.side.trip = s.side.trip) ∧
      (msgByte msg 5 = 8 → (s.power.hot = .present → cc = 0 ∧ t.side.trip.valid = false ∧ t.side.trip.count = 0) ∧
        (s.power.hot ≠ .present → cc = 3 ∧ t = { s with side := { s.side with response := t.side.response } })) ∧
      (4 ≤ msgByte msg 5 → msgByte msg 5 ≤ 7 → t = { s with side := { s.side with response := t.side.response } }) ∧
      (msgByte msg 5 = 0 ∨ 8 < msgByte msg 5 → cc = 1 ∧ data = [] ∧ t = { s with side := { s.side with response := t.side.response } }))

/-- What a commit, a non-finite discard and any other discard do to the scale ledger (R113, R114, R115, R119). A commit of step s puts the
pending amax of a primed entry at the head of its history, moves the head, and writes only the k slot of the step's parity, with a value
from -120 to 120; an unprimed entry that the step does not prime keeps everything. A non-finite discard lowers both k slots of a primed
entry by 1 to no lower than -120, counts the back-off up to 65,535 and keeps the history. Any other discard of the boundary only clears
the pending amax of every entry, where no word of the ledger is uncorrectable. -/
def Obligations.LedgerAtTheBoundary : Prop :=
  (∀ (e : ScaleEntry) (n : Nat) (p : Bool), e.history.length = 16 → e.head < 16 →
      (e.primed = true → (e.commit n p).history = e.history.set e.head e.pending ∧ (e.commit n p).head = (e.head + 1) % 16 ∧
        (e.commit n p).pending = 0 ∧ (e.commit n p).backoffs = e.backoffs ∧ (e.commit n p).primed = true ∧
        (n % 2 = 0 → (e.commit n p).kOdd = e.kOdd ∧
          ((e.commit n p).kEven = e.kEven ∨ (-120 ≤ (e.commit n p).kEven ∧ (e.commit n p).kEven ≤ 120))) ∧
        (n % 2 = 1 → (e.commit n p).kEven = e.kEven ∧
          ((e.commit n p).kOdd = e.kOdd ∨ (-120 ≤ (e.commit n p).kOdd ∧ (e.commit n p).kOdd ≤ 120)))) ∧
      (e.primed = false → p = false → e.commit n p = e) ∧
      (e.primed = false → p = true → (e.commit n p).history = List.replicate 16 e.pending ∧ (e.commit n p).head = 0 ∧
        (e.commit n p).primed = true ∧ (e.commit n p).pending = 0)) ∧
    (∀ e : ScaleEntry, e.primed = true → -120 ≤ e.kEven → -120 ≤ e.kOdd →
      (e.backoff.1).history = e.history ∧ (e.backoff.1).head = e.head ∧ (e.backoff.1).pending = 0 ∧
      (e.backoff.1).kEven = (if e.kEven = -120 then -120 else e.kEven - 1) ∧ (e.backoff.1).kOdd = (if e.kOdd = -120 then -120 else e.kOdd - 1) ∧
      (e.backoff.1).backoffs = min (e.backoffs + 1) 65535 ∧
      (e.backoff.1).floor = (e.floor || decide (e.kEven = -120) || decide (e.kOdd = -120))) ∧
    ∀ (s : State) (p : Plan) (n st : Nat) (sup : Bool), st ≠ stDiscardNonfinite → (∀ i, s.tableBad [.scale i] = false) →
      (s.discardFrom p n st sup).scales = s.scales.map fun e => { e with pending := 0, pendStain := false }

/-- The folded gradient is the balanced tree of its leaves, whatever the order in which they arrive (R174, R366, R367). For every number of
contributors up to 2^39 and every order in which their complete leaves join the fold: after the last of them the root is the value of
the balanced pairwise tree over contributor positions, whose nodes sum their children elementwise in binary32 and are stained where
either child is. So its bits depend on the leaves alone, never on the order of arrival. -/
def Obligations.FoldIsOrderFree : Prop :=
  ∀ (leaves : List (List (Nat × Bool))) (order : List Nat) (tag step : Nat), leaves ≠ [] → leaves.length ≤ 2 ^ 39 →
    order.Perm (List.range leaves.length) →
    (order.foldl (fun f i => (f.join leaves.length 40 0 i (leaves.getD i []) 0).1) (⟨tag, step, [], [], none, 0, 0⟩ : Fold)).root =
      treeRoot (fun a b => (sumElems a b).1) leaves.length leaves
end

