-- ==== Sys2Proof/Laws/Memory.lean ====
section
/-! SUPPORT. Laws of addressed memory: every operation keeps the canonical form, reads after writes, and what a write leaves. -/

namespace Sys2Proof.Machine

/-- The canonical form, as a proposition. -/
theorem Memory.wf_iff (m : Memory) : m.wf = true ↔
    (m.cells.Pairwise (fun a b => a.1 < b.1) ∧ ∀ c ∈ m.cells, c.2 ≠ m.baseByte c.1) ∧
    (m.marks.Pairwise (fun a b => a.1 < b.1) ∧ ∀ c ∈ m.marks, c.2 ≠ m.baseMark c.1) := by
  simp [Memory.wf, List.all_eq_true, and_assoc]

/-- A memory with nothing listed is canonical. -/
theorem Memory.wf_empty (ls : List Layer) : Memory.wf { layers := ls } = true := by simp [Memory.wf]

/-- A piece put between the parts of a rising list below and above it keeps the list rising. -/
theorem rising_splice {β : Type} (l mid : List (Nat × β)) (lo hi : Nat) (hl : l.Pairwise fun a b => a.1 < b.1)
    (hm : mid.Pairwise fun a b => a.1 < b.1) (hin : ∀ p ∈ mid, lo ≤ p.1 ∧ p.1 < hi) (hle : lo ≤ hi) :
    (l.filter (fun c => decide (c.1 < lo)) ++ mid ++ l.filter (fun c => decide (hi ≤ c.1))).Pairwise fun a b => a.1 < b.1 := by
  rw [List.pairwise_append, List.pairwise_append]
  refine ⟨⟨hl.filter _, hm, ?_⟩, hl.filter _, ?_⟩
  · intro a ha b hb
    have h1 := (List.mem_filter.1 ha).2
    have h2 := hin b hb
    simp at h1; omega
  · intro a ha b hb
    have h2 := (List.mem_filter.1 hb).2
    simp at h2
    rcases List.mem_append.1 ha with ha | ha
    · have h1 := (List.mem_filter.1 ha).2
      simp at h1; omega
    · have := hin a ha; omega

theorem Memory.newCells_spec (m : Memory) (a : Nat) (bs : List Byte) :
    (m.newCells a bs).Pairwise (fun x y => x.1 < y.1) ∧
    ∀ p ∈ m.newCells a bs, a ≤ p.1 ∧ p.1 < a + bs.length ∧ p.2 ≠ m.baseByte p.1 := by
  induction bs generalizing a with
  | nil => simp [Memory.newCells]
  | cons b bs ih =>
    obtain ⟨h1, h2⟩ := ih (a + 1)
    unfold Memory.newCells
    split
    · refine ⟨h1, fun p hp => ?_⟩
      have := h2 p hp
      refine ⟨by omega, by simp; omega, this.2.2⟩
    · rename_i hb
      refine ⟨List.pairwise_cons.2 ⟨fun p hp => ?_, h1⟩, fun p hp => ?_⟩
      · have := h2 p hp; simp; omega
      · rcases List.mem_cons.1 hp with rfl | hp
        · exact ⟨le_refl _, by simp, hb⟩
        · have := h2 p hp
          exact ⟨by omega, by simp; omega, this.2.2⟩

/-- Replacing one byte keeps the canonical form. -/
theorem Memory.wf_setByte (m : Memory) (a : Nat) (b : Byte) (h : m.wf = true) : (m.setByte a b).wf = true := by
  rw [Memory.wf_iff] at h ⊢
  obtain ⟨⟨h1, h2⟩, h3⟩ := h
  refine ⟨⟨?_, ?_⟩, h3⟩
  · have := rising_splice m.cells (if b = m.baseByte a then [] else [(a, b)]) a (a + 1) h1 (by split <;> simp)
      (fun p hp => by split at hp <;> simp at hp; simp [hp]) (by omega)
    simpa [Memory.setByte, Nat.succ_le_iff] using this
  · intro c hc
    have hb : (m.setByte a b).baseByte c.1 = m.baseByte c.1 := rfl
    rw [hb]
    simp only [Memory.setByte, List.mem_append, List.mem_filter] at hc
    rcases hc with (hc | hc) | hc
    · exact h2 c hc.1
    · split at hc
      · simp at hc
      · simp at hc; subst hc; assumption
    · exact h2 c hc.1

/-- Replacing consecutive bytes keeps the canonical form. -/
theorem Memory.wf_setBytes (m : Memory) (a : Nat) (bs : List Byte) (h : m.wf = true) : (m.setBytes a bs).wf = true := by
  rw [Memory.wf_iff] at h ⊢
  obtain ⟨⟨h1, h2⟩, h3⟩ := h
  obtain ⟨n1, n2⟩ := m.newCells_spec a bs
  refine ⟨⟨?_, ?_⟩, h3⟩
  · exact rising_splice m.cells _ a (a + bs.length) h1 n1 (fun p hp => ⟨(n2 p hp).1, (n2 p hp).2.1⟩) (by omega)
  · intro c hc
    have hb : (m.setBytes a bs).baseByte c.1 = m.baseByte c.1 := rfl
    rw [hb]
    simp only [Memory.setBytes, List.mem_append, List.mem_filter] at hc
    rcases hc with (hc | hc) | hc
    · exact h2 c hc.1
    · exact (n2 c hc).2.2
    · exact h2 c hc.1

/-- Replacing a mark keeps the canonical form. -/
theorem Memory.wf_setMark (m : Memory) (a : Nat) (k : Mark) (h : m.wf = true) : (m.setMark a k).wf = true := by
  rw [Memory.wf_iff] at h ⊢
  obtain ⟨h0, h1, h2⟩ := h
  refine ⟨h0, ?_, ?_⟩
  · have := rising_splice m.marks (if k = m.baseMark a then [] else [(a, k)]) a (a + 1) h1 (by split <;> simp)
      (fun p hp => by split at hp <;> simp at hp; simp [hp]) (by omega)
    simpa [Memory.setMark, Nat.succ_le_iff] using this
  · intro c hc
    have hb : (m.setMark a k).baseMark c.1 = m.baseMark c.1 := rfl
    rw [hb]
    simp only [Memory.setMark, List.mem_append, List.mem_filter] at hc
    rcases hc with (hc | hc) | hc
    · exact h2 c hc.1
    · split at hc
      · simp at hc
      · simp at hc; subst hc; assumption
    · exact h2 c hc.1

/-- A fold of operations that each keep the canonical form keeps it. -/
theorem Memory.wf_foldl {β : Type} (f : Memory → β → Memory) (hf : ∀ m b, m.wf = true → (f m b).wf = true) (l : List β) (m : Memory)
    (h : m.wf = true) : (l.foldl f m).wf = true := by
  induction l generalizing m with
  | nil => exact h
  | cons b l ih => exact ih _ (hf _ _ h)

/-- One operation's write keeps the canonical form. -/
theorem Memory.wf_write (m : Memory) (g a : Nat) (bs : List (Byte × Bool)) (h : m.wf = true) : (m.write g a bs).wf = true :=
  Memory.wf_foldl _ (fun _ _ h => Memory.wf_setMark _ _ _ h) _ _
    (Memory.wf_foldl _ (fun _ _ h => Memory.wf_setMark _ _ _ h) _ _ (Memory.wf_setBytes _ _ _ h))

/-- Closing the lanes of one operation keeps the canonical form. -/
theorem Memory.wf_closeLanes (m : Memory) (ps : List (Nat × List (Byte × Bool))) (h : m.wf = true) : (m.closeLanes ps).wf = true :=
  Memory.wf_foldl _ (fun _ _ h => by split <;> first | exact Memory.wf_setMark _ _ _ h | exact h) _ _ h

/-- Below a cover, an address outside the layer reads as before. -/
theorem Memory.layer_cover (m : Memory) (l : Layer) (a : Nat) (h : a < l.lo ∨ l.hi ≤ a) : (m.cover l).layer a = m.layer a := by
  have h0 : ¬ (l.lo ≤ a ∧ a < l.hi) := by omega
  have : ∀ ls : List Layer, (ls.filter fun k => !(decide (l.lo ≤ k.lo) && decide (k.hi ≤ l.hi))).find?
      (fun k => decide (k.lo ≤ a) && decide (a < k.hi)) = ls.find? fun k => decide (k.lo ≤ a) && decide (a < k.hi) := by
    intro ls
    induction ls with
    | nil => rfl
    | cons k ls ih =>
      by_cases hk : (l.lo ≤ k.lo ∧ k.hi ≤ l.hi)
      · have hn : ¬ (k.lo ≤ a ∧ a < k.hi) := by omega
        have e1 : (!(decide (l.lo ≤ k.lo) && decide (k.hi ≤ l.hi))) = false := by simp [hk]
        have e2 : (decide (k.lo ≤ a) && decide (a < k.hi)) = false := by simpa using hn
        rw [List.filter_cons, e1, List.find?_cons, e2]
        simpa using ih
      · have e1 : (!(decide (l.lo ≤ k.lo) && decide (k.hi ≤ l.hi))) = true := by
          rcases (by omega : k.lo < l.lo ∨ l.hi < k.hi) with h' | h' <;> simp [Nat.not_le.2 h']
        rw [List.filter_cons, e1, if_pos rfl, List.find?_cons, List.find?_cons, ih]
  have e0 : (decide (l.lo ≤ a) && decide (a < l.hi)) = false := by simpa using h0
  simp only [Memory.layer, Memory.cover, List.find?_cons, e0]
  exact this m.layers

/-- A layer laid over a range keeps the canonical form. -/
theorem Memory.wf_cover (m : Memory) (l : Layer) (h : m.wf = true) : (m.cover l).wf = true := by
  rw [Memory.wf_iff] at h ⊢
  obtain ⟨⟨h1, h2⟩, h3, h4⟩ := h
  refine ⟨⟨h1.filter _, fun c hc => ?_⟩, h3.filter _, fun c hc => ?_⟩
  · obtain ⟨hc, ho⟩ := List.mem_filter.1 hc
    have ho : c.1 < l.lo ∨ l.hi ≤ c.1 := by simpa using ho
    simpa only [Memory.baseByte, Memory.layer_cover m l c.1 ho] using h2 c hc
  · obtain ⟨hc, ho⟩ := List.mem_filter.1 hc
    have ho : c.1 < l.lo ∨ l.hi ≤ c.1 := by simpa using ho
    simpa only [Memory.baseMark, Memory.layer_cover m l c.1 ho] using h4 c hc

/-- A FILL keeps the canonical form. -/
theorem Memory.wf_fill (m : Memory) (lo hi : Nat) (p : Word) (h : m.wf = true) : (m.fill lo hi p).wf = true := Memory.wf_cover m _ h

/-- A poisoning keeps the canonical form. -/
theorem Memory.wf_poison (m : Memory) (lo hi : Nat) (h : m.wf = true) : (m.poison lo hi).wf = true := Memory.wf_cover m _ h

/-! ### Reads after writes -/

/-- A write leaves every byte outside its range as it was. -/
theorem Memory.byte_setBytes_out (m : Memory) (a x : Nat) (bs : List Byte) (h : x < a ∨ a + bs.length ≤ x) :
    (m.setBytes a bs).byte x = m.byte x := by
  have hn : ∀ c ∈ m.newCells a bs, (c.1 == x) = false := by
    intro c hc
    have := (m.newCells_spec a bs).2 c hc
    simp; omega
  have find_none : ∀ l : List Host.Cell, (∀ c ∈ l, (c.1 == x) = false) → l.find? (fun c => c.1 == x) = none := by
    intro l hl; exact List.find?_eq_none.2 fun c hc => by simp [hl c hc]
  have find_filter : ∀ (l : List Host.Cell) (q : Host.Cell → Bool), (∀ c : Host.Cell, c.1 = x → q c = true) →
      (l.filter q).find? (fun c => c.1 == x) = l.find? fun c => c.1 == x := by
    intro l q hq
    rw [List.find?_filter]
    congr 1; funext c
    by_cases hc : c.1 = x
    · simp [hc, hq c hc]
    · simp [hc]
  have find_gone : ∀ (l : List Host.Cell) (q : Host.Cell → Bool), (∀ c : Host.Cell, c.1 = x → q c = false) →
      (l.filter q).find? (fun c => c.1 == x) = none := by
    intro l q hq
    refine find_none _ fun c hc => ?_
    obtain ⟨-, hc⟩ := List.mem_filter.1 hc
    by_cases h : c.1 = x
    · simp [hq c h] at hc
    · simp [h]
  have base : (m.setBytes a bs).baseByte x = m.baseByte x := rfl
  simp only [Memory.byte, base]
  have : (m.setBytes a bs).cells.find? (fun c => c.1 == x) = m.cells.find? fun c => c.1 == x := by
    simp only [Memory.setBytes, List.find?_append, find_none _ hn, Option.or_none]
    rcases h with h | h
    · rw [find_filter m.cells (fun c => decide (c.1 < a)) fun c hc => by simp; omega,
        find_gone m.cells (fun c => decide (a + bs.length ≤ c.1)) fun c hc => by simp; omega]
      simp
    · rw [find_filter m.cells (fun c => decide (a + bs.length ≤ c.1)) fun c hc => by simp; omega,
        find_gone m.cells (fun c => decide (c.1 < a)) fun c hc => by simp; omega]
      simp
  rw [this]

/-- Setting marks leaves every byte. -/
@[simp] theorem Memory.byte_setMark (m : Memory) (a x : Nat) (k : Mark) : (m.setMark a k).byte x = m.byte x := rfl

/-- Setting marks of a list of granules leaves every byte. -/
theorem Memory.byte_foldl_setMark (f : Nat → Mark) (l : List Nat) (m : Memory) (x : Nat) :
    (l.foldl (fun m' y => m'.setMark y (f y)) m).byte x = m.byte x := by
  induction l generalizing m with
  | nil => rfl
  | cons y l ih => exact (ih _).trans (Memory.byte_setMark _ _ _ _)

/-- One operation's write leaves every byte outside its range as it was. -/
theorem Memory.byte_write_out (m : Memory) (g a x : Nat) (bs : List (Byte × Bool)) (h : x < a ∨ a + bs.length ≤ x) :
    (m.write g a bs).byte x = m.byte x := by
  have hb := Memory.byte_setBytes_out m a x (bs.map Prod.fst) (by simpa using h)
  exact (Memory.byte_foldl_setMark _ _ _ _).trans ((Memory.byte_foldl_setMark _ _ _ _).trans hb)

/-- A cover leaves every byte outside its range as it was. -/
theorem Memory.byte_cover_out (m : Memory) (l : Layer) (x : Nat) (h : x < l.lo ∨ l.hi ≤ x) : (m.cover l).byte x = m.byte x := by
  have e : (m.cover l).cells.find? (fun c => c.1 == x) = m.cells.find? fun c => c.1 == x := by
    simp only [Memory.cover, List.find?_filter]
    congr 1; funext c
    by_cases hc : c.1 = x
    · rcases h with h | h <;> simp [hc, h]
    · simp [hc]
  simp only [Memory.byte, e, Memory.baseByte, Memory.layer_cover m l x h]

/-- Inside a cover every byte is the pattern's. -/
theorem Memory.byte_cover_in (m : Memory) (l : Layer) (x : Nat) (h1 : l.lo ≤ x) (h2 : x < l.hi) :
    (m.cover l).byte x = BitVec.ofNat 8 (l.pattern.toNat >>> (8 * (x % 8))) := by
  have e : (m.cover l).cells.find? (fun c => c.1 == x) = none := by
    refine List.find?_eq_none.2 fun c hc => ?_
    obtain ⟨-, hc⟩ := List.mem_filter.1 hc
    simp at hc ⊢; omega
  have e2 : (m.cover l).layer x = some l := by simp [Memory.layer, Memory.cover, h1, h2]
  simp only [Memory.byte, e, Memory.baseByte, e2]

end Sys2Proof.Machine
end

