-- ==== Sys2Proof/Laws/SMap.lean ====
section
/-! SUPPORT. Laws of finite maps: reads after writes, the canonical form is kept, and canonical maps with equal reads are equal. -/

namespace Sys2Proof.Machine

@[simp] theorem SMap.get_nil {α : Type} (d : α) (k : Nat) : SMap.get d [] k = d := rfl

/-- Keys of a map lie above a bound. -/
def SMap.above {α : Type} (n : Nat) (m : SMap α) : Prop := ∀ p ∈ m, n < p.1

/-- A key below every listed key reads the default. -/
theorem SMap.get_above {α : Type} (d : α) (m : SMap α) (k : Nat) (h : SMap.above k m) : SMap.get d m k = d := by
  induction m with
  | nil => rfl
  | cons p rest ih =>
    obtain ⟨i, v⟩ := p
    have hi : k < i := h (i, v) (by simp)
    have : ¬ i = k := by omega
    simp only [SMap.get, this, if_false]
    exact ih fun q hq => h q (by simp [hq])

variable {α : Type} [DecidableEq α]

/-- The canonical form, as a proposition. -/
theorem SMap.wf_iff (d : α) (m : SMap α) :
    SMap.wf d m = true ↔ m.Pairwise (fun a b => a.1 < b.1) ∧ ∀ p ∈ m, p.2 ≠ d := by
  simp [SMap.wf, List.all_eq_true]

/-- A read of the written key gives the value written. -/
theorem SMap.get_set_eq (d : α) (m : SMap α) (k : Nat) (v : α) (h : SMap.wf d m = true) : SMap.get d (SMap.set d m k v) k = v := by
  induction m with
  | nil => by_cases hv : v = d <;> simp [SMap.set, SMap.get, hv]
  | cons p rest ih =>
    obtain ⟨i, w⟩ := p
    rw [SMap.wf_iff, List.pairwise_cons] at h
    obtain ⟨⟨hlt, hp⟩, hd⟩ := h
    have hrest : SMap.wf d rest = true := (SMap.wf_iff d rest).2 ⟨hp, fun q hq => hd q (by simp [hq])⟩
    unfold SMap.set
    split
    · rename_i hk
      split
      · rename_i hv
        have : ¬ i = k := by omega
        simp only [SMap.get, this, if_false, hv]
        exact SMap.get_above d rest k fun q hq => by have := hlt q hq; simp at this; omega
      · simp [SMap.get]
    · split
      · rename_i hk
        split
        · rename_i hv
          subst hk
          rw [hv]
          exact SMap.get_above d rest i fun q hq => hlt q hq
        · simp [SMap.get]
      · rename_i hk
        simp only [SMap.get, hk, if_false]
        exact ih hrest

/-- A write leaves every other key as it was. -/
theorem SMap.get_set_ne (d : α) (m : SMap α) (k j : Nat) (v : α) (h : SMap.wf d m = true) (hj : j ≠ k) :
    SMap.get d (SMap.set d m k v) j = SMap.get d m j := by
  induction m with
  | nil => by_cases hv : v = d <;> simp [SMap.set, SMap.get, hv, Ne.symm hj]
  | cons p rest ih =>
    obtain ⟨i, w⟩ := p
    rw [SMap.wf_iff, List.pairwise_cons] at h
    obtain ⟨⟨hlt, hp⟩, hd⟩ := h
    have hrest : SMap.wf d rest = true := (SMap.wf_iff d rest).2 ⟨hp, fun q hq => hd q (by simp [hq])⟩
    unfold SMap.set
    split
    · split
      · rfl
      · simp [SMap.get, Ne.symm hj]
    · split
      · rename_i hk
        subst hk
        split
        · simp only [SMap.get, Ne.symm hj, if_false]
        · simp [SMap.get, Ne.symm hj]
      · simp only [SMap.get]
        split
        · rfl
        · exact ih hrest

/-- Keys of a written map come from the map or are the key written. -/
theorem SMap.mem_set (d : α) (m : SMap α) (k : Nat) (v : α) (p : Nat × α) (h : p ∈ SMap.set d m k v) :
    p ∈ m ∨ (p = (k, v) ∧ v ≠ d) := by
  induction m with
  | nil =>
    by_cases hv : v = d
    · simp [SMap.set, hv] at h
    · simp [SMap.set, hv] at h; exact Or.inr ⟨h, hv⟩
  | cons q rest ih =>
    obtain ⟨i, w⟩ := q
    unfold SMap.set at h
    split at h
    · split at h
      · exact Or.inl h
      · rename_i hv
        rcases List.mem_cons.1 h with h | h
        · exact Or.inr ⟨h, hv⟩
        · exact Or.inl h
    · split at h
      · split at h
        · exact Or.inl (List.mem_cons_of_mem _ h)
        · rename_i hv
          rcases List.mem_cons.1 h with h | h
          · exact Or.inr ⟨h, hv⟩
          · exact Or.inl (List.mem_cons_of_mem _ h)
      · rcases List.mem_cons.1 h with h | h
        · exact Or.inl (by simp [h])
        · rcases ih h with h | h
          · exact Or.inl (List.mem_cons_of_mem _ h)
          · exact Or.inr h

/-- A write keeps the canonical form. -/
theorem SMap.wf_set (d : α) (m : SMap α) (k : Nat) (v : α) (h : SMap.wf d m = true) : SMap.wf d (SMap.set d m k v) = true := by
  induction m with
  | nil => by_cases hv : v = d <;> simp [SMap.set, SMap.wf, hv]
  | cons p rest ih =>
    obtain ⟨i, w⟩ := p
    have h0 := h
    rw [SMap.wf_iff, List.pairwise_cons] at h
    obtain ⟨⟨hlt, hp⟩, hd⟩ := h
    have hrest : SMap.wf d rest = true := (SMap.wf_iff d rest).2 ⟨hp, fun q hq => hd q (by simp [hq])⟩
    unfold SMap.set
    split
    · rename_i hk
      split
      · exact h0
      · rename_i hv
        rw [SMap.wf_iff, List.pairwise_cons]
        refine ⟨⟨fun q hq => ?_, List.pairwise_cons.2 ⟨hlt, hp⟩⟩, fun q hq => ?_⟩
        · rcases List.mem_cons.1 hq with rfl | hq
          · exact hk
          · exact lt_trans hk (hlt q hq)
        · rcases List.mem_cons.1 hq with rfl | hq
          · exact hv
          · exact hd q hq
    · split
      · rename_i hk
        subst hk
        split
        · exact hrest
        · rename_i hv
          rw [SMap.wf_iff, List.pairwise_cons]
          refine ⟨⟨hlt, hp⟩, fun q hq => ?_⟩
          rcases List.mem_cons.1 hq with rfl | hq
          · exact hv
          · exact hd q (by simp [hq])
      · rename_i h1 h2
        have := (SMap.wf_iff d _).1 (ih hrest)
        rw [SMap.wf_iff, List.pairwise_cons]
        refine ⟨⟨fun q hq => ?_, this.1⟩, fun q hq => ?_⟩
        · rcases SMap.mem_set d rest k v q hq with hq | ⟨rfl, -⟩
          · exact hlt q hq
          · simp; omega
        · rcases List.mem_cons.1 hq with rfl | hq
          · exact hd _ (by simp)
          · exact this.2 q hq

/-- Changing every value keeps the canonical form. -/
theorem SMap.wf_mapVals (d : α) (f : α → α) (m : SMap α) (h : SMap.wf d m = true) : SMap.wf d (SMap.mapVals d f m) = true := by
  rw [SMap.wf_iff] at h ⊢
  refine ⟨?_, fun p hp => by simpa using (List.mem_filter.1 hp).2⟩
  exact (List.Pairwise.map (fun p : Nat × α => (p.1, f p.2)) (fun _ _ hab => hab) h.1).filter _

/-- Leaving out keys keeps the canonical form. -/
theorem SMap.wf_dropRange (d : α) (m : SMap α) (lo hi : Nat) (h : SMap.wf d m = true) : SMap.wf d (SMap.dropRange m lo hi) = true := by
  rw [SMap.wf_iff] at h ⊢
  exact ⟨h.1.filter _, fun p hp => h.2 p (List.mem_filter.1 hp).1⟩

end Sys2Proof.Machine
end

