-- ==== Sys2Proof/Laws/State.lean ====
section
/-! SUPPORT. What each update of the state leaves: one lemma for each update and field. -/

namespace Sys2Proof.Machine

/-! ### setCore writes cores -/

@[simp] theorem State.setCore_pending (s : State) (c : Nat) (k : CoreState) : (s.setCore c k).pending = s.pending := rfl
@[simp] theorem State.setCore_free (s : State) (c : Nat) (k : CoreState) : (s.setCore c k).free = s.free := rfl
@[simp] theorem State.setCore_serial (s : State) (c : Nat) (k : CoreState) : (s.setCore c k).serial = s.serial := rfl
@[simp] theorem State.setCore_code (s : State) (c : Nat) (k : CoreState) : (s.setCore c k).code = s.code := rfl
@[simp] theorem State.setCore_spares (s : State) (c : Nat) (k : CoreState) : (s.setCore c k).spares = s.spares := rfl
@[simp] theorem State.setCore_coreMap (s : State) (c : Nat) (k : CoreState) : (s.setCore c k).coreMap = s.coreMap := rfl
@[simp] theorem State.setCore_mem (s : State) (c : Nat) (k : CoreState) : (s.setCore c k).mem = s.mem := rfl
@[simp] theorem State.setCore_tiles (s : State) (c : Nat) (k : CoreState) : (s.setCore c k).tiles = s.tiles := rfl
@[simp] theorem State.setCore_mdies (s : State) (c : Nat) (k : CoreState) : (s.setCore c k).mdies = s.mdies := rfl
@[simp] theorem State.setCore_merge (s : State) (c : Nat) (k : CoreState) : (s.setCore c k).merge = s.merge := rfl
@[simp] theorem State.setCore_tables (s : State) (c : Nat) (k : CoreState) : (s.setCore c k).tables = s.tables := rfl
@[simp] theorem State.setCore_plan (s : State) (c : Nat) (k : CoreState) : (s.setCore c k).plan = s.plan := rfl
@[simp] theorem State.setCore_scales (s : State) (c : Nat) (k : CoreState) : (s.setCore c k).scales = s.scales := rfl
@[simp] theorem State.setCore_acts (s : State) (c : Nat) (k : CoreState) : (s.setCore c k).acts = s.acts := rfl
@[simp] theorem State.setCore_folds (s : State) (c : Nat) (k : CoreState) : (s.setCore c k).folds = s.folds := rfl
@[simp] theorem State.setCore_streaks (s : State) (c : Nat) (k : CoreState) : (s.setCore c k).streaks = s.streaks := rfl
@[simp] theorem State.setCore_store (s : State) (c : Nat) (k : CoreState) : (s.setCore c k).store = s.store := rfl
@[simp] theorem State.setCore_steps (s : State) (c : Nat) (k : CoreState) : (s.setCore c k).steps = s.steps := rfl
@[simp] theorem State.setCore_crest (s : State) (c : Nat) (k : CoreState) : (s.setCore c k).crest = s.crest := rfl
@[simp] theorem State.setCore_collectives (s : State) (c : Nat) (k : CoreState) : (s.setCore c k).collectives = s.collectives := rfl
@[simp] theorem State.setCore_arrays (s : State) (c : Nat) (k : CoreState) : (s.setCore c k).arrays = s.arrays := rfl
@[simp] theorem State.setCore_rings (s : State) (c : Nat) (k : CoreState) : (s.setCore c k).rings = s.rings := rfl
@[simp] theorem State.setCore_fetched (s : State) (c : Nat) (k : CoreState) : (s.setCore c k).fetched = s.fetched := rfl
@[simp] theorem State.setCore_descs (s : State) (c : Nat) (k : CoreState) : (s.setCore c k).descs = s.descs := rfl
@[simp] theorem State.setCore_waits (s : State) (c : Nat) (k : CoreState) : (s.setCore c k).waits = s.waits := rfl
@[simp] theorem State.setCore_heldEvents (s : State) (c : Nat) (k : CoreState) : (s.setCore c k).heldEvents = s.heldEvents := rfl
@[simp] theorem State.setCore_eventsOpen (s : State) (c : Nat) (k : CoreState) : (s.setCore c k).eventsOpen = s.eventsOpen := rfl
@[simp] theorem State.setCore_nextRing (s : State) (c : Nat) (k : CoreState) : (s.setCore c k).nextRing = s.nextRing := rfl
@[simp] theorem State.setCore_link (s : State) (c : Nat) (k : CoreState) : (s.setCore c k).link = s.link := rfl
@[simp] theorem State.setCore_err (s : State) (c : Nat) (k : CoreState) : (s.setCore c k).err = s.err := rfl
@[simp] theorem State.setCore_fabric (s : State) (c : Nat) (k : CoreState) : (s.setCore c k).fabric = s.fabric := rfl
@[simp] theorem State.setCore_sent (s : State) (c : Nat) (k : CoreState) : (s.setCore c k).sent = s.sent := rfl
@[simp] theorem State.setCore_talus (s : State) (c : Nat) (k : CoreState) : (s.setCore c k).talus = s.talus := rfl
@[simp] theorem State.setCore_snaps (s : State) (c : Nat) (k : CoreState) : (s.setCore c k).snaps = s.snaps := rfl
@[simp] theorem State.setCore_meshDown (s : State) (c : Nat) (k : CoreState) : (s.setCore c k).meshDown = s.meshDown := rfl
@[simp] theorem State.setCore_partitioned (s : State) (c : Nat) (k : CoreState) : (s.setCore c k).partitioned = s.partitioned := rfl
@[simp] theorem State.setCore_power (s : State) (c : Nat) (k : CoreState) : (s.setCore c k).power = s.power := rfl
@[simp] theorem State.setCore_monitor (s : State) (c : Nat) (k : CoreState) : (s.setCore c k).monitor = s.monitor := rfl
@[simp] theorem State.setCore_cairn (s : State) (c : Nat) (k : CoreState) : (s.setCore c k).cairn = s.cairn := rfl
@[simp] theorem State.setCore_mailbox (s : State) (c : Nat) (k : CoreState) : (s.setCore c k).mailbox = s.mailbox := rfl
@[simp] theorem State.setCore_side (s : State) (c : Nat) (k : CoreState) : (s.setCore c k).side = s.side := rfl

/-! ### setMdie writes mdies -/

@[simp] theorem State.setMdie_pending (s : State) (m : Nat) (k : MDie) : (s.setMdie m k).pending = s.pending := rfl
@[simp] theorem State.setMdie_free (s : State) (m : Nat) (k : MDie) : (s.setMdie m k).free = s.free := rfl
@[simp] theorem State.setMdie_serial (s : State) (m : Nat) (k : MDie) : (s.setMdie m k).serial = s.serial := rfl
@[simp] theorem State.setMdie_code (s : State) (m : Nat) (k : MDie) : (s.setMdie m k).code = s.code := rfl
@[simp] theorem State.setMdie_cores (s : State) (m : Nat) (k : MDie) : (s.setMdie m k).cores = s.cores := rfl
@[simp] theorem State.setMdie_spares (s : State) (m : Nat) (k : MDie) : (s.setMdie m k).spares = s.spares := rfl
@[simp] theorem State.setMdie_coreMap (s : State) (m : Nat) (k : MDie) : (s.setMdie m k).coreMap = s.coreMap := rfl
@[simp] theorem State.setMdie_mem (s : State) (m : Nat) (k : MDie) : (s.setMdie m k).mem = s.mem := rfl
@[simp] theorem State.setMdie_tiles (s : State) (m : Nat) (k : MDie) : (s.setMdie m k).tiles = s.tiles := rfl
@[simp] theorem State.setMdie_merge (s : State) (m : Nat) (k : MDie) : (s.setMdie m k).merge = s.merge := rfl
@[simp] theorem State.setMdie_tables (s : State) (m : Nat) (k : MDie) : (s.setMdie m k).tables = s.tables := rfl
@[simp] theorem State.setMdie_plan (s : State) (m : Nat) (k : MDie) : (s.setMdie m k).plan = s.plan := rfl
@[simp] theorem State.setMdie_scales (s : State) (m : Nat) (k : MDie) : (s.setMdie m k).scales = s.scales := rfl
@[simp] theorem State.setMdie_acts (s : State) (m : Nat) (k : MDie) : (s.setMdie m k).acts = s.acts := rfl
@[simp] theorem State.setMdie_folds (s : State) (m : Nat) (k : MDie) : (s.setMdie m k).folds = s.folds := rfl
@[simp] theorem State.setMdie_streaks (s : State) (m : Nat) (k : MDie) : (s.setMdie m k).streaks = s.streaks := rfl
@[simp] theorem State.setMdie_store (s : State) (m : Nat) (k : MDie) : (s.setMdie m k).store = s.store := rfl
@[simp] theorem State.setMdie_steps (s : State) (m : Nat) (k : MDie) : (s.setMdie m k).steps = s.steps := rfl
@[simp] theorem State.setMdie_crest (s : State) (m : Nat) (k : MDie) : (s.setMdie m k).crest = s.crest := rfl
@[simp] theorem State.setMdie_collectives (s : State) (m : Nat) (k : MDie) : (s.setMdie m k).collectives = s.collectives := rfl
@[simp] theorem State.setMdie_arrays (s : State) (m : Nat) (k : MDie) : (s.setMdie m k).arrays = s.arrays := rfl
@[simp] theorem State.setMdie_rings (s : State) (m : Nat) (k : MDie) : (s.setMdie m k).rings = s.rings := rfl
@[simp] theorem State.setMdie_fetched (s : State) (m : Nat) (k : MDie) : (s.setMdie m k).fetched = s.fetched := rfl
@[simp] theorem State.setMdie_descs (s : State) (m : Nat) (k : MDie) : (s.setMdie m k).descs = s.descs := rfl
@[simp] theorem State.setMdie_waits (s : State) (m : Nat) (k : MDie) : (s.setMdie m k).waits = s.waits := rfl
@[simp] theorem State.setMdie_heldEvents (s : State) (m : Nat) (k : MDie) : (s.setMdie m k).heldEvents = s.heldEvents := rfl
@[simp] theorem State.setMdie_eventsOpen (s : State) (m : Nat) (k : MDie) : (s.setMdie m k).eventsOpen = s.eventsOpen := rfl
@[simp] theorem State.setMdie_nextRing (s : State) (m : Nat) (k : MDie) : (s.setMdie m k).nextRing = s.nextRing := rfl
@[simp] theorem State.setMdie_link (s : State) (m : Nat) (k : MDie) : (s.setMdie m k).link = s.link := rfl
@[simp] theorem State.setMdie_err (s : State) (m : Nat) (k : MDie) : (s.setMdie m k).err = s.err := rfl
@[simp] theorem State.setMdie_fabric (s : State) (m : Nat) (k : MDie) : (s.setMdie m k).fabric = s.fabric := rfl
@[simp] theorem State.setMdie_sent (s : State) (m : Nat) (k : MDie) : (s.setMdie m k).sent = s.sent := rfl
@[simp] theorem State.setMdie_talus (s : State) (m : Nat) (k : MDie) : (s.setMdie m k).talus = s.talus := rfl
@[simp] theorem State.setMdie_snaps (s : State) (m : Nat) (k : MDie) : (s.setMdie m k).snaps = s.snaps := rfl
@[simp] theorem State.setMdie_meshDown (s : State) (m : Nat) (k : MDie) : (s.setMdie m k).meshDown = s.meshDown := rfl
@[simp] theorem State.setMdie_partitioned (s : State) (m : Nat) (k : MDie) : (s.setMdie m k).partitioned = s.partitioned := rfl
@[simp] theorem State.setMdie_power (s : State) (m : Nat) (k : MDie) : (s.setMdie m k).power = s.power := rfl
@[simp] theorem State.setMdie_monitor (s : State) (m : Nat) (k : MDie) : (s.setMdie m k).monitor = s.monitor := rfl
@[simp] theorem State.setMdie_cairn (s : State) (m : Nat) (k : MDie) : (s.setMdie m k).cairn = s.cairn := rfl
@[simp] theorem State.setMdie_mailbox (s : State) (m : Nat) (k : MDie) : (s.setMdie m k).mailbox = s.mailbox := rfl
@[simp] theorem State.setMdie_side (s : State) (m : Nat) (k : MDie) : (s.setMdie m k).side = s.side := rfl

/-! ### setRing writes rings -/

@[simp] theorem State.setRing_pending (s : State) (i : Nat) (r : Ring) : (s.setRing i r).pending = s.pending := rfl
@[simp] theorem State.setRing_free (s : State) (i : Nat) (r : Ring) : (s.setRing i r).free = s.free := rfl
@[simp] theorem State.setRing_serial (s : State) (i : Nat) (r : Ring) : (s.setRing i r).serial = s.serial := rfl
@[simp] theorem State.setRing_code (s : State) (i : Nat) (r : Ring) : (s.setRing i r).code = s.code := rfl
@[simp] theorem State.setRing_cores (s : State) (i : Nat) (r : Ring) : (s.setRing i r).cores = s.cores := rfl
@[simp] theorem State.setRing_spares (s : State) (i : Nat) (r : Ring) : (s.setRing i r).spares = s.spares := rfl
@[simp] theorem State.setRing_coreMap (s : State) (i : Nat) (r : Ring) : (s.setRing i r).coreMap = s.coreMap := rfl
@[simp] theorem State.setRing_mem (s : State) (i : Nat) (r : Ring) : (s.setRing i r).mem = s.mem := rfl
@[simp] theorem State.setRing_tiles (s : State) (i : Nat) (r : Ring) : (s.setRing i r).tiles = s.tiles := rfl
@[simp] theorem State.setRing_mdies (s : State) (i : Nat) (r : Ring) : (s.setRing i r).mdies = s.mdies := rfl
@[simp] theorem State.setRing_merge (s : State) (i : Nat) (r : Ring) : (s.setRing i r).merge = s.merge := rfl
@[simp] theorem State.setRing_tables (s : State) (i : Nat) (r : Ring) : (s.setRing i r).tables = s.tables := rfl
@[simp] theorem State.setRing_plan (s : State) (i : Nat) (r : Ring) : (s.setRing i r).plan = s.plan := rfl
@[simp] theorem State.setRing_scales (s : State) (i : Nat) (r : Ring) : (s.setRing i r).scales = s.scales := rfl
@[simp] theorem State.setRing_acts (s : State) (i : Nat) (r : Ring) : (s.setRing i r).acts = s.acts := rfl
@[simp] theorem State.setRing_folds (s : State) (i : Nat) (r : Ring) : (s.setRing i r).folds = s.folds := rfl
@[simp] theorem State.setRing_streaks (s : State) (i : Nat) (r : Ring) : (s.setRing i r).streaks = s.streaks := rfl
@[simp] theorem State.setRing_store (s : State) (i : Nat) (r : Ring) : (s.setRing i r).store = s.store := rfl
@[simp] theorem State.setRing_steps (s : State) (i : Nat) (r : Ring) : (s.setRing i r).steps = s.steps := rfl
@[simp] theorem State.setRing_crest (s : State) (i : Nat) (r : Ring) : (s.setRing i r).crest = s.crest := rfl
@[simp] theorem State.setRing_collectives (s : State) (i : Nat) (r : Ring) : (s.setRing i r).collectives = s.collectives := rfl
@[simp] theorem State.setRing_arrays (s : State) (i : Nat) (r : Ring) : (s.setRing i r).arrays = s.arrays := rfl
@[simp] theorem State.setRing_fetched (s : State) (i : Nat) (r : Ring) : (s.setRing i r).fetched = s.fetched := rfl
@[simp] theorem State.setRing_descs (s : State) (i : Nat) (r : Ring) : (s.setRing i r).descs = s.descs := rfl
@[simp] theorem State.setRing_waits (s : State) (i : Nat) (r : Ring) : (s.setRing i r).waits = s.waits := rfl
@[simp] theorem State.setRing_heldEvents (s : State) (i : Nat) (r : Ring) : (s.setRing i r).heldEvents = s.heldEvents := rfl
@[simp] theorem State.setRing_eventsOpen (s : State) (i : Nat) (r : Ring) : (s.setRing i r).eventsOpen = s.eventsOpen := rfl
@[simp] theorem State.setRing_nextRing (s : State) (i : Nat) (r : Ring) : (s.setRing i r).nextRing = s.nextRing := rfl
@[simp] theorem State.setRing_link (s : State) (i : Nat) (r : Ring) : (s.setRing i r).link = s.link := rfl
@[simp] theorem State.setRing_err (s : State) (i : Nat) (r : Ring) : (s.setRing i r).err = s.err := rfl
@[simp] theorem State.setRing_fabric (s : State) (i : Nat) (r : Ring) : (s.setRing i r).fabric = s.fabric := rfl
@[simp] theorem State.setRing_sent (s : State) (i : Nat) (r : Ring) : (s.setRing i r).sent = s.sent := rfl
@[simp] theorem State.setRing_talus (s : State) (i : Nat) (r : Ring) : (s.setRing i r).talus = s.talus := rfl
@[simp] theorem State.setRing_snaps (s : State) (i : Nat) (r : Ring) : (s.setRing i r).snaps = s.snaps := rfl
@[simp] theorem State.setRing_meshDown (s : State) (i : Nat) (r : Ring) : (s.setRing i r).meshDown = s.meshDown := rfl
@[simp] theorem State.setRing_partitioned (s : State) (i : Nat) (r : Ring) : (s.setRing i r).partitioned = s.partitioned := rfl
@[simp] theorem State.setRing_power (s : State) (i : Nat) (r : Ring) : (s.setRing i r).power = s.power := rfl
@[simp] theorem State.setRing_monitor (s : State) (i : Nat) (r : Ring) : (s.setRing i r).monitor = s.monitor := rfl
@[simp] theorem State.setRing_cairn (s : State) (i : Nat) (r : Ring) : (s.setRing i r).cairn = s.cairn := rfl
@[simp] theorem State.setRing_mailbox (s : State) (i : Nat) (r : Ring) : (s.setRing i r).mailbox = s.mailbox := rfl
@[simp] theorem State.setRing_side (s : State) (i : Nat) (r : Ring) : (s.setRing i r).side = s.side := rfl

/-! ### setPort writes fabric -/

@[simp] theorem State.setPort_pending (s : State) (p : Nat) (k : Port) : (s.setPort p k).pending = s.pending := rfl
@[simp] theorem State.setPort_free (s : State) (p : Nat) (k : Port) : (s.setPort p k).free = s.free := rfl
@[simp] theorem State.setPort_serial (s : State) (p : Nat) (k : Port) : (s.setPort p k).serial = s.serial := rfl
@[simp] theorem State.setPort_code (s : State) (p : Nat) (k : Port) : (s.setPort p k).code = s.code := rfl
@[simp] theorem State.setPort_cores (s : State) (p : Nat) (k : Port) : (s.setPort p k).cores = s.cores := rfl
@[simp] theorem State.setPort_spares (s : State) (p : Nat) (k : Port) : (s.setPort p k).spares = s.spares := rfl
@[simp] theorem State.setPort_coreMap (s : State) (p : Nat) (k : Port) : (s.setPort p k).coreMap = s.coreMap := rfl
@[simp] theorem State.setPort_mem (s : State) (p : Nat) (k : Port) : (s.setPort p k).mem = s.mem := rfl
@[simp] theorem State.setPort_tiles (s : State) (p : Nat) (k : Port) : (s.setPort p k).tiles = s.tiles := rfl
@[simp] theorem State.setPort_mdies (s : State) (p : Nat) (k : Port) : (s.setPort p k).mdies = s.mdies := rfl
@[simp] theorem State.setPort_merge (s : State) (p : Nat) (k : Port) : (s.setPort p k).merge = s.merge := rfl
@[simp] theorem State.setPort_tables (s : State) (p : Nat) (k : Port) : (s.setPort p k).tables = s.tables := rfl
@[simp] theorem State.setPort_plan (s : State) (p : Nat) (k : Port) : (s.setPort p k).plan = s.plan := rfl
@[simp] theorem State.setPort_scales (s : State) (p : Nat) (k : Port) : (s.setPort p k).scales = s.scales := rfl
@[simp] theorem State.setPort_acts (s : State) (p : Nat) (k : Port) : (s.setPort p k).acts = s.acts := rfl
@[simp] theorem State.setPort_folds (s : State) (p : Nat) (k : Port) : (s.setPort p k).folds = s.folds := rfl
@[simp] theorem State.setPort_streaks (s : State) (p : Nat) (k : Port) : (s.setPort p k).streaks = s.streaks := rfl
@[simp] theorem State.setPort_store (s : State) (p : Nat) (k : Port) : (s.setPort p k).store = s.store := rfl
@[simp] theorem State.setPort_steps (s : State) (p : Nat) (k : Port) : (s.setPort p k).steps = s.steps := rfl
@[simp] theorem State.setPort_crest (s : State) (p : Nat) (k : Port) : (s.setPort p k).crest = s.crest := rfl
@[simp] theorem State.setPort_collectives (s : State) (p : Nat) (k : Port) : (s.setPort p k).collectives = s.collectives := rfl
@[simp] theorem State.setPort_arrays (s : State) (p : Nat) (k : Port) : (s.setPort p k).arrays = s.arrays := rfl
@[simp] theorem State.setPort_rings (s : State) (p : Nat) (k : Port) : (s.setPort p k).rings = s.rings := rfl
@[simp] theorem State.setPort_fetched (s : State) (p : Nat) (k : Port) : (s.setPort p k).fetched = s.fetched := rfl
@[simp] theorem State.setPort_descs (s : State) (p : Nat) (k : Port) : (s.setPort p k).descs = s.descs := rfl
@[simp] theorem State.setPort_waits (s : State) (p : Nat) (k : Port) : (s.setPort p k).waits = s.waits := rfl
@[simp] theorem State.setPort_heldEvents (s : State) (p : Nat) (k : Port) : (s.setPort p k).heldEvents = s.heldEvents := rfl
@[simp] theorem State.setPort_eventsOpen (s : State) (p : Nat) (k : Port) : (s.setPort p k).eventsOpen = s.eventsOpen := rfl
@[simp] theorem State.setPort_nextRing (s : State) (p : Nat) (k : Port) : (s.setPort p k).nextRing = s.nextRing := rfl
@[simp] theorem State.setPort_link (s : State) (p : Nat) (k : Port) : (s.setPort p k).link = s.link := rfl
@[simp] theorem State.setPort_err (s : State) (p : Nat) (k : Port) : (s.setPort p k).err = s.err := rfl
@[simp] theorem State.setPort_sent (s : State) (p : Nat) (k : Port) : (s.setPort p k).sent = s.sent := rfl
@[simp] theorem State.setPort_talus (s : State) (p : Nat) (k : Port) : (s.setPort p k).talus = s.talus := rfl
@[simp] theorem State.setPort_snaps (s : State) (p : Nat) (k : Port) : (s.setPort p k).snaps = s.snaps := rfl
@[simp] theorem State.setPort_meshDown (s : State) (p : Nat) (k : Port) : (s.setPort p k).meshDown = s.meshDown := rfl
@[simp] theorem State.setPort_partitioned (s : State) (p : Nat) (k : Port) : (s.setPort p k).partitioned = s.partitioned := rfl
@[simp] theorem State.setPort_power (s : State) (p : Nat) (k : Port) : (s.setPort p k).power = s.power := rfl
@[simp] theorem State.setPort_monitor (s : State) (p : Nat) (k : Port) : (s.setPort p k).monitor = s.monitor := rfl
@[simp] theorem State.setPort_cairn (s : State) (p : Nat) (k : Port) : (s.setPort p k).cairn = s.cairn := rfl
@[simp] theorem State.setPort_mailbox (s : State) (p : Nat) (k : Port) : (s.setPort p k).mailbox = s.mailbox := rfl
@[simp] theorem State.setPort_side (s : State) (p : Nat) (k : Port) : (s.setPort p k).side = s.side := rfl

/-! ### updStep writes steps -/

@[simp] theorem State.updStep_pending (s : State) (n : Nat) (f : StepRec → StepRec) : (s.updStep n f).pending = s.pending := rfl
@[simp] theorem State.updStep_free (s : State) (n : Nat) (f : StepRec → StepRec) : (s.updStep n f).free = s.free := rfl
@[simp] theorem State.updStep_serial (s : State) (n : Nat) (f : StepRec → StepRec) : (s.updStep n f).serial = s.serial := rfl
@[simp] theorem State.updStep_code (s : State) (n : Nat) (f : StepRec → StepRec) : (s.updStep n f).code = s.code := rfl
@[simp] theorem State.updStep_cores (s : State) (n : Nat) (f : StepRec → StepRec) : (s.updStep n f).cores = s.cores := rfl
@[simp] theorem State.updStep_spares (s : State) (n : Nat) (f : StepRec → StepRec) : (s.updStep n f).spares = s.spares := rfl
@[simp] theorem State.updStep_coreMap (s : State) (n : Nat) (f : StepRec → StepRec) : (s.updStep n f).coreMap = s.coreMap := rfl
@[simp] theorem State.updStep_mem (s : State) (n : Nat) (f : StepRec → StepRec) : (s.updStep n f).mem = s.mem := rfl
@[simp] theorem State.updStep_tiles (s : State) (n : Nat) (f : StepRec → StepRec) : (s.updStep n f).tiles = s.tiles := rfl
@[simp] theorem State.updStep_mdies (s : State) (n : Nat) (f : StepRec → StepRec) : (s.updStep n f).mdies = s.mdies := rfl
@[simp] theorem State.updStep_merge (s : State) (n : Nat) (f : StepRec → StepRec) : (s.updStep n f).merge = s.merge := rfl
@[simp] theorem State.updStep_tables (s : State) (n : Nat) (f : StepRec → StepRec) : (s.updStep n f).tables = s.tables := rfl
@[simp] theorem State.updStep_plan (s : State) (n : Nat) (f : StepRec → StepRec) : (s.updStep n f).plan = s.plan := rfl
@[simp] theorem State.updStep_scales (s : State) (n : Nat) (f : StepRec → StepRec) : (s.updStep n f).scales = s.scales := rfl
@[simp] theorem State.updStep_acts (s : State) (n : Nat) (f : StepRec → StepRec) : (s.updStep n f).acts = s.acts := rfl
@[simp] theorem State.updStep_folds (s : State) (n : Nat) (f : StepRec → StepRec) : (s.updStep n f).folds = s.folds := rfl
@[simp] theorem State.updStep_streaks (s : State) (n : Nat) (f : StepRec → StepRec) : (s.updStep n f).streaks = s.streaks := rfl
@[simp] theorem State.updStep_store (s : State) (n : Nat) (f : StepRec → StepRec) : (s.updStep n f).store = s.store := rfl
@[simp] theorem State.updStep_crest (s : State) (n : Nat) (f : StepRec → StepRec) : (s.updStep n f).crest = s.crest := rfl
@[simp] theorem State.updStep_collectives (s : State) (n : Nat) (f : StepRec → StepRec) : (s.updStep n f).collectives = s.collectives := rfl
@[simp] theorem State.updStep_arrays (s : State) (n : Nat) (f : StepRec → StepRec) : (s.updStep n f).arrays = s.arrays := rfl
@[simp] theorem State.updStep_rings (s : State) (n : Nat) (f : StepRec → StepRec) : (s.updStep n f).rings = s.rings := rfl
@[simp] theorem State.updStep_fetched (s : State) (n : Nat) (f : StepRec → StepRec) : (s.updStep n f).fetched = s.fetched := rfl
@[simp] theorem State.updStep_descs (s : State) (n : Nat) (f : StepRec → StepRec) : (s.updStep n f).descs = s.descs := rfl
@[simp] theorem State.updStep_waits (s : State) (n : Nat) (f : StepRec → StepRec) : (s.updStep n f).waits = s.waits := rfl
@[simp] theorem State.updStep_heldEvents (s : State) (n : Nat) (f : StepRec → StepRec) : (s.updStep n f).heldEvents = s.heldEvents := rfl
@[simp] theorem State.updStep_eventsOpen (s : State) (n : Nat) (f : StepRec → StepRec) : (s.updStep n f).eventsOpen = s.eventsOpen := rfl
@[simp] theorem State.updStep_nextRing (s : State) (n : Nat) (f : StepRec → StepRec) : (s.updStep n f).nextRing = s.nextRing := rfl
@[simp] theorem State.updStep_link (s : State) (n : Nat) (f : StepRec → StepRec) : (s.updStep n f).link = s.link := rfl
@[simp] theorem State.updStep_err (s : State) (n : Nat) (f : StepRec → StepRec) : (s.updStep n f).err = s.err := rfl
@[simp] theorem State.updStep_fabric (s : State) (n : Nat) (f : StepRec → StepRec) : (s.updStep n f).fabric = s.fabric := rfl
@[simp] theorem State.updStep_sent (s : State) (n : Nat) (f : StepRec → StepRec) : (s.updStep n f).sent = s.sent := rfl
@[simp] theorem State.updStep_talus (s : State) (n : Nat) (f : StepRec → StepRec) : (s.updStep n f).talus = s.talus := rfl
@[simp] theorem State.updStep_snaps (s : State) (n : Nat) (f : StepRec → StepRec) : (s.updStep n f).snaps = s.snaps := rfl
@[simp] theorem State.updStep_meshDown (s : State) (n : Nat) (f : StepRec → StepRec) : (s.updStep n f).meshDown = s.meshDown := rfl
@[simp] theorem State.updStep_partitioned (s : State) (n : Nat) (f : StepRec → StepRec) : (s.updStep n f).partitioned = s.partitioned := rfl
@[simp] theorem State.updStep_power (s : State) (n : Nat) (f : StepRec → StepRec) : (s.updStep n f).power = s.power := rfl
@[simp] theorem State.updStep_monitor (s : State) (n : Nat) (f : StepRec → StepRec) : (s.updStep n f).monitor = s.monitor := rfl
@[simp] theorem State.updStep_cairn (s : State) (n : Nat) (f : StepRec → StepRec) : (s.updStep n f).cairn = s.cairn := rfl
@[simp] theorem State.updStep_mailbox (s : State) (n : Nat) (f : StepRec → StepRec) : (s.updStep n f).mailbox = s.mailbox := rfl
@[simp] theorem State.updStep_side (s : State) (n : Nat) (f : StepRec → StepRec) : (s.updStep n f).side = s.side := rfl

/-! ### save writes mem -/

@[simp] theorem State.save_pending (s : State) (a : Nat) (bs : List (Byte × Bool)) : (s.save a bs).pending = s.pending := rfl
@[simp] theorem State.save_free (s : State) (a : Nat) (bs : List (Byte × Bool)) : (s.save a bs).free = s.free := rfl
@[simp] theorem State.save_serial (s : State) (a : Nat) (bs : List (Byte × Bool)) : (s.save a bs).serial = s.serial := rfl
@[simp] theorem State.save_code (s : State) (a : Nat) (bs : List (Byte × Bool)) : (s.save a bs).code = s.code := rfl
@[simp] theorem State.save_cores (s : State) (a : Nat) (bs : List (Byte × Bool)) : (s.save a bs).cores = s.cores := rfl
@[simp] theorem State.save_spares (s : State) (a : Nat) (bs : List (Byte × Bool)) : (s.save a bs).spares = s.spares := rfl
@[simp] theorem State.save_coreMap (s : State) (a : Nat) (bs : List (Byte × Bool)) : (s.save a bs).coreMap = s.coreMap := rfl
@[simp] theorem State.save_tiles (s : State) (a : Nat) (bs : List (Byte × Bool)) : (s.save a bs).tiles = s.tiles := rfl
@[simp] theorem State.save_mdies (s : State) (a : Nat) (bs : List (Byte × Bool)) : (s.save a bs).mdies = s.mdies := rfl
@[simp] theorem State.save_merge (s : State) (a : Nat) (bs : List (Byte × Bool)) : (s.save a bs).merge = s.merge := rfl
@[simp] theorem State.save_tables (s : State) (a : Nat) (bs : List (Byte × Bool)) : (s.save a bs).tables = s.tables := rfl
@[simp] theorem State.save_plan (s : State) (a : Nat) (bs : List (Byte × Bool)) : (s.save a bs).plan = s.plan := rfl
@[simp] theorem State.save_scales (s : State) (a : Nat) (bs : List (Byte × Bool)) : (s.save a bs).scales = s.scales := rfl
@[simp] theorem State.save_acts (s : State) (a : Nat) (bs : List (Byte × Bool)) : (s.save a bs).acts = s.acts := rfl
@[simp] theorem State.save_folds (s : State) (a : Nat) (bs : List (Byte × Bool)) : (s.save a bs).folds = s.folds := rfl
@[simp] theorem State.save_streaks (s : State) (a : Nat) (bs : List (Byte × Bool)) : (s.save a bs).streaks = s.streaks := rfl
@[simp] theorem State.save_store (s : State) (a : Nat) (bs : List (Byte × Bool)) : (s.save a bs).store = s.store := rfl
@[simp] theorem State.save_steps (s : State) (a : Nat) (bs : List (Byte × Bool)) : (s.save a bs).steps = s.steps := rfl
@[simp] theorem State.save_crest (s : State) (a : Nat) (bs : List (Byte × Bool)) : (s.save a bs).crest = s.crest := rfl
@[simp] theorem State.save_collectives (s : State) (a : Nat) (bs : List (Byte × Bool)) : (s.save a bs).collectives = s.collectives := rfl
@[simp] theorem State.save_arrays (s : State) (a : Nat) (bs : List (Byte × Bool)) : (s.save a bs).arrays = s.arrays := rfl
@[simp] theorem State.save_rings (s : State) (a : Nat) (bs : List (Byte × Bool)) : (s.save a bs).rings = s.rings := rfl
@[simp] theorem State.save_fetched (s : State) (a : Nat) (bs : List (Byte × Bool)) : (s.save a bs).fetched = s.fetched := rfl
@[simp] theorem State.save_descs (s : State) (a : Nat) (bs : List (Byte × Bool)) : (s.save a bs).descs = s.descs := rfl
@[simp] theorem State.save_waits (s : State) (a : Nat) (bs : List (Byte × Bool)) : (s.save a bs).waits = s.waits := rfl
@[simp] theorem State.save_heldEvents (s : State) (a : Nat) (bs : List (Byte × Bool)) : (s.save a bs).heldEvents = s.heldEvents := rfl
@[simp] theorem State.save_eventsOpen (s : State) (a : Nat) (bs : List (Byte × Bool)) : (s.save a bs).eventsOpen = s.eventsOpen := rfl
@[simp] theorem State.save_nextRing (s : State) (a : Nat) (bs : List (Byte × Bool)) : (s.save a bs).nextRing = s.nextRing := rfl
@[simp] theorem State.save_link (s : State) (a : Nat) (bs : List (Byte × Bool)) : (s.save a bs).link = s.link := rfl
@[simp] theorem State.save_err (s : State) (a : Nat) (bs : List (Byte × Bool)) : (s.save a bs).err = s.err := rfl
@[simp] theorem State.save_fabric (s : State) (a : Nat) (bs : List (Byte × Bool)) : (s.save a bs).fabric = s.fabric := rfl
@[simp] theorem State.save_sent (s : State) (a : Nat) (bs : List (Byte × Bool)) : (s.save a bs).sent = s.sent := rfl
@[simp] theorem State.save_talus (s : State) (a : Nat) (bs : List (Byte × Bool)) : (s.save a bs).talus = s.talus := rfl
@[simp] theorem State.save_snaps (s : State) (a : Nat) (bs : List (Byte × Bool)) : (s.save a bs).snaps = s.snaps := rfl
@[simp] theorem State.save_meshDown (s : State) (a : Nat) (bs : List (Byte × Bool)) : (s.save a bs).meshDown = s.meshDown := rfl
@[simp] theorem State.save_partitioned (s : State) (a : Nat) (bs : List (Byte × Bool)) : (s.save a bs).partitioned = s.partitioned := rfl
@[simp] theorem State.save_power (s : State) (a : Nat) (bs : List (Byte × Bool)) : (s.save a bs).power = s.power := rfl
@[simp] theorem State.save_monitor (s : State) (a : Nat) (bs : List (Byte × Bool)) : (s.save a bs).monitor = s.monitor := rfl
@[simp] theorem State.save_cairn (s : State) (a : Nat) (bs : List (Byte × Bool)) : (s.save a bs).cairn = s.cairn := rfl
@[simp] theorem State.save_mailbox (s : State) (a : Nat) (bs : List (Byte × Bool)) : (s.save a bs).mailbox = s.mailbox := rfl
@[simp] theorem State.save_side (s : State) (a : Nat) (bs : List (Byte × Bool)) : (s.save a bs).side = s.side := rfl

/-! ### tileSave writes tiles -/

@[simp] theorem State.tileSave_pending (s : State) (c t o : Nat) (bs : List (Byte × Bool)) : (s.tileSave c t o bs).pending = s.pending := rfl
@[simp] theorem State.tileSave_free (s : State) (c t o : Nat) (bs : List (Byte × Bool)) : (s.tileSave c t o bs).free = s.free := rfl
@[simp] theorem State.tileSave_serial (s : State) (c t o : Nat) (bs : List (Byte × Bool)) : (s.tileSave c t o bs).serial = s.serial := rfl
@[simp] theorem State.tileSave_code (s : State) (c t o : Nat) (bs : List (Byte × Bool)) : (s.tileSave c t o bs).code = s.code := rfl
@[simp] theorem State.tileSave_cores (s : State) (c t o : Nat) (bs : List (Byte × Bool)) : (s.tileSave c t o bs).cores = s.cores := rfl
@[simp] theorem State.tileSave_spares (s : State) (c t o : Nat) (bs : List (Byte × Bool)) : (s.tileSave c t o bs).spares = s.spares := rfl
@[simp] theorem State.tileSave_coreMap (s : State) (c t o : Nat) (bs : List (Byte × Bool)) : (s.tileSave c t o bs).coreMap = s.coreMap := rfl
@[simp] theorem State.tileSave_mem (s : State) (c t o : Nat) (bs : List (Byte × Bool)) : (s.tileSave c t o bs).mem = s.mem := rfl
@[simp] theorem State.tileSave_mdies (s : State) (c t o : Nat) (bs : List (Byte × Bool)) : (s.tileSave c t o bs).mdies = s.mdies := rfl
@[simp] theorem State.tileSave_merge (s : State) (c t o : Nat) (bs : List (Byte × Bool)) : (s.tileSave c t o bs).merge = s.merge := rfl
@[simp] theorem State.tileSave_tables (s : State) (c t o : Nat) (bs : List (Byte × Bool)) : (s.tileSave c t o bs).tables = s.tables := rfl
@[simp] theorem State.tileSave_plan (s : State) (c t o : Nat) (bs : List (Byte × Bool)) : (s.tileSave c t o bs).plan = s.plan := rfl
@[simp] theorem State.tileSave_scales (s : State) (c t o : Nat) (bs : List (Byte × Bool)) : (s.tileSave c t o bs).scales = s.scales := rfl
@[simp] theorem State.tileSave_acts (s : State) (c t o : Nat) (bs : List (Byte × Bool)) : (s.tileSave c t o bs).acts = s.acts := rfl
@[simp] theorem State.tileSave_folds (s : State) (c t o : Nat) (bs : List (Byte × Bool)) : (s.tileSave c t o bs).folds = s.folds := rfl
@[simp] theorem State.tileSave_streaks (s : State) (c t o : Nat) (bs : List (Byte × Bool)) : (s.tileSave c t o bs).streaks = s.streaks := rfl
@[simp] theorem State.tileSave_store (s : State) (c t o : Nat) (bs : List (Byte × Bool)) : (s.tileSave c t o bs).store = s.store := rfl
@[simp] theorem State.tileSave_steps (s : State) (c t o : Nat) (bs : List (Byte × Bool)) : (s.tileSave c t o bs).steps = s.steps := rfl
@[simp] theorem State.tileSave_crest (s : State) (c t o : Nat) (bs : List (Byte × Bool)) : (s.tileSave c t o bs).crest = s.crest := rfl
@[simp] theorem State.tileSave_collectives (s : State) (c t o : Nat) (bs : List (Byte × Bool)) : (s.tileSave c t o bs).collectives = s.collectives := rfl
@[simp] theorem State.tileSave_arrays (s : State) (c t o : Nat) (bs : List (Byte × Bool)) : (s.tileSave c t o bs).arrays = s.arrays := rfl
@[simp] theorem State.tileSave_rings (s : State) (c t o : Nat) (bs : List (Byte × Bool)) : (s.tileSave c t o bs).rings = s.rings := rfl
@[simp] theorem State.tileSave_fetched (s : State) (c t o : Nat) (bs : List (Byte × Bool)) : (s.tileSave c t o bs).fetched = s.fetched := rfl
@[simp] theorem State.tileSave_descs (s : State) (c t o : Nat) (bs : List (Byte × Bool)) : (s.tileSave c t o bs).descs = s.descs := rfl
@[simp] theorem State.tileSave_waits (s : State) (c t o : Nat) (bs : List (Byte × Bool)) : (s.tileSave c t o bs).waits = s.waits := rfl
@[simp] theorem State.tileSave_heldEvents (s : State) (c t o : Nat) (bs : List (Byte × Bool)) : (s.tileSave c t o bs).heldEvents = s.heldEvents := rfl
@[simp] theorem State.tileSave_eventsOpen (s : State) (c t o : Nat) (bs : List (Byte × Bool)) : (s.tileSave c t o bs).eventsOpen = s.eventsOpen := rfl
@[simp] theorem State.tileSave_nextRing (s : State) (c t o : Nat) (bs : List (Byte × Bool)) : (s.tileSave c t o bs).nextRing = s.nextRing := rfl
@[simp] theorem State.tileSave_link (s : State) (c t o : Nat) (bs : List (Byte × Bool)) : (s.tileSave c t o bs).link = s.link := rfl
@[simp] theorem State.tileSave_err (s : State) (c t o : Nat) (bs : List (Byte × Bool)) : (s.tileSave c t o bs).err = s.err := rfl
@[simp] theorem State.tileSave_fabric (s : State) (c t o : Nat) (bs : List (Byte × Bool)) : (s.tileSave c t o bs).fabric = s.fabric := rfl
@[simp] theorem State.tileSave_sent (s : State) (c t o : Nat) (bs : List (Byte × Bool)) : (s.tileSave c t o bs).sent = s.sent := rfl
@[simp] theorem State.tileSave_talus (s : State) (c t o : Nat) (bs : List (Byte × Bool)) : (s.tileSave c t o bs).talus = s.talus := rfl
@[simp] theorem State.tileSave_snaps (s : State) (c t o : Nat) (bs : List (Byte × Bool)) : (s.tileSave c t o bs).snaps = s.snaps := rfl
@[simp] theorem State.tileSave_meshDown (s : State) (c t o : Nat) (bs : List (Byte × Bool)) : (s.tileSave c t o bs).meshDown = s.meshDown := rfl
@[simp] theorem State.tileSave_partitioned (s : State) (c t o : Nat) (bs : List (Byte × Bool)) : (s.tileSave c t o bs).partitioned = s.partitioned := rfl
@[simp] theorem State.tileSave_power (s : State) (c t o : Nat) (bs : List (Byte × Bool)) : (s.tileSave c t o bs).power = s.power := rfl
@[simp] theorem State.tileSave_monitor (s : State) (c t o : Nat) (bs : List (Byte × Bool)) : (s.tileSave c t o bs).monitor = s.monitor := rfl
@[simp] theorem State.tileSave_cairn (s : State) (c t o : Nat) (bs : List (Byte × Bool)) : (s.tileSave c t o bs).cairn = s.cairn := rfl
@[simp] theorem State.tileSave_mailbox (s : State) (c t o : Nat) (bs : List (Byte × Bool)) : (s.tileSave c t o bs).mailbox = s.mailbox := rfl
@[simp] theorem State.tileSave_side (s : State) (c t o : Nat) (bs : List (Byte × Bool)) : (s.tileSave c t o bs).side = s.side := rfl

/-! ### lostWrite writes err -/

@[simp] theorem State.lostWrite_pending (s : State) : (s.lostWrite).pending = s.pending := rfl
@[simp] theorem State.lostWrite_free (s : State) : (s.lostWrite).free = s.free := rfl
@[simp] theorem State.lostWrite_serial (s : State) : (s.lostWrite).serial = s.serial := rfl
@[simp] theorem State.lostWrite_code (s : State) : (s.lostWrite).code = s.code := rfl
@[simp] theorem State.lostWrite_cores (s : State) : (s.lostWrite).cores = s.cores := rfl
@[simp] theorem State.lostWrite_spares (s : State) : (s.lostWrite).spares = s.spares := rfl
@[simp] theorem State.lostWrite_coreMap (s : State) : (s.lostWrite).coreMap = s.coreMap := rfl
@[simp] theorem State.lostWrite_mem (s : State) : (s.lostWrite).mem = s.mem := rfl
@[simp] theorem State.lostWrite_tiles (s : State) : (s.lostWrite).tiles = s.tiles := rfl
@[simp] theorem State.lostWrite_mdies (s : State) : (s.lostWrite).mdies = s.mdies := rfl
@[simp] theorem State.lostWrite_merge (s : State) : (s.lostWrite).merge = s.merge := rfl
@[simp] theorem State.lostWrite_tables (s : State) : (s.lostWrite).tables = s.tables := rfl
@[simp] theorem State.lostWrite_plan (s : State) : (s.lostWrite).plan = s.plan := rfl
@[simp] theorem State.lostWrite_scales (s : State) : (s.lostWrite).scales = s.scales := rfl
@[simp] theorem State.lostWrite_acts (s : State) : (s.lostWrite).acts = s.acts := rfl
@[simp] theorem State.lostWrite_folds (s : State) : (s.lostWrite).folds = s.folds := rfl
@[simp] theorem State.lostWrite_streaks (s : State) : (s.lostWrite).streaks = s.streaks := rfl
@[simp] theorem State.lostWrite_store (s : State) : (s.lostWrite).store = s.store := rfl
@[simp] theorem State.lostWrite_steps (s : State) : (s.lostWrite).steps = s.steps := rfl
@[simp] theorem State.lostWrite_crest (s : State) : (s.lostWrite).crest = s.crest := rfl
@[simp] theorem State.lostWrite_collectives (s : State) : (s.lostWrite).collectives = s.collectives := rfl
@[simp] theorem State.lostWrite_arrays (s : State) : (s.lostWrite).arrays = s.arrays := rfl
@[simp] theorem State.lostWrite_rings (s : State) : (s.lostWrite).rings = s.rings := rfl
@[simp] theorem State.lostWrite_fetched (s : State) : (s.lostWrite).fetched = s.fetched := rfl
@[simp] theorem State.lostWrite_descs (s : State) : (s.lostWrite).descs = s.descs := rfl
@[simp] theorem State.lostWrite_waits (s : State) : (s.lostWrite).waits = s.waits := rfl
@[simp] theorem State.lostWrite_heldEvents (s : State) : (s.lostWrite).heldEvents = s.heldEvents := rfl
@[simp] theorem State.lostWrite_eventsOpen (s : State) : (s.lostWrite).eventsOpen = s.eventsOpen := rfl
@[simp] theorem State.lostWrite_nextRing (s : State) : (s.lostWrite).nextRing = s.nextRing := rfl
@[simp] theorem State.lostWrite_link (s : State) : (s.lostWrite).link = s.link := rfl
@[simp] theorem State.lostWrite_fabric (s : State) : (s.lostWrite).fabric = s.fabric := rfl
@[simp] theorem State.lostWrite_sent (s : State) : (s.lostWrite).sent = s.sent := rfl
@[simp] theorem State.lostWrite_talus (s : State) : (s.lostWrite).talus = s.talus := rfl
@[simp] theorem State.lostWrite_snaps (s : State) : (s.lostWrite).snaps = s.snaps := rfl
@[simp] theorem State.lostWrite_meshDown (s : State) : (s.lostWrite).meshDown = s.meshDown := rfl
@[simp] theorem State.lostWrite_partitioned (s : State) : (s.lostWrite).partitioned = s.partitioned := rfl
@[simp] theorem State.lostWrite_power (s : State) : (s.lostWrite).power = s.power := rfl
@[simp] theorem State.lostWrite_monitor (s : State) : (s.lostWrite).monitor = s.monitor := rfl
@[simp] theorem State.lostWrite_cairn (s : State) : (s.lostWrite).cairn = s.cairn := rfl
@[simp] theorem State.lostWrite_mailbox (s : State) : (s.lostWrite).mailbox = s.mailbox := rfl
@[simp] theorem State.lostWrite_side (s : State) : (s.lostWrite).side = s.side := rfl

/-! ### loseEvent writes err -/

@[simp] theorem State.loseEvent_pending (s : State) : (s.loseEvent).pending = s.pending := rfl
@[simp] theorem State.loseEvent_free (s : State) : (s.loseEvent).free = s.free := rfl
@[simp] theorem State.loseEvent_serial (s : State) : (s.loseEvent).serial = s.serial := rfl
@[simp] theorem State.loseEvent_code (s : State) : (s.loseEvent).code = s.code := rfl
@[simp] theorem State.loseEvent_cores (s : State) : (s.loseEvent).cores = s.cores := rfl
@[simp] theorem State.loseEvent_spares (s : State) : (s.loseEvent).spares = s.spares := rfl
@[simp] theorem State.loseEvent_coreMap (s : State) : (s.loseEvent).coreMap = s.coreMap := rfl
@[simp] theorem State.loseEvent_mem (s : State) : (s.loseEvent).mem = s.mem := rfl
@[simp] theorem State.loseEvent_tiles (s : State) : (s.loseEvent).tiles = s.tiles := rfl
@[simp] theorem State.loseEvent_mdies (s : State) : (s.loseEvent).mdies = s.mdies := rfl
@[simp] theorem State.loseEvent_merge (s : State) : (s.loseEvent).merge = s.merge := rfl
@[simp] theorem State.loseEvent_tables (s : State) : (s.loseEvent).tables = s.tables := rfl
@[simp] theorem State.loseEvent_plan (s : State) : (s.loseEvent).plan = s.plan := rfl
@[simp] theorem State.loseEvent_scales (s : State) : (s.loseEvent).scales = s.scales := rfl
@[simp] theorem State.loseEvent_acts (s : State) : (s.loseEvent).acts = s.acts := rfl
@[simp] theorem State.loseEvent_folds (s : State) : (s.loseEvent).folds = s.folds := rfl
@[simp] theorem State.loseEvent_streaks (s : State) : (s.loseEvent).streaks = s.streaks := rfl
@[simp] theorem State.loseEvent_store (s : State) : (s.loseEvent).store = s.store := rfl
@[simp] theorem State.loseEvent_steps (s : State) : (s.loseEvent).steps = s.steps := rfl
@[simp] theorem State.loseEvent_crest (s : State) : (s.loseEvent).crest = s.crest := rfl
@[simp] theorem State.loseEvent_collectives (s : State) : (s.loseEvent).collectives = s.collectives := rfl
@[simp] theorem State.loseEvent_arrays (s : State) : (s.loseEvent).arrays = s.arrays := rfl
@[simp] theorem State.loseEvent_rings (s : State) : (s.loseEvent).rings = s.rings := rfl
@[simp] theorem State.loseEvent_fetched (s : State) : (s.loseEvent).fetched = s.fetched := rfl
@[simp] theorem State.loseEvent_descs (s : State) : (s.loseEvent).descs = s.descs := rfl
@[simp] theorem State.loseEvent_waits (s : State) : (s.loseEvent).waits = s.waits := rfl
@[simp] theorem State.loseEvent_heldEvents (s : State) : (s.loseEvent).heldEvents = s.heldEvents := rfl
@[simp] theorem State.loseEvent_eventsOpen (s : State) : (s.loseEvent).eventsOpen = s.eventsOpen := rfl
@[simp] theorem State.loseEvent_nextRing (s : State) : (s.loseEvent).nextRing = s.nextRing := rfl
@[simp] theorem State.loseEvent_link (s : State) : (s.loseEvent).link = s.link := rfl
@[simp] theorem State.loseEvent_fabric (s : State) : (s.loseEvent).fabric = s.fabric := rfl
@[simp] theorem State.loseEvent_sent (s : State) : (s.loseEvent).sent = s.sent := rfl
@[simp] theorem State.loseEvent_talus (s : State) : (s.loseEvent).talus = s.talus := rfl
@[simp] theorem State.loseEvent_snaps (s : State) : (s.loseEvent).snaps = s.snaps := rfl
@[simp] theorem State.loseEvent_meshDown (s : State) : (s.loseEvent).meshDown = s.meshDown := rfl
@[simp] theorem State.loseEvent_partitioned (s : State) : (s.loseEvent).partitioned = s.partitioned := rfl
@[simp] theorem State.loseEvent_power (s : State) : (s.loseEvent).power = s.power := rfl
@[simp] theorem State.loseEvent_monitor (s : State) : (s.loseEvent).monitor = s.monitor := rfl
@[simp] theorem State.loseEvent_cairn (s : State) : (s.loseEvent).cairn = s.cairn := rfl
@[simp] theorem State.loseEvent_mailbox (s : State) : (s.loseEvent).mailbox = s.mailbox := rfl
@[simp] theorem State.loseEvent_side (s : State) : (s.loseEvent).side = s.side := rfl

end Sys2Proof.Machine
end

