-- ==== Sys2Proof/Laws/Ops.lean ====
section
/-! SUPPORT. What the shared operations can do, said once for each: records and events change the host's memory, the rings, the error log and
the held events; memory operations keep the canonical form. -/

namespace Sys2Proof.Machine

/-! ### One core, one M-die, one ring -/

/-- A core replaced reads back. -/
theorem State.core_setCore (s : State) (c : Nat) (k : CoreState) (h : SMap.wf CoreState.init s.cores = true) :
    (s.setCore c k).core c = k := SMap.get_set_eq _ _ _ _ h

/-- The other cores are as they were. -/
theorem State.core_setCore_ne (s : State) (c d : Nat) (k : CoreState) (h : SMap.wf CoreState.init s.cores = true) (hd : d ≠ c) :
    (s.setCore c k).core d = s.core d := SMap.get_set_ne _ _ _ _ _ h hd

/-- An M-die replaced reads back. -/
theorem State.mdie_setMdie (s : State) (m : Nat) (k : MDie) (h : SMap.wf MDie.init s.mdies = true) : (s.setMdie m k).mdie m = k :=
  SMap.get_set_eq _ _ _ _ h

/-- The other M-dies are as they were. -/
theorem State.mdie_setMdie_ne (s : State) (m n : Nat) (k : MDie) (h : SMap.wf MDie.init s.mdies = true) (hn : n ≠ m) :
    (s.setMdie m k).mdie n = s.mdie n := SMap.get_set_ne _ _ _ _ _ h hn

/-- A ring replaced reads back. -/
theorem State.ring_setRing (s : State) (i : Nat) (r : Ring) (h : SMap.wf Ring.init s.rings = true) : (s.setRing i r).ring i = r :=
  SMap.get_set_eq _ _ _ _ h

/-- The other rings are as they were. -/
theorem State.ring_setRing_ne (s : State) (i j : Nat) (r : Ring) (h : SMap.wf Ring.init s.rings = true) (hj : j ≠ i) :
    (s.setRing i r).ring j = s.ring j := SMap.get_set_ne _ _ _ _ _ h hj

/-! ### Records and events -/

/-- t differs from s at most in the host's memory, the rings, the error log and the held events. -/
def State.records (s t : State) : Prop :=
  t = { s with link := t.link, rings := t.rings, err := t.err, heldEvents := t.heldEvents }

theorem State.records.refl (s : State) : s.records s := rfl

theorem State.records.trans {s t u : State} (h1 : s.records t) (h2 : t.records u) : s.records u :=
  Eq.trans h2 (congrArg (fun x : State => { x with link := u.link, rings := u.rings, err := u.err, heldEvents := u.heldEvents }) h1)

theorem State.hostWrite_records (s : State) (a : Nat) (bs : List Byte) : s.records (s.hostWrite a bs) := by
  unfold State.hostWrite; split <;> rfl

theorem State.setRing_records (s : State) (i : Nat) (r : Ring) : s.records (s.setRing i r) := rfl

theorem State.interrupt_records (s : State) (i : Nat) : s.records (s.interrupt i) := by
  unfold State.interrupt
  by_cases h : (s.ring i).holding = true
  · rw [if_pos h]; rfl
  · rw [if_neg h]
    exact State.records.trans (t := s.setRing i { s.ring i with holding := decide ((s.ring i).holdoff ≠ 0) }) rfl (State.hostWrite_records _ _ _)

theorem State.putRecord_records (s : State) (i body : Nat) : s.records (s.putRecord i body) := by
  unfold State.putRecord
  split
  · rfl
  · exact State.records.trans (State.records.trans (State.hostWrite_records s _ _) (State.setRing_records _ i _)) (State.interrupt_records _ i)

theorem State.putEvent_records (s : State) (body : Nat) : s.records (s.putEvent body) := by
  unfold State.putEvent
  split
  · rfl
  · exact State.putRecord_records s _ _

theorem State.reportLost_records (s : State) : s.records s.reportLost := by
  unfold State.reportLost
  split
  · rfl
  · exact State.records.trans (State.putRecord_records s _ _) rfl

/-- An event changes records only. -/
theorem State.event_records (s : State) (code cls src step detail : Nat) : s.records (s.event code cls src step detail) := by
  unfold State.event
  by_cases h : ((code == 0x19 || code == 0x38) && (!s.eventsOpen || !s.linkUp || s.power.hot == .released)) = true
  · simp only [h, if_true]
    split
    · rfl
    · rfl
  · simp only [h]
    exact State.records.trans (State.reportLost_records s) (State.putEvent_records _ _)

theorem State.linkError_records (s : State) (cls src step a : Nat) : s.records (s.linkError cls src step a) :=
  State.records.trans (t := { s with err := { s.err with linkErrors := satAdd 32 s.err.linkErrors 1 } }) rfl (State.event_records _ _ _ _ _ _)

theorem State.illegalWrite_records (s : State) (doorbell : Bool) (offset cause : Nat) : s.records (s.illegalWrite doorbell offset cause) := by
  unfold State.illegalWrite; split <;> rfl

/-- What records leave: any function of the state that reads none of the four fields. -/
theorem State.records.same {s t : State} (h : s.records t) {β : Type} (f : State → β)
    (hf : ∀ l r e v, f { s with link := l, rings := r, err := e, heldEvents := v } = f s) : f t = f s := by
  rw [h]; exact hf _ _ _ _

theorem State.records.mem {s t : State} (h : s.records t) : t.mem = s.mem := by rw [h]
theorem State.records.tiles {s t : State} (h : s.records t) : t.tiles = s.tiles := by rw [h]
theorem State.records.cores {s t : State} (h : s.records t) : t.cores = s.cores := by rw [h]
theorem State.records.mdies {s t : State} (h : s.records t) : t.mdies = s.mdies := by rw [h]
theorem State.records.plan {s t : State} (h : s.records t) : t.plan = s.plan := by rw [h]
theorem State.records.crest {s t : State} (h : s.records t) : t.crest = s.crest := by rw [h]
theorem State.records.steps {s t : State} (h : s.records t) : t.steps = s.steps := by rw [h]

@[simp] theorem State.event_mem (s : State) (a b c d e : Nat) : (s.event a b c d e).mem = s.mem := (s.event_records a b c d e).mem
@[simp] theorem State.event_tiles (s : State) (a b c d e : Nat) : (s.event a b c d e).tiles = s.tiles := (s.event_records a b c d e).tiles
@[simp] theorem State.event_cores (s : State) (a b c d e : Nat) : (s.event a b c d e).cores = s.cores := (s.event_records a b c d e).cores
@[simp] theorem State.event_mdies (s : State) (a b c d e : Nat) : (s.event a b c d e).mdies = s.mdies := (s.event_records a b c d e).mdies
@[simp] theorem State.event_plan (s : State) (a b c d e : Nat) : (s.event a b c d e).plan = s.plan := (s.event_records a b c d e).plan
@[simp] theorem State.event_crest (s : State) (a b c d e : Nat) : (s.event a b c d e).crest = s.crest := (s.event_records a b c d e).crest
@[simp] theorem State.event_steps (s : State) (a b c d e : Nat) : (s.event a b c d e).steps = s.steps := (s.event_records a b c d e).steps

/-! ### Memory by device address -/

/-- A write of device memory keeps its canonical form. -/
theorem State.save_wf (s : State) (a : Nat) (bs : List (Byte × Bool)) (h : s.mem.wf = true) : (s.save a bs).mem.wf = true :=
  Memory.wf_foldl _ (fun m p hm => Memory.wf_write m _ p.1 p.2 hm) _ _ h

/-- A write of a tile buffer keeps its canonical form. -/
theorem State.tileSave_wf (s : State) (c t o : Nat) (bs : List (Byte × Bool)) (h : s.tiles.wf = true) : (s.tileSave c t o bs).tiles.wf = true :=
  Memory.wf_write _ _ _ _ h

/-- A FILL keeps the canonical form. -/
theorem State.fillBytes_wf (s : State) (a n : Nat) (p : Word) (h : s.mem.wf = true) : (s.fillBytes a n p).mem.wf = true := by
  unfold State.fillBytes
  split
  · exact Memory.wf_foldl _ (fun m sp hm => Memory.wf_fill m _ _ _ hm) _ _ h
  · exact Memory.wf_fill _ _ _ _ h

/-- Outside HBM3's interleaved view, a write of device memory leaves every byte outside its range. -/
theorem State.save_byte_out (s : State) (a x : Nat) (bs : List (Byte × Bool)) (ha : stackView ≤ a) (h : x < a ∨ a + bs.length ≤ x) :
    (s.save a bs).mem.byte x = s.mem.byte x := by
  have : ¬ a < stackView := by omega
  simp only [State.save, this, if_false, List.foldl_cons, List.foldl_nil]
  exact Memory.byte_write_out s.mem _ _ _ _ h

/-! ### Counted reads and merge buffers -/

/-- t differs from s at most in records and in the merge buffers. -/
def State.counts (s t : State) : Prop :=
  t = { s with merge := t.merge, link := t.link, rings := t.rings, err := t.err, heldEvents := t.heldEvents }

theorem State.counts.refl (s : State) : s.counts s := rfl

theorem State.counts.trans {s t u : State} (h1 : s.counts t) (h2 : t.counts u) : s.counts u :=
  Eq.trans h2 (congrArg (fun x : State =>
    { x with merge := u.merge, link := u.link, rings := u.rings, err := u.err, heldEvents := u.heldEvents }) h1)

theorem State.records.counts {s t : State} (h : s.records t) : s.counts t := by unfold State.counts; rw [h]

theorem State.counts.mem {s t : State} (h : s.counts t) : t.mem = s.mem := by rw [h]
theorem State.counts.tiles {s t : State} (h : s.counts t) : t.tiles = s.tiles := by rw [h]
theorem State.counts.cores {s t : State} (h : s.counts t) : t.cores = s.cores := by rw [h]
theorem State.counts.fabric {s t : State} (h : s.counts t) : t.fabric = s.fabric := by rw [h]

theorem State.counts_foldl {β : Type} (f : State → β → State) (hf : ∀ (s : State) (x : β), s.counts (f s x)) (l : List β) (s : State) :
    s.counts (l.foldl f s) := by
  induction l generalizing s with
  | nil => exact State.counts.refl s
  | cons x l ih => exact State.counts.trans (hf s x) (ih (f s x))

/-- A counted read changes records only. -/
theorem State.countRead_records (s : State) (die k cls src addr : Nat) (m : Mark) : s.records (s.countRead die k cls src addr m) := by
  unfold State.countRead
  split
  · rfl
  cases m with
  | correctable =>
    dsimp only
    split
    · exact State.records.trans (t := { s with err := _ }) rfl (State.event_records _ _ _ _ _ _)
    · rfl
  | clean => rfl
  | carried => rfl
  | uncorrectable => rfl
  | sweep => rfl

theorem State.noteCodeword_records (s : State) (w : Nat) (m : Mark) : s.records (s.noteCodeword w m) := by
  unfold State.noteCodeword
  split
  · rfl
  · rfl
  · exact State.countRead_records s _ _ _ _ _ _

/-- An entry that retires changes the merge buffers and records only. -/
theorem State.retireEntry_counts (s : State) (e : MergeEntry) : s.counts (s.retireEntry e) :=
  State.counts.trans (t := { s with merge := s.merge.erase e }) rfl (State.noteCodeword_records _ _ _).counts

theorem State.retireWhere_counts (s : State) (p : MergeEntry → Bool) : s.counts (s.retireWhere p) :=
  State.counts_foldl _ (fun s e => s.retireEntry_counts e) _ s

/-- The entries of a writer that retire change the merge buffers and records only. -/
theorem State.retireOwned_counts (s : State) (key : Nat) : s.counts (s.retireOwned key) := State.retireWhere_counts s _

theorem State.noteRead_counts (s : State) (a n : Nat) : s.counts (s.noteRead a n) :=
  State.counts.trans (State.retireWhere_counts s _) (State.counts_foldl _ (fun s _ => (s.noteCodeword_records _ _).counts) _ _)

theorem State.narrowWord_counts (s : State) (owner w : Nat) : s.counts (s.narrowWord owner w) := by
  have join (m : Nat) (x : State) (hx : s.counts x) (e : MergeEntry) : s.counts { x with merge := x.merge ++ [e] } :=
    State.counts.trans hx rfl
  unfold State.narrowWord
  dsimp only
  split
  · split
    · rfl
    · refine join 0 _ ?_ _
      split
      · split
        · exact State.retireEntry_counts s _
        · exact State.counts.refl s
      · exact State.counts.refl s
  · split
    · rfl
    · refine join 0 _ ?_ _
      split
      · split
        · exact State.retireEntry_counts s _
        · exact State.counts.refl s
      · exact State.counts.refl s
  · exact (State.noteCodeword_records s _ _).counts
  · exact (State.noteCodeword_records s _ _).counts
  · exact State.counts.refl s

theorem State.noteWrite_counts (s : State) (owner a n : Nat) : s.counts (s.noteWrite owner a n) :=
  State.counts.trans (State.retireWhere_counts s _) (State.counts_foldl _ (fun s w => s.narrowWord_counts owner w) _ _)

/-- A FILL with the merge entries that it retires keeps the canonical form. -/
theorem State.fillRange_wf (s : State) (a n : Nat) (p : Word) (h : s.mem.wf = true) : (s.fillRange a n p).mem.wf = true :=
  State.fillBytes_wf _ a n p (by rw [(s.noteWrite_counts 0 a n).mem]; exact h)

/-- A write with its counted reads leaves memory as the plain write does. -/
theorem State.put_mem (s : State) (owner a : Nat) (bs : List (Byte × Bool)) : (s.put owner a bs).mem = (s.save a bs).mem := by
  have h : ((s.noteWrite owner a bs.length).save a bs).mem = (s.save a bs).mem := by
    simp only [State.save]; rw [(s.noteWrite_counts owner a bs.length).mem]
  unfold State.put
  dsimp only
  split
  · rw [(State.retireOwned_counts _ _).mem, h]
  · exact h

/-- A write with its counted reads keeps memory's canonical form. -/
theorem State.put_wf (s : State) (owner a : Nat) (bs : List (Byte × Bool)) (h : s.mem.wf = true) : (s.put owner a bs).mem.wf = true := by
  rw [State.put_mem]; exact State.save_wf s a bs h

/-! ### The device's own tables -/

/-- Good tables: the operation is performed, and nothing is counted. -/
theorem State.useTables_clean (s : State) (ws : List TableWord) (f : State → State) (h : s.tables = []) : s.useTables ws f = f s := by
  simp [State.useTables, State.tableBad, State.noteTables, State.tableMarks, h]

/-- An uncorrectable table word: the operation is not performed, and the oldest step in flight is marked. -/
theorem State.useTables_bad (s : State) (ws : List TableWord) (f : State → State) (h : s.tableBad ws = true) :
    s.useTables ws f = (s.noteTables ws).markOldest := by simp [State.useTables, h]

/-- Table words with correctable errors only: the operation is performed on the state with their reads counted. -/
theorem State.useTables_good (s : State) (ws : List TableWord) (f : State → State) (h : s.tableBad ws = false) :
    s.useTables ws f = f (s.noteTables ws) := by simp [State.useTables, h]

theorem State.noteTables_counts (s : State) (ws : List TableWord) : s.counts (s.noteTables ws) :=
  State.counts_foldl _ (fun s _ => (s.countRead_records _ _ _ _ _ _).counts) _ s

/-! ### Tokens and flags -/

/-- A token incremented changes the cores and records only. -/
theorem State.addToken_mem (s : State) (c k n : Nat) : (s.addToken c k n).mem = s.mem := by
  unfold State.addToken; dsimp only; split <;> simp [State.onCore]

theorem State.addToken_tiles (s : State) (c k n : Nat) : (s.addToken c k n).tiles = s.tiles := by
  unfold State.addToken; dsimp only; split <;> simp [State.onCore]

/-- A sig increment changes the cores and records only. -/
theorem State.signal_mem (s : State) (w : Nat) : (s.signal w).mem = s.mem := by
  unfold State.signal; split
  · exact State.addToken_mem _ _ _ _
  · rfl

theorem State.signal_tiles (s : State) (w : Nat) : (s.signal w).tiles = s.tiles := by
  unfold State.signal; split
  · exact State.addToken_tiles _ _ _ _
  · rfl

end Sys2Proof.Machine
end

