-- ==== Sys2Proof/Laws/Links.lean ====
section
/-! SUPPORT. What sending a packet can change: the ports and the packets that wait. -/

namespace Sys2Proof.Machine

/-- t differs from s at most in the ports' links and the packets that wait for them. -/
def State.links (s t : State) : Prop := t = { s with fabric := { s.fabric with ports := t.fabric.ports, waits := t.fabric.waits } }

theorem State.links.refl (s : State) : s.links s := rfl

theorem State.links.trans {s t u : State} (h1 : s.links t) (h2 : t.links u) : s.links u :=
  Eq.trans h2 (congrArg (fun x : State => { x with fabric := { x.fabric with ports := u.fabric.ports, waits := u.fabric.waits } }) h1)

/-- A packet that goes out or waits changes links only. -/
theorem State.carry_links (s : State) (x : Sending) : s.links (s.carry x) := by
  unfold State.carry
  dsimp only
  split
  · rfl
  · split <;> rfl

/-- The waiting packets tried again change links only. -/
theorem State.pump_links (s : State) : s.links s.pump := by
  have h (l : List Sending) (t : State) (ht : s.links t) : s.links (l.foldl State.carry t) := by
    induction l generalizing t with
    | nil => exact ht
    | cons k l ih => exact ih _ (State.links.trans ht (State.carry_links t k))
  exact h _ _ rfl

/-- With none waiting there is nothing to try again. -/
theorem State.pump_idle (s : State) (h : s.fabric.waits = []) : s.pump = s := by
  obtain ⟨⟩ := s
  simp only [State.pump] at *
  rw [h]
  simp only [List.foldl_nil]
  congr 1
  rename_i fabric _ _ _ _ _ _ _ _ _ _
  cases fabric
  simp_all

end Sys2Proof.Machine
end

