-- ==== Sys2Proof/Laws/Plan.lean ====
section
/-! SUPPORT. What a plan load does to the memories beside its writes: the exchange of cores. -/

namespace Sys2Proof.Machine

/-- Two ranges that change places keep the canonical form. -/
theorem Memory.wf_swap (m : Memory) (a b n : Nat) (h : m.wf = true) : (m.swap a b n).wf = true := by
  unfold Memory.swap
  dsimp only
  apply Memory.wf_foldl
  · intro m _ h
    exact Memory.wf_setMark _ _ _ (Memory.wf_setMark _ _ _ h)
  · apply Memory.wf_foldl
    · intro m _ h
      exact Memory.wf_setByte _ _ _ (Memory.wf_setByte _ _ _ h)
    · exact h

/-- An exchange of cores keeps the canonical form of device memory and of the tile buffers. -/
theorem State.exchangeCore_wf (s : State) (n : Nat) (hm : s.mem.wf = true) (ht : s.tiles.wf = true) :
    (s.exchangeCore n).mem.wf = true ∧ (s.exchangeCore n).tiles.wf = true := by
  unfold State.exchangeCore
  dsimp only
  exact ⟨Memory.wf_swap _ _ _ _ (Memory.wf_swap _ _ _ _ hm), Memory.wf_swap _ _ _ _ ht⟩

end Sys2Proof.Machine
end

