-- ==== Sys2Proof/Laws/Sequencer.lean ====
section
/-! SUPPORT. The sequencer: when it has nothing left to issue, and what a word's row does. -/

namespace Sys2Proof.Machine

/-- A held sequencer issues nothing. -/
theorem State.drain_held (n c : Nat) (s : State) (h : (s.core c).hold ≠ none) : State.drain n c s = s := by
  cases n with
  | zero => rfl
  | succ n =>
    unfold State.drain
    split
    · rename_i h1 _; exact absurd h1 h
    · rfl

/-- A sequencer with nothing waiting issues nothing. -/
theorem State.drain_empty (n c : Nat) (s : State) (h : (s.core c).waiting = []) : State.drain n c s = s := by
  cases n with
  | zero => rfl
  | succ n =>
    unfold State.drain
    split
    · rename_i _ h1; rw [h] at h1; cases h1
    · rfl

/-- A sequencer goes on with the first instruction that waits. -/
theorem State.drain_succ (n c : Nat) (s : State) (t : Waiting) (rest : List Waiting) (h : (s.core c).hold = none)
    (hw : (s.core c).waiting = t :: rest) :
    State.drain (n + 1) c s = State.drain n c ((s.onCore c fun k => { k with waiting := rest }).issue c t) := by
  rw [State.drain, h, hw]

/-- An instruction reaches a sequencer that nothing holds. -/
theorem State.submit_free (s : State) (c : Nat) (t : Waiting) (hc : s.clocked = true) (hb : s.blockless c = false) (h : (s.core c).hold = none) :
    s.submit c t = State.drain drainFuel c (s.issue c t) := by
  simp [State.submit, h, hc, hb]

/-- A core without clock takes no instruction. -/
theorem State.submit_unclocked (s : State) (c : Nat) (t : Waiting) (hc : s.clocked = false) : s.submit c t = s := by
  simp [State.submit, hc]

/-- A core without a block in the crest takes no instruction. -/
theorem State.submit_blockless (s : State) (c : Nat) (t : Waiting) (hb : s.blockless c = true) : s.submit c t = s := by
  simp [State.submit, hb]

/-- A word that the instruction memory delivers good is issued as it is. -/
theorem State.issue_good (s : State) (c : Nat) (t : Waiting) (hf : (s.core c).fetched = false) (hs : s.fetchStained c = false)
    (h0 : (s.core c).imem.markAt ((s.core c).fetchAt (s.core c).index) = .clean)
    (h1 : (s.core c).imem.markAt ((s.core c).fetchAt (s.core c).index + 8) = .clean) : s.issue c t = s.issueFetched c t := by
  simp [State.issue, State.noteFetch, hf, hs, h0, h1]

/-- A word that the instruction memory delivers stained is refused. -/
theorem State.issue_stained (s : State) (c : Nat) (t : Waiting) (hf : (s.core c).fetched = false) (hs : s.fetchStained c = true) :
    s.issue c t = (s.noteFetch c (s.core c).index).refused c t (s.issueOf c t) byStain := by
  simp [State.issue, hf, hs]

/-- An instruction reaches a held sequencer. -/
theorem State.submit_held (s : State) (c : Nat) (t : Waiting) (hc : s.clocked = true) (hb : s.blockless c = false) (h : (s.core c).hold ≠ none) :
    s.submit c t = s.onCore c fun k => { k with waiting := k.waiting ++ [t] } := by
  cases hh : (s.core c).hold with
  | none => exact absurd hh h
  | some x => simp [State.submit, hh, hc, hb]

/-- A word that the plan load accepts is submitted. -/
theorem issueWord_next (o : CoreOp) (c : BitVec 8) (w : IWord) (s : State) (h : wordStatus o w.toNat = none) :
    issueWord o c w s = .next (s.submit c.toNat ⟨o, w.toNat⟩) := by
  simp [issueWord, h]

/-- A word that the plan load refuses is refused. -/
theorem issueWord_refused (o : CoreOp) (c : BitVec 8) (w : IWord) (s : State) (st : Nat) (h : wordStatus o w.toNat = some st) :
    issueWord o c w s = .refused (.refusedAtLoad st) := by
  simp [issueWord, h]

end Sys2Proof.Machine
end

