-- ==== Sys2Proof/Machine/Readout.lean ====
section
/-! DEFINITION. What a host read of the register window returns (R595–R616). No command reads: these functions say what the state shows. -/

namespace Sys2Proof.Machine

/-- Identity block (R602). -/
def State.identityReadout (s : State) (off : Nat) : Nat :=
  match off with
  | 0x00 => 0x0001B7C3 + 0x9250 <<< 32 + 0x00B0 <<< 48
  | 0x08 =>
    (match s.code with
      | .l576 => 48
      | .l384 => 32) + 1 <<< 8 + (s.cairn.runTag % 65536) <<< 16 + s.power.hot.code <<< 32 + s.power.state.code <<< 35 +
      b2n (s.plan.isSome || s.descs.any fun d => d.kind == 0x01) <<< 38 + (min 3 s.steps.length) <<< 39
  | 0x10 => s.store.committed % 2 ^ 64
  | 0x18 => match s.plan with
    | some p => p.digest % 2 ^ 64
    | none => 0
  | 0x20 => leNat (serialNumber.take 8)
  | 0x28 => leNat (serialNumber.drop 8)
  | 0x30 => leNat (s.code.ascii.take 8)
  | 0x38 => leNat (s.code.ascii.drop 8)
  | _ => 0

/-- Host-link and crest blocks (R603, R604). -/
def State.crestReadout (s : State) (off : Nat) : Nat :=
  let c := s.crest
  match off with
  | 0x100 => s.link.revision + b2n s.link.reversed <<< 2
  | 0x108 => s.link.cap
  | 0x110 => s.link.windowOffset.toNat
  | 0x200 => c.periodNext
  | 0x208 => c.controlNext
  | 0x210 => b2n c.aligned + b2n c.beacons <<< 1 + c.offset <<< 32
  | 0x218 => c.counter % 2 ^ 64
  | 0x220 =>
    let inserted := match c.running with
      | some r => r.inserted.isSome && !c.idle
      | none => false
    s.planCrest % 2 ^ 32 + b2n inserted <<< 32
  | _ => 0

/-- Control block and core map (R146, R399, R544, R605): write-only fields read 0. -/
def State.controlReadout (s : State) (off : Nat) : Nat :=
  if off = 0x400 then s.arrays.current
  else if off = 0x408 then s.arrays.batchWait
  else if off = 0x410 then s.arrays.threshold
  else if 0x440 ≤ off ∧ off < 0x480 then
    let c := (off - 0x440) / 8
    SMap.get 0 s.coreMap.failed c + s.spareIndex c 0 <<< 34 + s.spareIndex c 1 <<< 40
  else if 0x800 ≤ off ∧ off < 0x1000 then
    let n := (off - 0x800) / 8
    let p := s.coreIndex n
    p + (34 * (n / 32) + p) <<< 8
  else 0

/-- Ring block (R607). -/
def State.ringReadout (s : State) (off : Nat) : Nat :=
  if off = 0x1600 then b2n s.power.enable
  else if 0x1540 ≤ off then 0
  else
    let r := s.ring ((off - 0x1000) / 64)
    match off % 64 with
    | 0x00 => r.base.toNat
    | 0x08 => r.size + b2n r.enable <<< 8 + r.holdoff <<< 16
    | 0x10 => r.irqAddr.toNat
    | 0x18 => r.irqData.toNat
    | 0x20 => r.prod + r.cons <<< 32
    | 0x28 => b2n r.halted
    | _ => 0

/-- Power-limit block (R538, R609). -/
def State.powerReadout (s : State) (off : Nat) : Nat :=
  if off = 0x2000 then s.power.supply
  else if off = 0x2008 then s.monitor.input
  else if 0x2100 ≤ off ∧ off < 0x2308 then
    let n := (off - 0x2100) / 8
    let (v, t) := SMap.get (0x8000, 0) s.monitor.readings n
    (if sensorStopped s.power.state n then 0x8000 else v) + t <<< 32
  else 0

/-- Port block (R610). -/
def State.portReadout (s : State) (off : Nat) : Nat :=
  if off = 0x3000 then s.address
  else if off = 0x3008 then s.fabric.resetAuthority
  else if 0x3100 ≤ off ∧ off < 0x3300 then
    let k := s.port ((off - 0x3100) / 16)
    if off % 16 = 0 then b2n (decide (k.state ≠ .disabled)) + k.cap <<< 1
    else k.state.code + k.generation <<< 3 + b2n k.partner2 <<< 5 + k.rtt <<< 16 + k.delay <<< 32
  else 0

/-- Error-log block (R612). -/
def State.errorReadout (s : State) (off : Nat) : Nat :=
  let e := s.err
  match off with
  | 0x4000 => b2n e.illegal + b2n e.losses <<< 1
  | 0x4008 => e.illegalInfo
  | 0x4010 => e.refusal
  | 0x4018 => e.stale + e.holdDrops <<< 32
  | 0x4020 => e.linkWrites + e.linkErrors <<< 32
  | 0x4028 => e.dips + e.overVolts <<< 32
  | 0x4030 => e.eventsLost
  | _ =>
    if 0x4400 ≤ off ∧ off < 0x4C00 then
      let c := SMap.get ⟨0, 0, 0⟩ e.mem ((off - 0x4400) / 8)
      c.corrected + c.uncorrectable <<< 22 + c.unwritten <<< 43
    else if 0x4C00 ≤ off ∧ off < 0x4D00 then
      let p := (off - 0x4C00) / 8
      SMap.get 0 e.retries p + (SMap.get 0 e.crcs p) <<< 32
    else 0

/-- Cairn-mailbox block (R615). -/
def State.mailboxReadout (s : State) (off : Nat) : Nat :=
  let m := s.mailbox
  if off = 0x5000 then m.code
  else if off = 0x5008 then b2n m.busy + m.result <<< 8 + m.count <<< 32
  else if 0x5040 ≤ off ∧ off < 0x5080 then SMap.get 0 m.args ((off - 0x5040) / 8)
  else 0

/-- Eight entries of the crest log (R527, R614). -/
def State.crestLogReadout (s : State) (off : Nat) : Nat := leNat ((List.range 8).map fun i => SMap.get 0 s.crest.log (off - 0x10000 + i))

/-- The 64-bit register at an offset that is a multiple of 8 (R596): reserved offsets read 0. -/
def State.register (s : State) (off : Nat) : Nat :=
  if off < 0x100 then s.identityReadout off
  else if off < 0x300 then s.crestReadout off
  else if off < 0x1000 then s.controlReadout off
  else if off < 0x1700 then s.ringReadout off
  else if off < 0x2400 then s.powerReadout off
  else if off < 0x3300 then s.portReadout off
  else if off < 0x4D00 then s.errorReadout off
  else if off < 0x5100 then s.mailboxReadout off
  else if 0x10000 ≤ off ∧ off < 0x20000 then s.crestLogReadout off
  else 0

/-- A host read of the window (R481, R595, R599): below LINKED the window cannot be reached; in LINKED only the identity, host-link and
mailbox blocks can be read; 4 or 8 bytes aligned to their size. -/
def State.readRegister (s : State) (off width : Nat) : Nat :=
  let open' := off < 0x200 ∨ (0x5000 ≤ off ∧ off < 0x5100)
  if s.power.hot.code < 3 ∨ (s.power.hot = .linked ∧ ¬ open') ∨ 0x20000 ≤ off then 0
  else if width = 8 ∧ off % 8 = 0 then s.register off
  else if width = 4 ∧ off % 4 = 0 then fld (s.register (off / 8 * 8)) (8 * (off % 8)) 32
  else 0

end Sys2Proof.Machine
end

