-- ==== Sys2Proof/Tests/Slice0.lean ====
section
/-! SUPPORT. The author's own tests: ill-formed commands are refused, small behaviours against the spec's words and examples, and for each
statement states and operands that meet its hypotheses. -/

namespace Sys2Proof.Tests

open Sys2Proof.Machine

/-! ### Builders -/

/-- An instruction word: unit, operation code, and values at bit positions (R217). -/
def iw (u o : Nat) (fs : List (Nat × Nat)) : IWord := BitVec.ofNat 128 (u + o <<< 4 + (fs.map fun x => x.1 <<< x.2).sum)

/-- A descriptor's 64 bytes: kind and values at bit positions (R458). -/
def dw (kind : Nat) (fs : List (Nat × Nat)) : Desc := BitVec.ofNat 512 (kind + (fs.map fun x => x.1 <<< x.2).sum)

/-- The reset state in a hot-plug state. -/
def hot (h : HotPlug) : State := { State.reset with power := { State.reset.power with hot := h } }

/-- A core whose registers, rows and slots hold a few written values: s1 = 64, s2 = 3 and lane 0 of v1, v2. -/
def coreA : CoreState := { sregs := [(1, (64, false)), (2, (3, false))], vregs := [(128, (0x3F800000, false)), (256, (0x40000000, false))], vl := 1 }

/-- An instruction memory without errors. -/
def imemA : Memory := { layers := [⟨0, 262144, 0, .clean⟩] }

/-- The reset state with a block of the crest on core 0, whose core state is as given but for a good instruction memory. -/
def on0 (k : CoreState) : State :=
  { State.reset with cores := [(0, { k with imem := imemA })], crest := { State.reset.crest with units := [⟨0, 0⟩] } }

/-- Core 0 as coreA, and as reset leaves its registers. -/
def stA : State := on0 coreA
def st0 : State := on0 {}

/-- What holds of the next state of an outcome; false where there is none. -/
def after (o : Host.Outcome State Fault Refusal) (p : State → Bool) : Bool :=
  match o with
  | .next t => p t
  | _ => false

/-- Whether an outcome is the refusal of an ill-formed command. -/
def ill (o : Host.Outcome State Fault Refusal) : Bool :=
  match o with
  | .refused .illFormed => true
  | _ => false

/-- The status with which a plan load refuses the word of an outcome. -/
def atLoad (o : Host.Outcome State Fault Refusal) : Option Nat :=
  match o with
  | .refused (.refusedAtLoad st) => some st
  | _ => none

/-- A fabric packet of a type, VC and format with a body, its CRCs right (R409, R410). -/
def mkPacket (type vc format : Nat) (body : List Byte) : Packet :=
  let h := 2 <<< 24 + vc <<< 42 + format <<< 44 + type <<< 48 + body.length <<< 56
  let k : Packet := ⟨BitVec.ofNat 256 (h + headerCrc h <<< 240), 0, body, 0⟩
  { k with crc := BitVec.ofNat 32 (crc32 (crcBytes k)) }

/-- The reset state with port 0 ACTIVE. -/
def act0 : State := { State.reset with fabric := { ports := [(0, { state := .active, generation := 3 })] } }

/-! ### Ill-formed commands are refused -/

theorem test_ill_core_words :
    atLoad (exec (.nop 0 (iw 0 1 [])) State.reset) = some stBadKind ∧ atLoad (exec (.sli 0 (iw 0 8 [(1, 28)])) State.reset) = some stBadField ∧
    atLoad (exec (.sli 0 (iw 0 8 [(1, 57)])) State.reset) = some stBadField ∧ atLoad (exec (.sli 0 (iw 0 8 [(1, 37)])) State.reset) = some stBadField ∧
    atLoad (exec (.tsig 0 (iw 0 5 [])) State.reset) = some stBadField ∧
    atLoad (exec (.pass 0 (iw 1 1 [(1, 57), (4095, 68), (1, 80)])) State.reset) = some stOutOfRange ∧
    atLoad (exec (.matvec 29 (iw 1 4 [])) State.reset) = some stBadField := by decide

theorem test_ill_mdie_words :
    ill (exec (.pack 12 0) State.reset) = true ∧ ill (exec (.update 12 6) State.reset) = true ∧ ill (exec (.mdieWaitMet 12) State.reset) = true ∧
    ill (exec (.mdieWordFinish 15) State.reset) = true ∧ atLoad (exec (.pack 0 (BitVec.ofNat 128 15)) State.reset) = some stBadKind ∧
    ill (exec (.mergeEntryRetire 12) State.reset) = true ∧ ill (exec (.stackPoisonDone 12) State.reset) = true ∧
    ill (exec (.stackFault 12 0) State.reset) = true ∧ ill (exec (.stackFault 0 3) State.reset) = true := by decide

theorem test_ill_descriptors : ([.planLoad 0 0, .planUnload 0 0, .step 0 0, .abort 0 0, .realign 0 0, .clipFactor 0 0, .ringAdvance 0 0,
    .shardMap 0 0, .rankTable 0 0, .rankMove 0 0, .paramLoad 0 0, .paramRead 0 0, .copyDescriptor 0 0, .fillDescriptor 0 0, .snapshot 0 0,
    .restore 0 0, .talusLend 0 0, .talusEnd 0 0, .talusBind 0 0, .talusRevoke 0 0, .powerState 0 0, .quiesce 0 0, .hbmRepair 0 0,
    .firmware 0 0, .peerLost 0 0, .descriptorWorkDone 0 2] : List Instr).all (fun i => ill (exec i State.reset) && !i.wf) = true := by decide +kernel

theorem test_ill_packets : ((let k := mkPacket 0 0 0 []
    [.bucketPacket 0 k, .fsendData 0 k, .gatherData 0 k, .ostageData 0 k, .snapshotCopy 0 k, .talusReadRequest 0 k, .talusReadReply 0 k,
    .talusWrite 0 k, .talusRefusal 0 k, .collectiveData 0 k, .beacon 0 k, .barrierArrive 0 k, .barrierRelease 0 k,
    .verdictContribution 0 k, .verdict 0 k, .rankMovePacket 0 k, .identityQuery 0 k, .identityReply 0 k, .resetPacket 0 k,
    .acknowledgement 0 k, .unreachableNotice 0 k] : List Instr)).all (fun i => ill (exec i act0) && !i.wf) = true := by decide +kernel

theorem test_ill_numbers : ([.irqHoldoffExpiry 15, .irqHoldoffExpiry 21, .meshLinkFailure 0 2, .partnerDetected 0 1, .linkTrained 0 false,
    .resetDone 25, .trip true 49 0, .sensorSample 68 0, .ringEnable 21 0, .ringDisable 21 0, .getReport 2, .accept 1, .getCerts 1,
    .getStatus 1, .stageImage 1, .commitVersion 1, .setBootSlot 1, .revokeKey 1, .unknownMailboxCommand 8] : List Instr).all
    (fun i => ill (exec i State.reset) && !i.wf) = true := by decide

theorem test_ill_messages : ([.setEndpointId [0, 0x80, 2], .getEndpointId [0, 0x80, 1], .getMctpVersionSupport [0, 0x80, 5],
    .getMessageTypeSupport [0, 0x80], .getVendorDefinedMessageSupport [0, 0, 6], .unsupportedControlCommand [0, 0x80, 1],
    .unsupportedControlCommand [0x7F, 0, 1, 0xB7, 0xC3, 8, 0], .getState [0x7F, 0, 1, 0xB7, 0xC3, 2, 0], .powerEnable [0x7F],
    .powerDisable [0x7E, 0, 1, 0xB7, 0xC3, 3, 0], .readFru [], .readSensors [0], .readInput [0], .readTrip [0], .clearTrip [0]] : List Instr).all
    (fun i => ill (exec i State.reset) && !i.wf) = true := by decide

theorem test_wf_takes : ([.nop 0 0, .loop 0 (iw 0 3 [(1, 57), (1, 73)]), .matvec 30 (iw 1 4 [(1, 57), (1, 61)]), .pack 11 1, .irqHoldoffExpiry 16,
    .irqHoldoffExpiry 20, .step 0 3, .peerLost 15 0x19, .bucketPacket 31 (mkPacket 0x10 1 0 []), .meshLinkFailure 24 21, .resetDone 24,
    .trip true 48 0, .trip false 255 0, .sensorSample 67 0, .ringEnable 20 0, .unknownMailboxCommand 9, .setEndpointId [0, 0x80, 1],
    .unsupportedControlCommand [0, 0x80, 3], .unsupportedControlCommand [0x7F, 0, 0, 0, 0, 9, 0], .clearTrip [0x7F, 0, 0, 0, 0, 8, 0],
    .descriptorWorkDone 0 0x18] : List Instr).all (fun i => i.wf && !ill (exec i State.reset)) = true := by decide +kernel

/-! ### Small behaviours, expected values from the spec -/

/-- R228: SLI writes the immediate, unstained; other registers stay as reset leaves them. -/
theorem test_sli : after (exec (.sli 0 (iw 0 8 [(3, 32), (5, 64)])) st0)
    (fun t => (t.core 0).sval 3 == 5 && !(t.core 0).sstain 3 && (t.core 0).sstain 2) = true := by decide

/-- R232: a signed immediate of −1 added to 64. -/
theorem test_salu_add_immediate : after (exec (.salu 0 (iw 0 9 [(4, 32), (1, 37), (1, 61), (0xFFFFFFFF, 64)])) stA)
    (fun t => (t.core 0).sval 4 == 63 && !(t.core 0).sstain 4) = true := by decide

/-- R221, R222: an SLD whose offset is not a multiple of 8 is refused with MISALIGNED, and marks the next step's contribution. -/
theorem test_sld_misaligned : after (exec (.sld 0 (iw 0 0xA [(4, 32), (1, 37), (4, 64)])) stA)
    (fun t => t.err.refusal % 2 ^ 16 == 0x0400 && bit t.err.refusal 30 && t.store.heldStain && (t.core 0).sstain 4) = true := by decide

/-- R226: a TWAIT on a token below its threshold holds; TSIG saturates at 65,535. -/
theorem test_twait_holds : after (exec (.twait 0 (iw 0 4 [(7, 57), (2, 63)])) st0)
    (fun t => (t.core 0).hold == some (.token 7 2)) = true := by decide
theorem test_tsig_saturates :
    after (exec (.tsig 0 (iw 0 5 [(7, 57), (1, 63), (0xFFFF, 71)])) { st0 with cores := st0.cores ++ [(1, { tokens := [(7, 9)] })] })
      (fun t => (t.core 1).token 7 == 65535) = true := by decide

/-- R233: a body of one instruction runs count times: s1 + 3 × s2. -/
theorem test_loop_runs_three_times :
    after (exec (.loop 0 (iw 0 3 [(3, 57), (1, 73)])) stA) (fun t =>
      after (exec (.salu 0 (iw 0 9 [(1, 32), (1, 37), (2, 42)])) t) (fun u => (u.core 0).sval 1 == 73 && (u.core 0).loops.isEmpty)) = true := by
  decide

/-- R188: binary32 1.0 + 2.0 = 3.0 in lane 0, a stained lane nowhere read. -/
theorem test_vop_add : after (exec (.vop 0 (iw 3 0 [(5, 32), (1, 37), (2, 42), (1, 57)])) stA)
    (fun t => (t.core 0).lane 5 0 == 0x40400000 && !(t.core 0).laneStain 5 0 && (t.core 0).laneStain 5 1) = true := by decide

/-- R232: arithmetic shift right of −8 by 1 is −4. -/
theorem test_salu_arithmetic_shift : salu 8 (2 ^ 64 - 8) 65 = 2 ^ 64 - 4 := by decide

/-- The example under R369: the folded gradient is 3.5 whatever the order of arrival, with the rank-ordered leaves of the example. -/
theorem test_fold_example :
    let ls : List (List (Nat × Bool)) := [[(0x4B800000, false)], [(0x3F800000, false)], [(0x40400000, false)], [(0xCB800000, false)], [(0x3F000000, false)]]
    ([3, 0, 4, 2, 1].foldl (fun f i => (f.join 5 40 0 i (ls.getD i []) 0).1) (⟨0, 0, [], [], none, 0, 0⟩ : Fold)).root = some [(0x40600000, false)] := by
  decide +kernel

/-- The example under R116: margin 1, a history maximum of 2.4 × 10⁻³ and pending 5.1 × 10⁻³ give k = 22. -/
theorem test_ledger_example :
    ((⟨List.replicate 16 0x3B1D4952, 0x3BA71DE7, false, 23, 23, 0, 1, true, false, 0, 0⟩ : ScaleEntry).commit 40000 false).kEven = 22 := by decide +kernel

/-- The example under R93: a block of MXFP4 E2M1 with its scale code 0x80. -/
theorem test_mx_row :
    (let vs := ([0x41500000, 0x3E4CCCCD, 0xBE99999A, 0x40200000, 0x40E00000] ++ List.replicate 27 0x3F800000).map fun c => (f32 c, false)
     (mxRow 9 vs).1 = [(0x80, false)] ∧ (mxBytes 9 (mxRow 9 vs).2).map Prod.fst = [0x07, 0x28, 0x16] ++ List.replicate 13 0x11) := by decide +kernel

/-- R41: block 13 of the interleaved view lies in stack 1 at offset 4,096. -/
theorem test_interleave : canon (13 * 4096 + 5) = 0x010000000000 + 2 ^ 36 + 4096 + 5 := by decide

/-- R407: an acknowledged packet is answered with an acknowledgement packet. -/
theorem test_ack : ((State.reset.onFirst (mkPacket 0x25 0 0 (List.replicate 32 0)) id).sent.map Packet.type) = [0x29] := by decide +kernel

/-- R477. -/
theorem test_input_power_loss : after (exec .inputPowerLoss (hot .ready)) (fun t => t.power.hot == .present) = true := by decide

/-- R607, R608: a ring's enable takes size 6 and zeroes the indices. -/
theorem test_ring_enable : after (exec (.ringEnable 0 (BitVec.ofNat 64 0x106)) (hot .attested))
    (fun t => (t.ring 0).enable && (t.ring 0).size == 6 && (t.ring 0).prod == 0) = true := by decide

/-- R51, R604: 1,999 ns is refused with cause 2 at offset 0x200. -/
theorem test_crest_period_low : after (exec (.crestPeriod 1999) (hot .ready))
    (fun t => t.err.illegal && t.err.illegalInfo == 0x200 + 2 <<< 18 && t.crest.periodNext == 8000) = true := by decide

/-- R591: GET_STATE in READY answers 5, power READY (1), no trip, slot 0. -/
theorem test_get_state :
    let s := { hot .ready with side := { (hot .ready).side with endpoint := 9 } }
    after (exec (.getState [0x7F, 0, 1, 0xB7, 0xC3, 1, 0]) s)
      (fun t => t.side.response == some [0x7F, 0, 1, 0xB7, 0xC3, 1, 0, 5, 1, 0, 0]) = true := by decide

/-- R525: an over-voltage is one above 72 V. -/
theorem test_over_voltage : after (exec (.overVoltage 7201) (hot .ready)) (fun t => t.err.overVolts == 1) = true ∧
    after (exec (.overVoltage 7200) (hot .ready)) (fun t => t.err.overVolts == 0) = true := by decide

/-- The queue: the front command runs, the rest waits; an empty queue idles. -/
theorem test_step_front : after (step { stA with pending := [.sli 0 (iw 0 8 [(3, 32), (5, 64)]), .beaconLoss] })
    (fun t => (t.core 0).sval 3 == 5 && t.pending == [.beaconLoss]) = true := by decide
theorem test_step_idles : step State.reset = .next State.reset := by rfl

/-- The kernel evaluates the sequencer's bound on iterations. -/
theorem test_drain_evaluates : (State.drain drainFuel 0 State.reset).cores = [] := by rfl

/-! ### The hypotheses of the statements are met -/

/-- A word of SST of s2 at s1, of SLD into s4, of PASS-free units: the instructions of the witnesses on stA, each at its own word. -/
def wSst : IWord := iw 0 0xB [(2, 32), (1, 37)]
def wSld : IWord := iw 0 0xA [(4, 32), (1, 37)]
def wVop : IWord := iw 3 0 [(5, 32), (1, 37), (2, 42), (1, 57)]

/-- An operation of a unit that reads resource 1 and writes resource 5, and an M-die's word. -/
def pend (u : Nat) (stuck : Bool) : Pend := { unit := u, reads := [1], writes := [5], chain := false, queued := false, word := 0, stuck := stuck }
def mw (o : MOp) (w : Nat) : MWord := { op := o, word := w }

/-- One small step in flight, and one small plan of one bucket and one software-class group. -/
def stepA : StepRec := { number := 5, desc := ⟨0, 0, 3, 0, 3⟩, lam := 0, prime := false, area := 0 }
def bucketA : Bucket := ⟨1, 0, 0, 1, 0, [0], [], 0⟩
def planA : Plan := { seed := 0, digest := 0, work := ⟨8000, 1, 0, false, [], [], [], [], [], [], [], [], 0, 0⟩, acts := [], buckets := [bucketA],
                      groups := [⟨0, true, false, 0, 0, false, []⟩], scales := [], apertures := [], sends := [], named := [], fetches := [] }

/-- A module READY with planA and stepA in flight, whose fold is complete. -/
def stP : State := { hot .ready with plan := some planA, steps := [stepA], folds := [⟨1, 5, [], [], some [(0, false)], 0, 0⟩] }

theorem wit_queue : ({ State.reset with pending := [.beaconLoss] } : State).pending = .beaconLoss :: [] ∧ State.reset.pending = [] := by decide

theorem wit_canonical : stA.canonical = true ∧ (match step { stA with pending := [.sst 0 wSst] } with | .next t => t.mem.cells.length | _ => 0) = 1 := by
  decide

theorem wit_refused_at_load : wordStatus .sli (iw 0 8 [(1, 28)]).toNat = some stBadField ∧ mwordStatus .pack 15 = some stBadKind := by decide

/-- CoreInstructionsPerform, ScalarInstructions…, StoreWritesEightBytes, VectorLanes, TclrClearsItsTile, TsigAddsAndSaturates. -/
theorem wit_core : ([(.sli, iw 0 8 [(3, 32), (5, 64)]), (.salu, iw 0 9 [(4, 32), (1, 37), (2, 42)]), (.sld, wSld), (.sst, wSst), (.sid, iw 0 0xC [(4, 32)]),
    (.sflag, iw 0 0xD [(4, 32)]), (.tsig, iw 0 5 [(63, 57), (255, 63), (1, 71)]), (.vop, wVop), (.tclr, iw 2 0 [(31, 57)]), (.nop, 0),
    (.cbegin, iw 0 1 [])] : List (CoreOp × IWord)).all (fun x => wordStatus x.1 x.2.toNat == none && stA.takes 0 ⟨x.1, x.2.toNat⟩ &&
      stA.unheld 0 ⟨x.1, x.2.toNat⟩ && !stA.heldUp x.1 (stA.issueOf 0 ⟨x.1, x.2.toNat⟩) && checkIssue x.1 (stA.issueOf 0 ⟨x.1, x.2.toNat⟩) stA == none) = true ∧
    (stA.core 0).waiting = [] ∧ (stA.core 0).loops = [] ∧ SMap.wf CoreState.init stA.cores = true ∧ SMap.wf (0, true) (stA.core 0).sregs = true ∧
    SMap.wf (0, true) (stA.core 0).vregs = true ∧ stA.mem.wf = true ∧ (stA.core 0).vl ≤ 128 ∧ Word.sig (iw 0 5 [(63, 57), (255, 63), (1, 71)]).toNat = false := by
  decide +kernel

theorem wit_tokens (k : CoreState) (h : SMap.wf 0 k.tokens = true) (d : Nat) : SMap.wf 0 ((on0 k).core d).tokens = true := by
  simp only [on0, State.core, SMap.get]
  split
  · exact h
  · rfl
theorem wit_tokens_st0 : ∀ d, SMap.wf 0 (st0.core d).tokens = true := wit_tokens {} rfl
theorem wit_tokens_stA : ∀ d, SMap.wf 0 (stA.core d).tokens = true := wit_tokens coreA rfl

/-- RefusedInstructionWritesNothing: an SLD with a stained base. StepSelectRetires: a word of the step before with no such step. -/
theorem wit_refused_and_retires :
    st0.takes 0 ⟨.sld, wSld.toNat⟩ = true ∧ st0.unheld 0 ⟨.sld, wSld.toNat⟩ = true ∧
    checkIssue .sld (st0.issueOf 0 ⟨.sld, wSld.toNat⟩) st0 = some byStain ∧
    st0.retires (st0.issueOf 0 ⟨.sli, (iw 0 8 [(1, 25)]).toNat⟩) = true ∧
    st0.stopped (st0.issueOf 0 ⟨.sli, (iw 0 8 [(1, 25)]).toNat⟩).step = false ∧ st0.sigHeld 0 (iw 0 8 [(1, 25)]).toNat = false ∧
    wordStatus .sli (iw 0 8 [(1, 25)]).toNat = none ∧ st0.clocked = true ∧ st0.fetchStained 0 = false ∧
    st0.blockless 0 = false ∧ stP.blockless 0 = true ∧ (st0.core 0).hold = none ∧ (st0.core 0).waiting = [] ∧ CoreOp.sli.frame = false ∧ ({ State.reset with power := { state := .rest } } : State).clocked = false := by decide

/-- TokenWaits: met, not met, and a core that holds. -/
theorem wit_tokens_wait :
    wordStatus .twait (iw 0 4 [(7, 57), (2, 63)]).toNat = none ∧ wordStatus .frecv (iw 7 1 [(7, 57), (2, 63)]).toNat = none ∧
    (∀ n, n ∈ [1, 2] → SMap.wf 0 [(7, n)] = true) ∧
    waitCount (iw 0 4 [(7, 57), (2, 63)]).toNat ≤ ((on0 { tokens := [(7, 2)] }).core 0).token 7 ∧
    (st0.core 0).token 7 < waitCount (iw 0 4 [(7, 57), (2, 63)]).toNat ∧
    st0.takes 0 ⟨.frecv, (iw 7 1 [(7, 57), (2, 63)]).toNat⟩ = true ∧
    (st0.core 0).waitParity ⟨.frecv, (iw 7 1 [(7, 57), (2, 63)]).toNat⟩ = false ∧
    st0.interlocked .frecv (st0.issueOf 0 ⟨.frecv, (iw 7 1 [(7, 57), (2, 63)]).toNat⟩) = false ∧
    ((on0 { hold := some (.token 7 2) }).core 0).hold = some (.token 7 2) := by decide

/-- LoopsRunTheirBody. -/
theorem wit_loop : wordStatus .loop (iw 0 3 [(3, 57), (1, 73)]).toNat = none ∧ st0.takes 0 ⟨.loop, (iw 0 3 [(3, 57), (1, 73)]).toNat⟩ = true ∧
    st0.interlocked .loop (st0.issueOf 0 ⟨.loop, (iw 0 3 [(3, 57), (1, 73)]).toNat⟩) = false ∧
    closeLoops 4 [⟨2, 4, 2, []⟩] = ([⟨2, 4, 1, []⟩], [], 2) ∧ closeLoops 4 [⟨2, 4, 1, []⟩] = ([], [], 5) ∧ closeLoops 3 [⟨2, 4, 1, []⟩] = ([⟨2, 4, 1, []⟩], [], 4) := by
  decide

/-- CoreEventRows: an operation begun, a packet that it sends unsent, a held interlock that is free, a block to finish with and without
operations. -/
theorem wit_core_events :
    (takeOp 3 [pend 3 false]).isSome = true ∧ takeOp 3 [pend 2 false] = none ∧ takeOp 3 [pend 3 true] = none ∧
    st0.unsent (pend 3 false).sends = false ∧ st0.sigHeld 0 (pend 3 false).word = false ∧
    ({ st0 with fabric := { waits := [⟨0, mkPacket 1 2 0 []⟩] } } : State).unsent (0, 1) = true ∧
    ((on0 { hold := some .interlock, waiting := [⟨.nop, 0⟩], fetched := true }).interlockFree 0) = true ∧ st0.interlockFree 0 = false ∧
    (let x : State := on0 {}
     x.takes 0 ⟨.nop, 0⟩ = true ∧ x.unheld 0 ⟨.nop, 0⟩ = true ∧ checkIssue .nop (x.issueOf 0 ⟨.nop, 0⟩) x = none) ∧
    wordStatus .cend (iw 0 2 []).toNat = none ∧ st0.takes 0 ⟨.cend, 32⟩ = true ∧ Word.sig (iw 0 2 []).toNat = false ∧
    st0.interlocked .cend (st0.issueOf 0 ⟨.cend, 32⟩) = false ∧ (st0.core 0).ops = [] ∧ (st0.core 0).batch = [] ∧ (st0.core 0).hold ≠ some .flags ∧
    SMap.wf CoreState.init ((st0.issueBatch 0).onCore 0 CoreState.unqueue).cores = true ∧ SMap.wf CoreState.init st0.cores = true ∧
    SMap.wf CoreState.init (on0 { hold := some .block, waiting := [⟨.cend, 32⟩] }).cores = true ∧
    SMap.wf CoreState.init (on0 { hold := some .block, waiting := [⟨.cend, 32⟩], ops := [pend 3 false] }).cores = true ∧
    ((on0 { hold := some .block, waiting := [⟨.cend, 32⟩] }).core 0).hold = some .block := by
  decide +kernel

theorem wit_binary32 : (f32 0x80000000).isNaN = false ∧ (f32 0xFFC00000).isNaN = true := by decide

/-- stP in plan crest 0 of the step, its stacks swept. -/
def stQ : State := { stP with crest := { stP.crest with running := some ⟨5, 0, none, false⟩ }, power := { stP.power with poisoning := [] } }

/-- MdieWordsRun: words that run, that wait, that wait behind another, that the mesh holds, and one whose bucket table is uncorrectable. -/
theorem wit_mdie_words :
    stQ.diesActive = true ∧ mwordStatus .vcontrib 7 = none ∧ (stQ.mdie 0).busy = none ∧ stQ.mRetires (mw .vcontrib 7) = false ∧
    stQ.mWaits 0 (mw .vcontrib 7) = false ∧ stQ.mHeldUp 0 (mw .vcontrib 7) = false ∧ SMap.wf MDie.init stQ.mdies = true ∧ stQ.tables = [] ∧
    stQ.mWaits 0 (mw .update (6 + 1 <<< 4)) = true ∧ mwordStatus .update (6 + 1 <<< 4) = none ∧
    State.mWaits { stQ with folds := [] } 0 (mw .fwait (5 + 1 <<< 4)) = true ∧ mwordStatus .fwait (5 + 1 <<< 4) = none ∧
    (({ stQ with mdies := [(0, { busy := some (mw .pack 1), held := false })] } : State).mdie 0).busy = some (mw .pack 1) ∧ stQ.mWaits 0 (mw .pack 1) = false ∧
    ({ stQ with power := { stQ.power with state := .rest } } : State).diesActive = false ∧
    ({ stQ with tables := [⟨.bucket 1, 0, 0, .uncorrectable⟩] } : State).tableBad (stQ.wordTables 0 (mw .update (6 + 1 <<< 4))) = true := by decide +kernel

/-- UPDATE of the plan's bucket in flight, its software-class factor given. -/
theorem wit_mdie_update : (let s : State := { stQ with steps := [{ stepA with clips := [⟨0, one32⟩] }] }
    s.mWaits 0 (mw .update (6 + 1 <<< 4)) = false ∧ (s.wordBucket 0 (mw .update (6 + 1 <<< 4))).isSome = true ∧ s.inFlight (s.mStep (mw .update (6 + 1 <<< 4))) = true ∧
    s.mHeldUp 0 (mw .update (6 + 1 <<< 4)) = false ∧ s.mRetires (mw .update (6 + 1 <<< 4)) = false) := by decide +kernel

/-- A VCONTRIB that its M-die's L-die cannot be reached for, and one that finishes before the contribution is complete. -/
theorem wit_mdie_mesh :
    State.mHeldUp { stQ with partitioned := true, meshDown := [link 8 20, link 8 9] } 0 (mw .vcontrib 7) = true ∧
    stQ.step? (stQ.mStep (mw .vcontrib 7)) = some stepA ∧ stepA.flying = true ∧ stepA.first.handed = false ∧ stepA.first.done.contains 0 = false ∧
    stepA.first.done.length < 11 ∧ (stQ.talus.reads.any fun r => r.mdie == 0) = false ∧
    State.mUnfinished { stQ with mdies := [(0, { busy := some (mw .vcontrib 7) })] } 0 = false ∧
    State.mUnfinished { stQ with mdies := [(0, { busy := some (mw .vcontrib 7), held := true })] } 0 = true := by decide +kernel

/-- CrestBoundaryCases and IdleBoundaryCountsAndApplies. -/
theorem wit_crest :
    State.reset.lateUnit = none ∧ ({ State.reset with crest := { units := [⟨0, 3⟩] } } : State).lateUnit = some ⟨0, 3, 0⟩ ∧
    ({ State.reset with crest := { units := [⟨0, 3⟩], deferred := some ⟨0, 3, 0⟩ } } : State).crest.deferred = some ⟨0, 3, 0⟩ ∧
    ({ State.reset with crest := { waiting := some 9 } } : State).crest.waiting = some 9 ∧ State.reset.plan = none ∧ State.reset.steps = [] ∧
    bit State.reset.crest.controlNext 1 = false ∧ State.reset.snaps.runs = [] ∧ State.reset.err.told21 = [] ∧ State.reset.err.told22 = [] ∧
    ({ State.reset with crest := { deferred := some ⟨0, 3, 0⟩ } } : State).lateUnit = none := by decide +kernel

/-- StepCompletionRow: each status. -/
theorem wit_step_completion :
    (([{ stepA with peerLost := true, phase := .ended stAborted }] : List StepRec).find? fun r => r.number == 5 && r.due).isSome = true ∧
    ({ stepA with phase := .committed, gathered := true } : StepRec).due = true ∧ stepA.due = false ∧
    StepRec.voidCauses { stepA with phase := .committed, prime := true } ≠ 0 ∧ StepRec.voidCauses { stepA with phase := .committed } = 0 := by decide

theorem wit_norm_partial :
    stP.step? 5 = some stepA ∧ stP.group? 0 = some ⟨0, true, false, 0, 0, false, []⟩ ∧ stepA.flying = true ∧ stP.predecessorOpen 5 = false ∧
    stP.groupFolded 0 5 = true ∧ stepA.partials.contains 0 = false ∧
    ({ stP with folds := [⟨1, 5, [], [], some [(0, true)], 0, 0⟩] } : State).normPartial 0 5 = (⟨0, 0⟩, true) ∧ (stP.normPartial 0 5).2 = false ∧
    stP.step? 6 = none ∧ stP.group? 1 = none ∧ stP.tableBad (stP.partialTables 0) = false ∧
    ({ stP with tables := [⟨.group 0, 0, 0, .uncorrectable⟩] } : State).tableBad (stP.partialTables 0) = true := by decide +kernel

/-- Doorbells and fetches: rings 0, 16 and 20 in use in READY, an index that is valid and one that is not. -/
def stR : State := { hot .ready with rings := [(0, { enable := true, base := 0x10000 }), (16, { enable := true, base := 0x20000 }), (20, { enable := true, base := 0x30000 })] }

theorem wit_doorbells :
    SMap.wf Ring.init stR.rings = true ∧ State.reset.linkUp = false ∧ stR.linkUp = true ∧ (stR.ring 1).enable = false ∧
    badIndexOf (stR.ring 0) 0 65 = true ∧ badIndexOf (stR.ring 0) 0 64 = false ∧ badIndexOf (stR.ring 16) 16 0 = false ∧
    badIndexOf (stR.ring 16) 16 1 = true ∧ stR.waits = [] ∧ (hot .attested).power.hot ≠ .ready := by decide

/-- A descriptor of ABORT in host memory at the base of ring 0. -/
def stF : State := { stR with rings := SMap.set Ring.init stR.rings 0 { enable := true, base := 0x10000, prod := 1 }, link := { bytes := [(0x10000, 4)] } }

theorem wit_fetch : stF.dueRing = some 0 ∧ (stF.nextHeader 0).2 = false ∧ fld (stF.nextHeader 0).1 0 8 = 4 ∧ (stF.ring 16).enable = true ∧ legalKind 4 = true ∧
    (∀ x ∈ stF.fetched, legalKind x.kind = true) ∧
    ({ stF with link := { errors := [(0x10000, 0x10040)] } } : State).dueRing = some 0 ∧
    (({ stF with link := { errors := [(0x10000, 0x10040)] } } : State).nextHeader 0).2 = true ∧ stR.dueRing ≠ some 0 ∧
    (let s : State := { stF with rings := SMap.set Ring.init stF.rings 16 Ring.init }
     s.dueRing = some 0 ∧ (s.ring 16).enable = false) := by decide +kernel

theorem wit_host_read : (0 : Word).toNat + 2 ≤ 2 ^ 64 ∧ (State.reset.link.bytes.Pairwise fun x y => x.1 < y.1) ∧ stR.linkUp = true := by decide

theorem wit_holdoff :
    SMap.wf Ring.init [(16, ({ holding := true } : Ring))] = true ∧ SMap.wf Ring.init [(20, ({ holding := true, due := true, holdoff := 5 } : Ring))] = true ∧
    (stR.ring 16).irqAddr.toNat + 4 ≤ 2 ^ 64 ∧ stR.power.hot ≠ .released := by decide

/-- DescriptorRefused and DescriptorPerformed: ABORT without a plan, with one, behind a fence, and not fetched. -/
def refA : DescRef := ⟨0, 0, 4, 0, 4⟩
theorem wit_descriptors :
    descriptorRow 0 (dw 4 []) = some (.abort 0 (dw 4 [])) ∧
    ((({ stR with fetched := [refA] } : State).fetched.find? fun y => y.ring == 0 && y.bits == (dw 4 []).toNat) = some refA) ∧
    ({ stR with fetched := [refA] } : State).fenced refA = false ∧
    firstOf ((reservedSet 4 4, stBadField) :: descriptorChecks 4 { stR with fetched := [refA] } refA) = some stNoPlan ∧
    firstOf ((reservedSet 4 4, stBadField) :: descriptorChecks 4 { stP with fetched := [refA] } refA) = none ∧
    ({ stR with descs := [refA] } : State).fenced { refA with bits := 0x104 } = true ∧ stR.fetched = [] ∧
    stR.checkHeld refA = false ∧ stR.checkHeld ⟨0, 0, 7, 0, 7⟩ = true ∧ stP.descHeld refA = false ∧
    ({ stR with power := { stR.power with resetting := [3] } } : State).descHeld ⟨0, 0, 1, 0, 1⟩ = true := by decide +kernel

/-- A PLAN_LOAD that passes its checks and whose image is refused. -/
theorem wit_plan_load : (let s : State := { stR with fabric := {}, link := { errors := [(0, 64)] } }
    let x : DescRef := ⟨0, 0, 1, 0, 1 + 64 <<< 128⟩
    firstOf ((reservedSet 1 x.bits, stBadField) :: checkPlanLoad s x) = none ∧ s.descHeld x = false ∧
    (match s.checkImage (x.f 64 64) (x.f 128 32) (x.f 192 64) with | .error e => e.status == stOutOfRange | .ok _ => false) = true) := by decide +kernel

theorem wit_timed : timedKinds.contains 0x0E = true ∧ 0x0C ∈ timedKinds ∧
    (([⟨1, 0, 0x0E, 0, 0⟩] : List DescRef).find? fun d => d.ring == 1 && d.kind == 0x0E) = some ⟨1, 0, 0x0E, 0, 0⟩ ∧
    ({ stR with power := { stR.power with poisoning := [] } } : State).workWaits ⟨1, 0, 0x0E, 0, 0x0E + 4096 <<< 128⟩ = false ∧
    stR.workWaits ⟨1, 0, 0x0E, 0, 0x0E + 4096 <<< 128⟩ = true := by decide +kernel

/-- A PARAM_LOAD that waits, and one that does not. -/
theorem wit_held_kinds : heldKinds.contains 0x0B = true ∧ stR.toWork ⟨1, 0, 0x0B, 0, 0x0B⟩ = true ∧
    (([⟨1, 0, 0x0B, 0, 0x0B⟩] : List DescRef).find? fun d => d.ring == 1 && d.kind == 0x0B && stR.toWork d) = some ⟨1, 0, 0x0B, 0, 0x0B⟩ ∧
    ({ stR with power := { stR.power with resetting := [24] } } : State).workWaits ⟨1, 0, 0x0B, 0, 0x0B⟩ = true ∧
    stR.workWaits ⟨1, 0, 0x0B, 0, 0x0B + 5 <<< 80⟩ = false := by decide +kernel

theorem wit_timed_kinds : ∀ k ∈ [0x0C, 0x0D, 0x0E, 0x17], timedKinds.contains k = true ∧ k ≠ 0x0F ∧ k ≠ 0x18 := by decide

theorem wit_fill : stR.mem.wf = true ∧ fld (dw 0x0E [(4096, 64), (8192, 128)]).toNat 64 48 % 4096 = 0 ∧
    stR.reachable (fld (dw 0x0E [(4096, 64), (8192, 128)]).toNat 64 48) (fld (dw 0x0E [(4096, 64), (8192, 128)]).toNat 128 48) = true := by decide +kernel

theorem wit_views : (0 : Nat) < stackView ∧ 12 * State.reset.code.stackBytes - 1 < stackView := by decide

/-- Packets: dropped, received clean and with a failed body, of acknowledged types, seen before, read from a buffer with an error. -/
theorem wit_packets :
    packetRow 0 (mkPacket 0x10 1 0 []) = some (.bucketPacket 0 (mkPacket 0x10 1 0 [])) ∧ (act0.port 0).state = .active ∧ (act0.port 1).state ≠ .active ∧
    (∀ k, k = { mkPacket 0x10 1 0 [] with header := 0 } → (act0.arriving 0 k).2 = none) ∧
    (∀ k, k = mkPacket 0x10 1 0 [] → (act0.arriving 0 k).2 = some (k, false)) ∧
    (∀ k, k = { mkPacket 0x10 1 0 [] with crc := 0 } → (act0.arriving 0 k).2 = some (k, true)) ∧
    SMap.wf Port.init act0.fabric.ports = true ∧ (act0.port 0).marks = [] ∧
    act0.fabric.blocked.length < ({ act0 with fabric := { act0.fabric with blocked := [⟨0, mkPacket 3 2 0 [], false, none, []⟩] } } : State).fabric.blocked.length ∧
    (∀ k, k = mkPacket 0x25 0 0 (List.replicate 32 0) → packetRow 0 k = some (.rankMovePacket 0 k) ∧ k.type = 0x25 ∧
      (act0.arriving 0 k).2 = some (k, false)) := by
  refine ⟨by decide +kernel, by decide +kernel, by decide +kernel, ?_, ?_, ?_, by decide +kernel, by decide +kernel, by decide +kernel, ?_⟩ <;>
    (rintro k rfl; decide +kernel)

theorem wit_seen : State.reset.fabric.seen.contains (2, 0) = false ∧
    ({ State.reset with fabric := { seen := [(2, 0)] } } : State).fabric.seen.contains ((mkPacket 0x25 0 0 (List.replicate 32 0)).source, bodyNum (mkPacket 0x25 0 0 (List.replicate 32 0)) 0 4) = true ∧
    ({ act0 with fabric := { act0.fabric with resetAuthority := 2 + 1 <<< 18 } } : State).fromAuthority (mkPacket 0x28 0 0 []) = true := by
  decide +kernel

theorem wit_fabric_writes : (decide (8 < stackView) && State.reset.reachable 8 8) = true ∧ (decide (stackView < stackView) && State.reset.reachable stackView 8) = false ∧
    (mkPacket 1 2 0 []).signal = false ∧ State.reset.fabricHeld 0 8 8 = true ∧ stQ.fabricHeld 0 8 8 = false ∧ stQ.reachable 8 8 = true := by decide +kernel

theorem wit_held :
    (State.reset.fabric.held.find? fun h => h.ldie == 0 && State.reset.checkStep h.packet != .held) = none ∧
    (let s : State := { stP with fabric := { held := [⟨0, false, mkPacket 0x11 1 0 [], []⟩] } }
     (s.fabric.held.find? fun h => h.ldie == 0 && s.checkStep h.packet != .held) = some ⟨0, false, mkPacket 0x11 1 0 [], []⟩) ∧
    (State.reset.fabric.unacked.find? fun u => u.seq == 0) = none ∧
    (stP.readHeld ⟨0, false, mkPacket 0x11 1 0 [1], [(3, .uncorrectable)]⟩).2 = none ∧ preludeBytes (mkPacket 0x11 1 0 [1]) = 80 ∧
    (stP.readHeld ⟨0, false, mkPacket 0x11 1 0 [1], [(10, .uncorrectable)]⟩).2.isSome = true := by decide +kernel

def stM : State := { State.reset with fabric := { ranks := [[(3, 7 + 1 <<< 18)], [], [], []], unacked := [⟨9, 7, 15, mkPacket 0x25 0 0 []⟩] } }
theorem wit_resend : (stM.fabric.unacked.find? fun u => u.seq == 9).isSome = true ∧
    (stM.members.filter fun e => rankAddress e.2 == 7).any (fun e => !rankLost e.2) = true ∧ stM.diesActive = true ∧
    (mkPacket 0x25 0 0 []).format ≠ 1 ∧ ({ stM with power := { state := .dormant } } : State).diesActive = false := by decide +kernel

/-- Frames: a bad one, one in sequence, one out of sequence. -/
def goodFrame (seq : Nat) : BitVec 2048 := BitVec.ofNat 2048 (seq + 3 <<< 16 + crc32c (leBytes 252 (seq + 3 <<< 16)) <<< 2016)
set_option maxRecDepth 100000 in
theorem wit_frames : badFrame (goodFrame 0).toNat = false ∧ frameSeq (goodFrame 0).toNat = (act0.port 0).rxSeq ∧ badFrame (goodFrame 5).toNat = false ∧
    frameSeq (goodFrame 5).toNat ≠ (act0.port 0).rxSeq ∧ badFrame 0 = true ∧ SMap.wf Port.init act0.fabric.ports = true ∧ SMap.wf 0 act0.err.retries = true ∧ act0.fabric.waits = [] ∧
    fld (frameLink (goodFrame 0).toNat) 0 2 = 3 := by
  decide +kernel

/-- The link words of the three kinds, a port that has sent a frame, and packets that find a port, room or none. -/
theorem wit_links : fld 0x100 0 2 = 0 ∧ fld 0x101 0 2 = 1 ∧ fld 0x102 0 2 = 2 ∧
    (∃ pre b post, ([(64, []), (65, [])] : List (Nat × List Byte)) = pre ++ (fld 0x101 2 14, b) :: post ∧ ∀ x ∈ pre, x.1 ≠ fld 0x101 2 14) ∧
    (16 ≤ ({ fails := 15, retrying := true } : Port).fails + b2n true) ∧ act0.portOf ⟨0, mkPacket 0x25 0 0 []⟩ = some 0 ∧ act0.mustWait ⟨0, mkPacket 0x25 0 0 []⟩ 0 = false ∧ act0.collectives = [] ∧
    creditsFit ((act0.port 0).inUse.modify 0 fun n => n + packetCredits (mkPacket 0x25 0 0 [])) = true ∧
    creditsFit (([448, 32, 32] : List Nat).modify 0 fun n => n + packetCredits (mkPacket 0x25 0 0 [])) = false ∧
    pooled [16, 0, 0] < pooled (([16, 0, 0] : List Nat).modify 0 fun n => n + packetCredits (mkPacket 0x25 0 0 [])) ∧
    (let s : State := { act0 with fabric := { act0.fabric with waits := [⟨0, mkPacket 0x25 0 0 []⟩] } }
     (s.fabric.waits.any fun y => y.packet.vc == 0 && s.portOf y == some 0) = true) := by
  refine ⟨by decide, by decide, by decide, ⟨[], [], [(65, [])], rfl, by simp⟩, by decide, by decide +kernel, by decide +kernel, by decide +kernel,
    by decide +kernel, by decide +kernel, by decide +kernel, by decide +kernel⟩

theorem wit_processors : State.reset.processors = true ∧ ({ State.reset with cairn := {} } : State).processors = false ∧ State.reset.collectives = [] := by decide

theorem wit_ports : ∀ st ∈ [PortState.detect, .equalise, .measure, .active, .disabled, .fault], ∃ s : State, (s.port 0).state = st ∧ SMap.wf Port.init s.fabric.ports = true := by
  intro st h
  refine ⟨{ State.reset with fabric := { ports := SMap.set Port.init [] 0 { state := st } } }, ?_⟩
  fin_cases h <;> exact ⟨rfl, rfl⟩

theorem wit_mesh : meshLinked 24 21 = true ∧ State.reset.meshDown.contains (link 24 21) = false ∧
    ({ State.reset with meshDown := [link 24 21] } : State).meshDown.contains (link 24 21) = true ∧
    (bit State.reset.crest.control 1 && fld State.reset.crest.control 2 18 == State.reset.address) = false ∧ (partner [link 24 23] 24 21).isSome = true ∧
    (let s : State := { State.reset with merge := [⟨3, stackView + 3 * 2 ^ 36, .sweep, [0]⟩] }
     s.processors = true ∧ (s.merge.find? fun e => e.mdie == 3) = some ⟨3, stackView + 3 * 2 ^ 36, .sweep, [0]⟩ ∧
     regionOf s.code (stackView + 3 * 2 ^ 36) = some (.stack 3)) ∧ SMap.wf ⟨0, 0, 0⟩ State.reset.err.mem = true := by decide

theorem wit_hot_plug : State.reset.power.hot ≠ .absent ∧ State.reset.side.pchg = true ∧ (hot .absent).power.hot = .absent ∧
    ({ State.reset with power := { hot := .present, softStart := true, booted := true } } : State).power.softStart = true ∧
    State.reset.power.booted = true ∧ State.reset.power.resetting.contains 24 = false ∧ (3 : BitVec 2).toNat ≤ State.reset.link.cap ∧
    (hot .linked).linkUp = true ∧ State.reset.linkUp = false ∧
    State.reset.power.hot ≠ .present ∧ (0 : Nat) ∉ ({ State.reset with power := {} } : State).power.poisoning ∧
    State.reset.fabric.blocked = [] ∧ State.reset.collectives = [] ∧ (3 : Nat) ∉ State.reset.power.resetting ∧
    ({ hot .quiescing with power := { (hot .quiescing).power with quiesce := some refA }, fetched := [refA] } : State).drained refA = false ∧
    ({ hot .quiescing with power := { (hot .quiescing).power with quiesce := some refA }, descs := [refA] } : State).drained refA = true := by decide

theorem wit_power : State.reset.power.target = none ∧ ({ State.reset with power := { target := some .dormant } } : State).power.target = some .dormant ∧
    State.reset.powered = true ∧ State.reset.power.dip = none ∧ (5500 : BitVec 16).toNat < State.reset.power.warnVoltage ∧
    SMap.wf 0 State.reset.crest.log = true ∧ (hot .present).powered = false ∧
    ({ State.reset with power := { dip := some ⟨5000, [0]⟩ } } : State).power.dip = some ⟨5000, [0]⟩ ∧
    ({ hot .ready with power := { (hot .ready).power with target := some .dormant } } : State).power.hot = .ready ∧
    ({ hot .powered with power := { (hot .powered).power with target := some .rest } } : State).power.hot ≠ .quiescing := by decide

theorem wit_sensors : State.reset.powered = true ∧ sensorStopped State.reset.power.state 60 = false ∧ SMap.wf (0x8000, 0) State.reset.monitor.readings = true ∧
    SMap.wf 0 State.reset.crest.log = true ∧ coolantKind 61 199 = some 0 ∧ coolantKind 61 401 = some 1 ∧ coolantKind 63 599 = some 2 ∧
    coolantKind 61 200 ≠ some 0 ∧ signed 16 1149 < 1150 ∧ 1150 ≤ signed 16 1150 ∧ State.reset.monitor.hot.contains 4 = false ∧
    ({ State.reset with monitor := { hot := [4] } } : State).monitor.hot.contains 4 = true ∧
    (let s : State := { State.reset with power := { supply := 0x6400550000 + 100 <<< 32 } }; s.power.warnPower ≠ 0) ∧
    (stR.ring 20).enable = true ∧ (stR.ring 20).full = false ∧ stR.linkUp = true ∧ stR.power.hot ≠ .released ∧ stR.err.lostUnreported = 0 ∧
    SMap.wf Ring.init stR.rings = true ∧ stR.powered = true ∧ State.reset.processors = true := by
  decide

/-- Register writes: below LINKED, in LINKED, accepted and refused. -/
theorem wit_registers :
    registerRow (.crestPeriod 2000) = some (0x200, writeCrestPeriod 2000) ∧ (Instr.crestPeriod 2000).wf = true ∧ State.reset.power.hot.code < 3 ∧
    (hot .linked).power.hot = .linked ∧ linkedBlock 0x200 = false ∧ linkedBlock 0x5000 = true ∧ 4 ≤ (hot .attested).power.hot.code := ⟨rfl, by decide⟩

theorem wit_window : (registerAt 0x80 0).isNone = true ∧ (registerAt 0x108 1).isSome = true ∧ (hot .attested).err.illegal = false ∧
    (({ State.reset with err := { illegal := true } } : State)).err.illegal = true := by decide

theorem wit_settings : 2000 ≤ (2000 : Word).toNat ∧ (1000000 : Word).toNat ≤ 1000000 ∧ stP.plan ≠ none ∧ 4 ≤ stP.power.hot.code ∧
    fld (0x55640230 : Word).toNat 0 10 = 560 ∧ fld (0x55640230 : Word).toNat 16 7 = 100 ∧ fld (0x55640230 : Word).toNat 24 7 = 85 ∧
    fld (0x0004000400201000 : Word).toNat 16 7 ≤ 64 ∧
    fld ({ State.reset with monitor := { input := 5500 } } : State).monitor.input 0 16 < fld (0x55640230 : Word).toNat 0 10 * 10 := by decide

theorem wit_resets : fld (0xFFFFFF : Word).toNat 24 8 = 0 ∧ bit (0xFFFFFF : Word).toNat 32 = false ∧ (hot .attested).resetForbidden 0xFFFFFF = false ∧
    stP.resetForbidden 1 = true ∧ bit (0x100000000 : Word).toNat 32 = true ∧ fld (0x100000000 : Word).toNat 0 24 = 0 := by decide +kernel

theorem wit_rings : 6 ≤ fld (0x106 : Word).toNat 0 5 ∧ bit (0x106 : Word).toNat 8 = true ∧ bit (6 : Word).toNat 8 = false ∧ (stR.ring 0).enable = true ∧
    (stR.ring 1).enable = false ∧ ((hot .attested).ring 20).enable = false ∧ (hot .attested).badRing = false ∧
    ({ hot .attested with rings := [(0, { enable := true, base := 8 })] } : State).badRing = true ∧
    (({ hot .ready with rings := [(16, { enable := true, reserved := 1 })] } : State).ring 16).reserved ≠ 0 ∧
    (({ hot .attested with rings := [(0, { enable := true, relinked := true })] } : State).ring 0).relinked = true ∧
    SMap.wf Ring.init [(0, ({ enable := true, relinked := true } : Ring))] = true := by decide

theorem wit_map_and_ports :
    bit (SMap.get 0 (hot .attested).coreMap.failed 0) ((hot .attested).spareIndex 0 (coreClass 31)) = false ∧
    (let s : State := { hot .attested with coreMap := { failed := [(0, 2 ^ 33)] } }
     bit (SMap.get 0 s.coreMap.failed 0) (s.spareIndex 0 (coreClass 31)) = true) ∧
    SMap.wf none (hot .attested).coreMap.index = true ∧ SMap.wf Port.init (hot .attested).fabric.ports = true ∧ fld (7 : Word).toNat 1 2 = 3 ∧
    ({ State.reset with power := { state := .rest } } : State).power.state.code = 3 ∧ (∀ x ∈ (hot .attested).fabric.ports, x.2.state ≠ .active) ∧
    (∃ x ∈ act0.fabric.ports, x.2.state ≠ .disabled) := by
  refine ⟨by decide, by decide, by decide, by decide, by decide, by decide, by decide, ⟨_, List.mem_cons_self .., by decide⟩⟩

theorem wit_mailbox : 3 ≤ (hot .linked).power.hot.code ∧ (hot .linked).mailbox.busy = false ∧ fld (8 : Word).toNat 8 56 = 0 ∧
    ({ hot .linked with cairn := { queue := [.mailbox 2 []], running := some 0 } } : State).cairn.queue = [.mailbox 2 []] ∧
    State.reset.cairn.nextSlot ≤ 1 ∧ (hot .linked).cairn.running ≠ none ∧ ({ hot .linked with cairn := {} } : State).cairn.running = none ∧
    ({ State.reset with power := { hot := .present, softStart := true, booted := false } } : State).power.softStart = true := by decide

theorem wit_sideband : controlRequest [0, 0x80, 1, 0, 8] = true ∧ (hot .linked).answers = true ∧ (hot .absent).answers = false ∧
    ({ State.reset with side := { started := false } } : State).side.started = false := by decide

theorem wit_llynyar : vendorRequest [0x7F, 0, 1, 0xB7, 0xC3, 1, 0] = true ∧
    (let s : State := { State.reset with side := { endpoint := 9 } }
     (s.answers && s.side.endpoint != 0 && (([0x7F, 0, 1, 0xB7, 0xC3, 1, 0] : List Byte).drop 1).take 4 == vendorId) = true) ∧
    (State.reset.answers && State.reset.side.endpoint != 0) = false := by decide

theorem wit_ledger : (⟨List.replicate 16 0, 0, false, -120, 120, 15, 1, true, false, 0, 0⟩ : ScaleEntry).history.length = 16 ∧
    (⟨List.replicate 16 0, 0, false, -120, 120, 15, 1, true, false, 0, 0⟩ : ScaleEntry).backoff.1.kEven = -120 ∧ stDiscardStain ≠ stDiscardNonfinite ∧
    (∀ i, State.reset.tableBad [.scale i] = false) := ⟨by decide, by decide, by decide, fun _ => rfl⟩

theorem wit_fold : [2, 0, 1].Perm (List.range 3) := by decide

end Sys2Proof.Tests
end

section
/-! PROOFS. The front of the queue (R50, R54), the words that a plan load refuses (R220, R381), the descriptor rows (R458), and where
device addresses lie (R41, R43). -/

namespace Sys2Proof.Machine

/-! ### The queue -/

/-- A step runs the command at the front of the queue. -/
theorem step_of_pending_cons (s : State) (i : Instr) (rest : List Instr) (h : s.pending = i :: rest) :
    step s = exec i { s with pending := rest } := by
  unfold step; rw [h]

/-- On an empty queue the module idles. -/
theorem step_of_pending_nil (s : State) (h : s.pending = []) : step s = .next s := by
  unfold step; rw [h]

/-- Settles O1: the two cases of the queue. -/
theorem stepRunsFrontCommand : Obligations.StepRunsFrontCommand :=
  ⟨fun i rest s h => step_of_pending_cons s i rest h, step_of_pending_nil⟩

/-! ### The rows of words -/

/-- The row of a core instruction hands its word to the sequencer; MATVEC's does so on a matrix-vector core only (R23). -/
theorem exec_row (o : CoreOp) (c : BitVec 8) (w : IWord) (s : State) (h : o = .matvec → 30 ≤ c.toNat % 32) :
    exec (o.row c w) s = issueWord o c w s := by
  cases o
  case matvec => exact if_neg (Nat.not_lt.2 (h rfl))
  all_goals rfl

/-- On a general core MATVEC's word is refused (R23). -/
theorem exec_matvec_general (c : BitVec 8) (w : IWord) (s : State) (h : c.toNat % 32 < 30) :
    exec (.matvec c w) s = .refused (.refusedAtLoad stBadField) := if_pos h

/-- The row of a word that the plan load accepts submits it to its core. -/
theorem exec_row_submit (o : CoreOp) (c : BitVec 8) (w : IWord) (s : State) (hw : wordStatus o w.toNat = none)
    (h : o = .matvec → 30 ≤ c.toNat % 32) : exec (o.row c w) s = .next (s.submit c.toNat ⟨o, w.toNat⟩) := by
  rw [exec_row o c w s h, issueWord_next o c w s hw]

/-- The row of an M-die word hands it to its M-die. -/
theorem exec_mrow (o : MOp) (m : BitVec 4) (w : IWord) (s : State) : exec (o.row m w) s = runMword o m w s := by
  cases o <;> rfl

/-- A word that the plan load refuses is refused at its M-die. -/
theorem runMword_refused (o : MOp) (m : BitVec 4) (w : IWord) (s : State) (st : Nat) (hm : m.toNat < 12)
    (h : mwordStatus o w.toNat = some st) : runMword o m w s = .refused (.refusedAtLoad st) := by
  have : ¬ 11 < m.toNat := by omega
  simp [runMword, this, h]

/-- A word that the plan load accepts is submitted to its M-die. -/
theorem runMword_next (o : MOp) (m : BitVec 4) (w : IWord) (s : State) (hm : m.toNat < 12) (h : mwordStatus o w.toNat = none) :
    runMword o m w s = .next (s.mSubmit m.toNat { op := o, word := w.toNat }) := by
  have : ¬ 11 < m.toNat := by omega
  simp [runMword, this, h]

/-- Settles O6: each row is `issueWord` or `runMword`, which look at the word's status first. -/
theorem wordsRefusedAtLoad : Obligations.WordsRefusedAtLoad := by
  refine ⟨fun o c w s st hc h => ?_, exec_matvec_general, fun o m w s st hm h => ?_⟩
  · rw [exec_row o c w s hc, issueWord_refused o c w s st h]
  · rw [exec_mrow, runMword_refused o m w s st hm h]

/-! ### The rows of descriptors -/

/-- Each descriptor row performs its descriptor with the checks and the effect of the descriptor's kind. -/
theorem exec_descriptorRow (r : BitVec 4) (d : Desc) (i : Instr) (s : State) (h : descriptorRow r d = some i) :
    exec i s = performDesc (fld d.toNat 0 8) (descriptorChecks (fld d.toNat 0 8)) (descriptorEffect (fld d.toNat 0 8)) r d s := by
  unfold descriptorRow at h
  split at h
  case h_26 => cases h
  all_goals
    rename_i hk
    cases h
    rw [hk]
    rfl

section
variable {kind : Nat} {check : State → DescRef → List (Bool × Nat)} {act : State → DescRef → State} {r : BitVec 4} {d : Desc} {s : State}
  {x : DescRef}

/-- A descriptor that its ring has not fetched changes nothing. -/
theorem performDesc_unfetched (hk : fld d.toNat 0 8 = kind)
    (h : (s.fetched.find? fun y => y.ring == r.toNat && y.bits == d.toNat) = none) : performDesc kind check act r d s = .next s := by
  simp [performDesc, hk, h]

/-- A fetched descriptor that its fence bit holds, or whose check must wait, changes nothing yet. -/
theorem performDesc_waits (hk : fld d.toNat 0 8 = kind)
    (h : (s.fetched.find? fun y => y.ring == r.toNat && y.bits == d.toNat) = some x)
    (hw : s.fenced x = true ∨ s.checkHeld x = true) : performDesc kind check act r d s = .next s := by
  have : (s.fenced x || s.checkHeld x) = true := by simpa using hw
  simp only [performDesc, hk, bne_self_eq_false, h, this, if_true, Bool.false_eq_true, if_false]

/-- A fetched descriptor that passes its checks acts, or is accepted where its traffic must wait. -/
theorem performDesc_passes (hk : fld d.toNat 0 8 = kind)
    (h : (s.fetched.find? fun y => y.ring == r.toNat && y.bits == d.toNat) = some x)
    (hf : s.fenced x = false) (hc : s.checkHeld x = false)
    (hp : firstOf ((reservedSet kind x.bits, stBadField) :: check s x) = none) :
    performDesc kind check act r d s = .next (if s.descHeld x then (s.noteImage x).accept x else act (s.noteImage x) x) := by
  simp only [performDesc, hk, bne_self_eq_false, h, hf, hc, hp, Bool.or_self, Bool.false_eq_true, if_false]

end

/-- Settles O30: every row is `performDesc` of its kind, whose cases are the statement's. -/
theorem descriptorPerformed : Obligations.DescriptorPerformed := by
  intro r d i s hrow
  rw [exec_descriptorRow r d i s hrow]
  refine ⟨performDesc_unfetched rfl, fun x hx => ⟨performDesc_waits rfl hx, fun hf hc hp => ?_⟩⟩
  rw [performDesc_passes rfl hx hf hc hp]
  exact ⟨fun h => by rw [h]; rfl, fun h => by rw [h]; rfl⟩

/-! ### Where addresses lie -/

/-- A canonical address at or above the stack view is itself. -/
theorem canon_of_stackView_le (a : Nat) (h : stackView ≤ a) : canon a = a := if_neg (Nat.not_lt.2 h)

/-- A read goes by the canonical address. -/
theorem State.loadByte_congr (s : State) (a b : Nat) (h : canon a = canon b) : s.loadByte a = s.loadByte b := by
  simp only [State.loadByte, h]

/-- Settles O35: an interleaved address and its stack-view address have one canonical address. -/
theorem hbmViewsAlias : Obligations.HbmViewsAlias := by
  intro s a ha _
  apply State.loadByte_congr
  rw [canon_of_stackView_le (stackView + _ + _) (by omega), canon, if_pos ha]
  omega

/-- An accumulator lane lies in its core's accumulator memory. -/
theorem regionOf_accAddr (code : OrderingCode) (n r j : Nat) (hn : n < 256) (hr : r < 4096) (hj : j < 128) :
    regionOf code (accAddr n r j) = some (.acc n) := by
  unfold regionOf accAddr stackView stagingBase storeBase accBase fabricBase
  have hend : 0x031000000000 + n * 2 ^ 21 + r * 512 + j * 4 < 0x031020000000 := by omega
  have hcore : (0x031000000000 + n * 2 ^ 21 + r * 512 + j * 4 - 0x031000000000) / 2 ^ 21 = n := by omega
  repeat rw [if_neg (by omega)]
  rw [if_pos hend, hcore]

/-- Settles O36: the lane's word is read at `accAddr`, which is the address of R43. -/
theorem accumulatorAddresses : Obligations.AccumulatorAddresses := by
  intro s n r j hn hr hj
  refine ⟨?_, regionOf_accAddr s.code n r j hn hr hj⟩
  simp only [State.acc, State.num, State.load, List.map_map]
  rfl

end Sys2Proof.Machine
end

section
/-! PROOFS. The sequencer's own steps: what a sig, a hold and a retirement change (R217, R221, R223, R226), and what a submitted word
comes to. -/

namespace Sys2Proof.Machine

/-! ### States that differ in cores and records -/

/-- t differs from s at most in the cores and in records. -/
def State.coreRecords (s t : State) : Prop :=
  t = { s with cores := t.cores, link := t.link, rings := t.rings, err := t.err, heldEvents := t.heldEvents }

theorem State.coreRecords.refl (s : State) : s.coreRecords s := rfl

theorem State.coreRecords.trans {s t u : State} (h1 : s.coreRecords t) (h2 : t.coreRecords u) : s.coreRecords u :=
  Eq.trans h2 (congrArg (fun x : State =>
    { x with cores := u.cores, link := u.link, rings := u.rings, err := u.err, heldEvents := u.heldEvents }) h1)

theorem State.records.coreRecords {s t : State} (h : s.records t) : s.coreRecords t := by unfold State.coreRecords; rw [h]

/-- What changes of cores and records leave: any function of the state that reads none of the five fields. -/
theorem State.coreRecords.same {s t : State} (h : s.coreRecords t) {β : Type} (f : State → β)
    (hf : ∀ k l r e v, f { s with cores := k, link := l, rings := r, err := e, heldEvents := v } = f s) : f t = f s := by
  rw [h]; exact hf _ _ _ _ _

theorem State.setCore_coreRecords (s : State) (c : Nat) (k : CoreState) : s.coreRecords (s.setCore c k) := rfl

theorem State.onCore_coreRecords (s : State) (c : Nat) (f : CoreState → CoreState) : s.coreRecords (s.onCore c f) := rfl

/-- Equal lists of cores are equal cores. -/
theorem State.core_congr {s t : State} (h : t.cores = s.cores) (d : Nat) : t.core d = s.core d := by simp only [State.core, h]

/-! ### One core changed -/

section
variable {s : State} {c d : Nat} {f : CoreState → CoreState}

theorem State.core_onCore (h : SMap.wf CoreState.init s.cores = true) : (s.onCore c f).core c = f (s.core c) :=
  State.core_setCore s c _ h

theorem State.core_onCore_ne (h : SMap.wf CoreState.init s.cores = true) (hd : d ≠ c) : (s.onCore c f).core d = s.core d :=
  State.core_setCore_ne s c d _ h hd

theorem State.setCore_cores_wf {k : CoreState} (h : SMap.wf CoreState.init s.cores = true) :
    SMap.wf CoreState.init (s.setCore c k).cores = true := SMap.wf_set _ _ _ _ h

theorem State.onCore_cores_wf (h : SMap.wf CoreState.init s.cores = true) : SMap.wf CoreState.init (s.onCore c f).cores = true :=
  State.setCore_cores_wf h

end

/-- k' differs from k at most in its tokens, with their parity. -/
def CoreState.tokened (k k' : CoreState) : Prop := k' = { k with tokens := k'.tokens, parity := k'.parity }

/-- k' differs from k at most in its sequencer and its tokens. -/
def CoreState.sequenced (k k' : CoreState) : Prop :=
  k' = { k with tokens := k'.tokens, parity := k'.parity, index := k'.index, loops := k'.loops, hold := k'.hold, waiting := k'.waiting,
                fetched := k'.fetched }

theorem CoreState.tokened.refl (k : CoreState) : k.tokened k := rfl

theorem CoreState.sequenced.refl (k : CoreState) : k.sequenced k := rfl

theorem CoreState.tokened.sequenced {k k' : CoreState} (h : k.tokened k') : k.sequenced k' := by
  unfold CoreState.sequenced; rw [h]

theorem CoreState.sequenced.trans {k k' k'' : CoreState} (h1 : k.sequenced k') (h2 : k'.sequenced k'') : k.sequenced k'' :=
  Eq.trans h2 (congrArg (fun x : CoreState =>
    { x with tokens := k''.tokens, parity := k''.parity, index := k''.index, loops := k''.loops, hold := k''.hold,
             waiting := k''.waiting, fetched := k''.fetched }) h1)

/-! ### Sig increments (R226) -/

theorem CoreState.setToken_tokened (k : CoreState) (i n : Nat) : k.tokened (k.setToken i n) := rfl

theorem CoreState.token_setToken (k : CoreState) (i n : Nat) (h : SMap.wf 0 k.tokens = true) : (k.setToken i n).token i = n :=
  SMap.get_set_eq _ _ _ _ h

theorem CoreState.token_setToken_ne (k : CoreState) (i j n : Nat) (h : SMap.wf 0 k.tokens = true) (hj : j ≠ i) :
    (k.setToken i n).token j = k.token j := SMap.get_set_ne _ _ _ _ _ h hj

/-- An increment writes the token's new value, at most 65,535, with an event where it saturates. -/
theorem State.addToken_records (s : State) (c k n : Nat) :
    (s.onCore c fun x => x.setToken k (min 65535 ((s.core c).token k + n))).records (s.addToken c k n) := by
  unfold State.addToken
  dsimp only
  split
  · rename_i h
    rw [Nat.min_eq_left (by omega)]
    exact State.event_records _ _ _ _ _ _
  · rename_i h
    rw [Nat.min_eq_right (by omega)]
    exact State.records.refl _

/-- What a sig leaves on a core: one more on the token that it names. -/
def CoreState.signalled (k : CoreState) (w d : Nat) : CoreState :=
  if Word.sig w = true ∧ d = Word.sigCore w then k.setToken (Word.sigToken w) (min 65535 (k.token (Word.sigToken w) + 1)) else k

theorem CoreState.signalled_tokened (k : CoreState) (w d : Nat) : k.tokened (k.signalled w d) := by
  unfold CoreState.signalled; split <;> rfl

theorem State.signal_coreRecords (s : State) (w : Nat) : s.coreRecords (s.signal w) := by
  unfold State.signal
  split
  · exact State.coreRecords.trans (State.onCore_coreRecords s _ _) (State.addToken_records s _ _ _).coreRecords
  · rfl

theorem State.signal_cores_wf (s : State) (w : Nat) (h : SMap.wf CoreState.init s.cores = true) :
    SMap.wf CoreState.init (s.signal w).cores = true := by
  unfold State.signal
  split
  · rw [(State.addToken_records s _ _ _).cores]; exact State.onCore_cores_wf h
  · exact h

theorem State.core_signal (s : State) (w d : Nat) (h : SMap.wf CoreState.init s.cores = true) :
    (s.signal w).core d = (s.core d).signalled w d := by
  unfold State.signal CoreState.signalled
  by_cases hw : Word.sig w = true
  · rw [if_pos hw, State.core_congr (State.addToken_records s _ _ _).cores]
    by_cases hd : d = Word.sigCore w
    · rw [if_pos ⟨hw, hd⟩, hd, State.core_onCore h]
    · rw [if_neg fun x => hd x.2, State.core_onCore_ne h hd]
  · rw [if_neg hw, if_neg fun x => hw x.1]

theorem CoreState.token_signalled (k : CoreState) (w : Nat) (hw : Word.sig w = true) (h : SMap.wf 0 k.tokens = true) :
    (k.signalled w (Word.sigCore w)).token (Word.sigToken w) = min 65535 (k.token (Word.sigToken w) + 1) := by
  rw [CoreState.signalled, if_pos ⟨hw, rfl⟩, CoreState.token_setToken _ _ _ h]

theorem CoreState.token_signalled_ne (k : CoreState) (w d i : Nat) (h : SMap.wf 0 k.tokens = true)
    (hn : ¬ (Word.sig w = true ∧ d = Word.sigCore w ∧ i = Word.sigToken w)) : (k.signalled w d).token i = k.token i := by
  unfold CoreState.signalled
  split
  · rename_i hw
    exact CoreState.token_setToken_ne _ _ _ _ h fun hi => hn ⟨hw.1, hw.2, hi⟩
  · rfl

/-! ### Fetch (R489, R503) -/

theorem State.records_foldl {β : Type} (f : State → β → State) (hf : ∀ (s : State) (x : β), s.records (f s x)) (l : List β) (s : State) :
    s.records (l.foldl f s) := by
  induction l generalizing s with
  | nil => exact State.records.refl s
  | cons x l ih => exact State.records.trans (hf s x) (ih (f s x))

theorem State.noteFetch_records (s : State) (c i : Nat) : s.records (s.noteFetch c i) := by
  refine State.records_foldl _ (fun t w => ?_) _ s
  split
  · rfl
  · rfl
  · exact State.countRead_records _ _ _ _ _ _ _

/-- A word that its instruction memory delivers unstained is issued as fetched, on a state that differs in records and the fetch mark. -/
theorem State.issue_fetches (s : State) (c : Nat) (t : Waiting) (h : SMap.wf CoreState.init s.cores = true) (hs : s.fetchStained c = false) :
    ∃ x, s.issue c t = x.issueFetched c t ∧ s.coreRecords x ∧ SMap.wf CoreState.init x.cores = true ∧
      x.core c = { s.core c with fetched := false } ∧ ∀ d, d ≠ c → x.core d = s.core d := by
  by_cases hf : (s.core c).fetched = true
  · exact ⟨s.setCore c { s.core c with fetched := false }, by simp [State.issue, hf], State.setCore_coreRecords s c _,
      State.setCore_cores_wf h, State.core_setCore s c _ h, fun d hd => State.core_setCore_ne s c d _ h hd⟩
  · have hc := (s.noteFetch_records c (s.core c).index).cores
    have hf : (s.core c).fetched = false := by simpa using hf
    refine ⟨s.noteFetch c (s.core c).index, by simp [State.issue, hf, hs], (s.noteFetch_records c _).coreRecords, by rw [hc]; exact h, ?_,
      fun d _ => State.core_congr hc d⟩
    rw [State.core_congr hc c, ← hf]

/-! ### Retirement -/

/-- Outside every loop an instruction moves the position on by one. -/
theorem CoreState.step_outside (k : CoreState) (t : Waiting) (h : k.loops = []) : k.step t = { k with index := k.index + 1 } := by
  simp [CoreState.step, h, closeLoops]

theorem CoreState.advance_outside (k : CoreState) (t : Waiting) (ht : t.op ≠ .loop) (h : k.loops = []) :
    k.advance t = { k with index := k.index + 1 } := by
  simp [CoreState.advance, ht, CoreState.step_outside k t h]

theorem State.holdOn_held (s : State) (c : Nat) (t : Waiting) (h : Hold) (hw : SMap.wf CoreState.init s.cores = true) :
    ((s.holdOn c t h).core c).hold = some h := by
  unfold State.holdOn; rw [State.core_onCore hw]

section
variable {s : State} {c : Nat} {t : Waiting}

/-- A retirement whose sig has no path holds the sequencer. -/
theorem State.retireUnrun_held (h : s.sigHeld c t.word = true) : s.retireUnrun c t = s.holdOn c t .mesh := if_pos h

/-- A retirement otherwise applies the sig and moves the position on. -/
theorem State.retireUnrun_free (h : s.sigHeld c t.word = false) : s.retireUnrun c t = (s.signal t.word).onCore c fun k => k.step t := by
  simp [State.retireUnrun, h]

theorem State.retireUnrun_coreRecords : s.coreRecords (s.retireUnrun c t) := by
  unfold State.retireUnrun
  split
  · exact State.onCore_coreRecords s _ _
  · exact State.coreRecords.trans (s.signal_coreRecords t.word) (State.onCore_coreRecords _ _ _)

/-- Each core after a retirement without effect outside every loop: the sig's token, and on the core itself the sequencer. -/
theorem State.core_retireUnrun (h : SMap.wf CoreState.init s.cores = true) (hl : (s.core c).loops = []) (d : Nat) :
    (s.retireUnrun c t).core d =
      if s.sigHeld c t.word then
        if d = c then { s.core c with hold := some .mesh, waiting := t :: (s.core c).waiting, fetched := true } else s.core d
      else
        if d = c then { (s.core c).signalled t.word c with index := (s.core c).index + 1 } else (s.core d).signalled t.word d := by
  split
  · rename_i hh
    rw [State.retireUnrun_held hh, State.holdOn]
    split
    · rename_i hd; rw [hd, State.core_onCore h]
    · rename_i hd; rw [State.core_onCore_ne h hd]
  · rename_i hh
    rw [State.retireUnrun_free (by simpa using hh)]
    have hw := s.signal_cores_wf t.word h
    split
    · rename_i hd
      have hk := (s.core c).signalled_tokened t.word c
      rw [hd, State.core_onCore hw, State.core_signal s _ _ h, CoreState.step_outside _ _ (by rw [hk]; exact hl)]
      rw [show ((s.core c).signalled t.word c).index = (s.core c).index by rw [hk]]
    · rename_i hd; rw [State.core_onCore_ne hw hd, State.core_signal s _ _ h]

/-- With nothing waiting behind it, an instruction that retires without effect is the last that issues. -/
theorem State.drain_retireUnrun (n : Nat) (h : SMap.wf CoreState.init s.cores = true) (hl : (s.core c).loops = [])
    (hw : (s.core c).waiting = []) : State.drain n c (s.retireUnrun c t) = s.retireUnrun c t := by
  have hc := State.core_retireUnrun (t := t) h hl c
  split at hc
  · rw [if_pos rfl] at hc
    exact State.drain_held _ _ _ (by rw [hc]; exact fun h => nomatch h)
  · rw [if_pos rfl] at hc
    have hk := (s.core c).signalled_tokened t.word c
    exact State.drain_empty _ _ _ (by rw [hc, hk]; exact hw)

end

/-! ### An instruction of a step that is over (R223, R626) -/

/-- What issue asks about the step of an instruction does not depend on records or on the cores' registers. -/
theorem State.issueOf_coreRecords {s x : State} (h : s.coreRecords x) (c : Nat) (t : Waiting) (hi : (x.core c).index = (s.core c).index) :
    x.issueOf c t = s.issueOf c t := by
  have hb : x.blockStep = s.blockStep := h.same State.blockStep fun _ _ _ _ _ => rfl
  have hp : x.planCrest = s.planCrest := h.same State.planCrest fun _ _ _ _ _ => rfl
  simp only [State.issueOf, hb, hp, hi]

theorem State.stopped_coreRecords {s x : State} (h : s.coreRecords x) (n : Nat) : x.stopped n = s.stopped n :=
  h.same (fun s => s.stopped n) fun _ _ _ _ _ => rfl

theorem State.retires_coreRecords {s x : State} (h : s.coreRecords x) (i : Issue) : x.retires i = s.retires i :=
  h.same (fun s => s.retires i) fun _ _ _ _ _ => rfl

theorem State.sigHeld_coreRecords {s x : State} (h : s.coreRecords x) (c w : Nat) : x.sigHeld c w = s.sigHeld c w :=
  h.same (fun s => s.sigHeld c w) fun _ _ _ _ _ => rfl

/-- An instruction that its step select or variant lets retire has no effect. -/
theorem State.issueFetched_retires (s : State) (c : Nat) (t : Waiting) (hf : t.op.frame = false)
    (hs : s.stopped (s.issueOf c t).step = false) (hr : s.retires (s.issueOf c t) = true) : s.issueFetched c t = s.retireUnrun c t := by
  simp [State.issueFetched, hf, hs, hr]

/-- What the changes of a sequencer and of tokens leave on a core. -/
theorem CoreState.sequenced.frame {k k' : CoreState} (h : k.sequenced k') :
    k'.sregs = k.sregs ∧ k'.vregs = k.vregs ∧ k'.vl = k.vl ∧ k'.kslots = k.kslots ∧ k'.active = k.active ∧ k'.loading = k.loading ∧
      k'.batch = k.batch ∧ k'.rowLive = k.rowLive ∧ k'.lookAside = k.lookAside ∧ k'.flags0 = k.flags0 ∧ k'.flags1 = k.flags1 ∧
      k'.ops = k.ops ∧ k'.imem = k.imem ∧ k'.half = k.half ∧ k'.ahead = k.ahead := by
  rw [h]; exact ⟨rfl, rfl, rfl, rfl, rfl, rfl, rfl, rfl, rfl, rfl, rfl, rfl, rfl, rfl, rfl⟩

/-- What the changes of tokens leave of a sequencer. -/
theorem CoreState.tokened.sequencer {k k' : CoreState} (h : k.tokened k') :
    k'.index = k.index ∧ k'.loops = k.loops ∧ k'.hold = k.hold ∧ k'.waiting = k.waiting ∧ k'.fetched = k.fetched := by
  rw [h]; exact ⟨rfl, rfl, rfl, rfl, rfl⟩

/-- A retirement without effect, after its fetch: each core differs at most in its sequencer and tokens. -/
theorem State.retireUnrun_sequenced {s x : State} {c : Nat} {t : Waiting} (h : SMap.wf CoreState.init x.cores = true)
    (hl : (x.core c).loops = []) (hc : x.core c = { s.core c with fetched := false }) (ho : ∀ d, d ≠ c → x.core d = s.core d) (d : Nat) :
    (s.core d).sequenced ((x.retireUnrun c t).core d) ∧ (d ≠ c → (s.core d).tokened ((x.retireUnrun c t).core d)) := by
  have hk := State.core_retireUnrun (t := t) h hl d
  by_cases hd : d = c
  · refine ⟨?_, fun hn => absurd hd hn⟩
    have hs : (s.core c).sequenced (x.core c) := by rw [hc]; rfl
    rw [hk, if_pos hd, if_pos hd, hd]
    split
    · exact hs.trans rfl
    · exact (hs.trans ((x.core c).signalled_tokened t.word c).sequenced).trans rfl
  · have ht : (s.core d).tokened ((x.retireUnrun c t).core d) := by
      rw [hk, if_neg hd, if_neg hd, ho d hd]
      split
      · rfl
      · exact (s.core d).signalled_tokened t.word d
    exact ⟨ht.sequenced, fun _ => ht⟩

/-- The tokens after a retirement without effect. -/
theorem State.token_retireUnrun {x : State} {c : Nat} {t : Waiting} (h : SMap.wf CoreState.init x.cores = true) (hl : (x.core c).loops = [])
    (d k : Nat) : ((x.retireUnrun c t).core d).token k =
      if x.sigHeld c t.word then (x.core d).token k else ((x.core d).signalled t.word d).token k := by
  rw [State.core_retireUnrun h hl d]
  split
  · split
    · rename_i hd; rw [hd]; rfl
    · rfl
  · split
    · rename_i hd; rw [hd]; rfl
    · rfl

/-- Settles O9: fetch changes records and the fetch mark, retirement without effect the sequencer and the sig's token, and nothing waits
to issue behind it. -/
theorem stepSelectRetires : Obligations.StepSelectRetires := by
  refine ⟨fun o c w s hw hm hwf htok hof hclk hbl hfs hhold hwait hloops hstop hret => ?_, fun o c w s hw hm hno => ?_⟩
  · obtain ⟨x, hx, hrec, hxwf, hxc, hxo⟩ := State.issue_fetches s c.toNat ⟨o, w.toNat⟩ hwf hfs
    have hi := State.issueOf_coreRecords hrec c.toNat ⟨o, w.toNat⟩ (by rw [hxc])
    have hxl : (x.core c.toNat).loops = [] := by rw [hxc]; exact hloops
    have hxw : (x.core c.toNat).waiting = [] := by rw [hxc]; exact hwait
    have hsig : x.sigHeld c.toNat w.toNat = s.sigHeld c.toNat w.toNat := State.sigHeld_coreRecords hrec _ _
    have hxt : ∀ d, (x.core d).tokens = (s.core d).tokens := fun d => by
      by_cases hd : d = c.toNat
      · rw [hd, hxc]
      · rw [hxo d hd]
    have hxtok : ∀ d, SMap.wf 0 (x.core d).tokens = true := fun d => by rw [hxt d]; exact htok d
    have hxtoken : ∀ d k, (x.core d).token k = (s.core d).token k := fun d k => by simp only [CoreState.token, hxt d]
    have hrun : exec (o.row c w) s = .next (x.retireUnrun c.toNat ⟨o, w.toNat⟩) := by
      rw [exec_row_submit o c w s hw hm, State.submit_free _ _ _ hclk hbl hhold, hx,
        State.issueFetched_retires x _ _ hof (by rw [hi, State.stopped_coreRecords hrec]; exact hstop)
          (by rw [hi, State.retires_coreRecords hrec]; exact hret),
        State.drain_retireUnrun _ hxwf hxl hxw]
    have hfin := hrec.trans (State.retireUnrun_coreRecords (s := x) (c := c.toNat) (t := ⟨o, w.toNat⟩))
    refine ⟨_, hrun, by rw [hfin], by rw [hfin], by rw [hfin], by rw [hfin], by rw [hfin], fun d => ?_, fun d k hk => ?_, fun hg hh => ?_⟩
    · obtain ⟨hseq, htokd⟩ := State.retireUnrun_sequenced (t := ⟨o, w.toNat⟩) hxwf hxl hxc hxo d
      obtain ⟨h1, h2, h3, h4, h5, h6, h7, h8, h9, h10, h11, h12, h13, h14, h15⟩ := hseq.frame
      exact ⟨h1, h2, h3, h4, h5, h6, h7, h8, h9, h10, h11, h12, h13, h14, h15, fun hd => (htokd hd).sequencer⟩
    · rw [State.token_retireUnrun hxwf hxl, hsig]
      split
      · exact hxtoken d k
      · rename_i hh
        rw [CoreState.token_signalled_ne _ _ _ _ (hxtok d) fun ⟨h1, h2, h3⟩ => hh (hk h1 h2 h3), hxtoken]
    · rw [State.token_retireUnrun hxwf hxl, hsig, hh, if_neg Bool.false_ne_true, CoreState.token_signalled _ _ hg (hxtok _), hxtoken]
  · rw [exec_row_submit o c w s hw hm]
    rcases hno with hb | hc
    · rw [State.submit_blockless s _ _ hb]
    · rw [State.submit_unclocked s _ _ hc]

end Sys2Proof.Machine
end

section
/-! PROOFS. Fills of device memory (R494), what a write of it leaves (R495, R496), and the TCLR that fills its tile (R156). -/

namespace Sys2Proof.Machine

/-! ### Reads after a fill -/

/-- The mark of a granule inside a cover is the layer's. -/
theorem Memory.markAt_cover_in (m : Memory) (l : Layer) (x : Nat) (h1 : l.lo ≤ x) (h2 : x < l.hi) : (m.cover l).markAt x = l.mark := by
  have hnone : (m.cover l).marks.find? (fun c => c.1 == x) = none := by
    refine List.find?_eq_none.2 fun c hc => ?_
    obtain ⟨-, hc⟩ := List.mem_filter.1 hc
    simp at hc ⊢; omega
  have hlayer : (m.cover l).layer x = some l := by simp [Memory.layer, Memory.cover, h1, h2]
  simp only [Memory.markAt, hnone, Memory.baseMark, hlayer]

/-- A cover leaves every mark outside its range as it was. -/
theorem Memory.markAt_cover_out (m : Memory) (l : Layer) (x : Nat) (h : x < l.lo ∨ l.hi ≤ x) : (m.cover l).markAt x = m.markAt x := by
  have hfind : (m.cover l).marks.find? (fun c => c.1 == x) = m.marks.find? fun c => c.1 == x := by
    simp only [Memory.cover, List.find?_filter]
    congr 1; funext c
    by_cases hc : c.1 = x
    · rcases h with h | h <;> simp [hc, h]
    · simp [hc]
  simp only [Memory.markAt, hfind, Memory.baseMark, Memory.layer_cover m l x h]

/-- A word of lanes lies whole on one side of a multiple of 8. -/
theorem otherLane_lt_iff (x b : Nat) (hb : b % 8 = 0) : otherLane x < b ↔ x < b := by
  unfold otherLane; split <;> omega

/-- A byte of device memory with the stain of its granule, by canonical address. -/
def Memory.readAt (m : Memory) (c : Nat) : Byte × Bool := (m.byte c, (m.seen (granuleAt c) (c - c % granuleAt c)).stained)

theorem State.loadByte_eq (s : State) (a : Nat) : s.loadByte a = s.mem.readAt (canon a) := rfl

/-- The start of a granule is below a multiple of 8 where the byte is. -/
theorem granuleStart_lt_iff (c b : Nat) (hb : b % 8 = 0) : c - c % granuleAt c < b ↔ c < b := by
  unfold granuleAt; split <;> omega

/-- Inside a fill of whole words every byte is the pattern's, unstained. -/
theorem Memory.readAt_fill_in (m : Memory) (lo hi c : Nat) (p : Word) (hlo : lo % 8 = 0) (hhi : hi % 8 = 0) (h1 : lo ≤ c) (h2 : c < hi) :
    (m.fill lo hi p).readAt c = (BitVec.ofNat 8 (p.toNat >>> (8 * (c % 8))), false) := by
  have hin (x : Nat) (hx1 : lo ≤ x) (hx2 : x < hi) : (m.fill lo hi p).markAt x = .clean := Memory.markAt_cover_in m _ x hx1 hx2
  have hg1 : lo ≤ c - c % granuleAt c := Nat.not_lt.1 (mt (granuleStart_lt_iff c lo hlo).1 (Nat.not_lt.2 h1))
  have hg2 : c - c % granuleAt c < hi := (granuleStart_lt_iff c hi hhi).2 h2
  have hother := hin (otherLane (c - c % granuleAt c)) (Nat.not_lt.1 (mt (otherLane_lt_iff _ lo hlo).1 (Nat.not_lt.2 hg1)))
    ((otherLane_lt_iff _ hi hhi).2 hg2)
  simp only [Memory.readAt, Memory.seen, hin _ hg1 hg2, hother]
  exact Prod.ext (Memory.byte_cover_in m _ c h1 h2) (by simp [Mark.stained])

/-- Outside a fill of whole words every byte reads as before. -/
theorem Memory.readAt_fill_out (m : Memory) (lo hi c : Nat) (p : Word) (hlo : lo % 8 = 0) (hhi : hi % 8 = 0) (h : c < lo ∨ hi ≤ c) :
    (m.fill lo hi p).readAt c = m.readAt c := by
  have hout (x : Nat) (hx : x < lo ∨ hi ≤ x) : (m.fill lo hi p).markAt x = m.markAt x := Memory.markAt_cover_out m _ x hx
  have hside (x y : Nat) (h1 : y < lo ↔ x < lo) (h2 : y < hi ↔ x < hi) (hx : x < lo ∨ hi ≤ x) : y < lo ∨ hi ≤ y := by omega
  have hg := hside c (c - c % granuleAt c) (granuleStart_lt_iff c lo hlo) (granuleStart_lt_iff c hi hhi) h
  have hother := hout _ (hside _ _ (otherLane_lt_iff _ lo hlo) (otherLane_lt_iff _ hi hhi) hg)
  simp only [Memory.readAt, Memory.seen, hout _ hg, hother]
  exact Prod.ext (Memory.byte_cover_out m _ c h) rfl

/-! ### Writes of device memory -/

/-- t differs from s at most in device memory, the merge buffers and records. -/
def State.stores (s t : State) : Prop :=
  t = { s with mem := t.mem, merge := t.merge, link := t.link, rings := t.rings, err := t.err, heldEvents := t.heldEvents }

theorem State.stores.refl (s : State) : s.stores s := rfl

theorem State.stores.trans {s t u : State} (h1 : s.stores t) (h2 : t.stores u) : s.stores u :=
  Eq.trans h2 (congrArg (fun x : State =>
    { x with mem := u.mem, merge := u.merge, link := u.link, rings := u.rings, err := u.err, heldEvents := u.heldEvents }) h1)

theorem State.counts.stores {s t : State} (h : s.counts t) : s.stores t := by unfold State.stores; rw [h]

theorem State.stores_foldl {β : Type} (f : State → β → State) (hf : ∀ (s : State) (x : β), s.stores (f s x)) (l : List β) (s : State) :
    s.stores (l.foldl f s) := by
  induction l generalizing s with
  | nil => exact State.stores.refl s
  | cons x l ih => exact State.stores.trans (hf s x) (ih (f s x))

theorem State.save_stores (s : State) (a : Nat) (bs : List (Byte × Bool)) : s.stores (s.save a bs) := rfl

theorem State.put_stores (s : State) (owner a : Nat) (bs : List (Byte × Bool)) : s.stores (s.put owner a bs) := by
  have h : s.stores ((s.noteWrite owner a bs.length).save a bs) :=
    State.stores.trans (s.noteWrite_counts owner a bs.length).stores (State.save_stores _ _ _)
  unfold State.put
  dsimp only
  split
  · exact State.stores.trans h (State.retireOwned_counts _ _).stores
  · exact h

theorem State.fillBytes_stores (s : State) (a n : Nat) (p : Word) : s.stores (s.fillBytes a n p) := by
  unfold State.fillBytes; split <;> rfl

theorem State.fillRange_stores (s : State) (a n : Nat) (p : Word) : s.stores (s.fillRange a n p) :=
  State.stores.trans (s.noteWrite_counts 0 a n).stores (State.fillBytes_stores _ a n p)

theorem State.noteRead_stores (s : State) (a n : Nat) : s.stores (s.noteRead a n) := (s.noteRead_counts a n).stores

theorem State.stores.cores {s t : State} (h : s.stores t) : t.cores = s.cores := by rw [h]
theorem State.stores.tiles {s t : State} (h : s.stores t) : t.tiles = s.tiles := by rw [h]

/-- Above HBM3 a fill lays one range. -/
theorem State.fillRange_mem (s : State) (a n : Nat) (p : Word) (h : 0x01C000000000 ≤ a) :
    (s.fillRange a n p).mem = s.mem.fill a (a + n) p := by
  rw [State.fillRange, State.fillBytes, if_neg (Nat.not_lt.2 h), (s.noteWrite_counts 0 a n).mem]

/-- Canonical addresses of HBM3 lie below the rest of the map. -/
theorem canon_lt_of_hbm (a : Nat) (h : a < stackView) : canon a < stagingBase := by
  rw [canon, if_pos h]
  unfold stackView at *
  unfold stagingBase
  omega

/-- A range above HBM3 holds the canonical address of no byte outside it. -/
theorem canon_outside (a lo hi : Nat) (hlo : stagingBase ≤ lo) (h : a < lo ∨ hi ≤ a) : canon a < lo ∨ hi ≤ canon a := by
  by_cases ha : a < stackView
  · exact Or.inl (Nat.lt_of_lt_of_le (canon_lt_of_hbm a ha) hlo)
  · rw [canon_of_stackView_le a (Nat.not_lt.1 ha)]; exact h

/-- A fill of whole words above HBM3: inside, every byte is the pattern's, unstained. -/
theorem State.loadByte_fill_in (s t : State) (a n x : Nat) (p : Word) (ht : t.mem = s.mem.fill a (a + n) p) (ha : a % 8 = 0) (hn : n % 8 = 0)
    (hv : stackView ≤ a) (h1 : a ≤ x) (h2 : x < a + n) : t.loadByte x = (BitVec.ofNat 8 (p.toNat >>> (8 * (x % 8))), false) := by
  rw [State.loadByte_eq, canon_of_stackView_le x (Nat.le_trans hv h1), ht]
  exact Memory.readAt_fill_in _ _ _ _ _ ha (by omega) h1 h2

/-- Outside, every byte reads as before. -/
theorem State.loadByte_fill_out (s t : State) (a n x : Nat) (p : Word) (ht : t.mem = s.mem.fill a (a + n) p) (ha : a % 8 = 0) (hn : n % 8 = 0)
    (hv : stagingBase ≤ a) (h : x < a ∨ a + n ≤ x) : t.loadByte x = s.loadByte x := by
  rw [State.loadByte_eq, ht]
  exact Memory.readAt_fill_out _ _ _ _ _ ha (by omega) (canon_outside x a (a + n) hv h)

end Sys2Proof.Machine
end

section
/-! PROOFS. An instruction that nothing holds and no check refuses is performed (R178, R218, R221), and TCLR (R156). -/

namespace Sys2Proof.Machine

section
variable {s : State} {c : Nat} {t : Waiting}

/-- What `takes` says of a core and its next instruction. -/
theorem State.takes_iff : s.takes c t = true ↔
    (s.clocked = true ∧ s.blockless c = false ∧ (s.core c).hold = none ∧ (s.core c).fetched = false ∧ s.fetchStained c = false ∧
      s.cleanFetch c = true) ∧ (t.op.frame = true ∨ s.stopped (s.issueOf c t).step = false ∧ s.retires (s.issueOf c t) = false) := by
  simp [State.takes, and_assoc]

/-- An instruction that its core takes passes its step select. -/
theorem State.takes_runs (h : s.takes c t = true) :
    (s.stopped (s.issueOf c t).step && !t.op.frame) = false ∧ (s.retires (s.issueOf c t) && !t.op.frame) = false := by
  obtain ⟨-, h⟩ := State.takes_iff.1 h
  rcases h with h | ⟨h1, h2⟩
  · simp [h]
  · simp [h1, h2]

/-- The word that a core takes is issued as fetched. -/
theorem State.submit_takes (h : s.takes c t = true) : s.submit c t = State.drain drainFuel c (s.issueFetched c t) := by
  obtain ⟨⟨hclk, hbl, hhold, hf, hs, hclean⟩, -⟩ := State.takes_iff.1 h
  simp only [State.cleanFetch, Bool.and_eq_true, beq_iff_eq] at hclean
  rw [State.submit_free s c t hclk hbl hhold, State.issue_good s c t hf hs hclean.1 hclean.2]

/-- An instruction that nothing holds and no check refuses is performed. -/
theorem State.issueFetched_performs (ht : s.takes c t = true) (hu : s.unheld c t = true) (hc : checkIssue t.op (s.issueOf c t) s = none) :
    s.issueFetched c t = s.perform c t (s.issueOf c t) := by
  obtain ⟨hstop, hret⟩ := State.takes_runs ht
  simp only [State.unheld, Bool.and_eq_true, Bool.not_eq_true', bne_iff_ne, ne_eq] at hu
  obtain ⟨⟨⟨⟨⟨hpath, hparity⟩, htoken⟩, hlock⟩, hflag⟩, hend⟩ := hu
  have hend : (t.op == .cend) = false := by simpa using hend
  simp only [State.issueFetched, hstop, hret, hpath, hparity, htoken, hlock, hflag, hend, hc, Bool.false_eq_true, if_false]

end

/-- A core instruction that nothing holds and no check refuses: its row performs it, and the instructions behind it issue. -/
theorem exec_row_performs (o : CoreOp) (c : BitVec 8) (w : IWord) (s : State) (hw : wordStatus o w.toNat = none)
    (hm : o = .matvec → 30 ≤ c.toNat % 32) (ht : s.takes c.toNat ⟨o, w.toNat⟩ = true) (hu : s.unheld c.toNat ⟨o, w.toNat⟩ = true)
    (hc : checkIssue o (s.issueOf c.toNat ⟨o, w.toNat⟩) s = none) :
    exec (o.row c w) s = .next (State.drain drainFuel c.toNat (s.perform c.toNat ⟨o, w.toNat⟩ (s.issueOf c.toNat ⟨o, w.toNat⟩))) := by
  rw [exec_row_submit o c w s hw hm, State.submit_takes ht, State.issueFetched_performs ht hu hc]

/-- k' differs from k at most in its sequencer and its outstanding operations. -/
def CoreState.issued (k k' : CoreState) : Prop :=
  k' = { k with ops := k'.ops, index := k'.index, loops := k'.loops, waiting := k'.waiting }

theorem CoreState.advance_issued (k : CoreState) (t : Waiting) : k.issued (k.advance t) := by
  unfold CoreState.advance CoreState.step
  dsimp only
  split <;> rfl

theorem CoreState.issued.trans {k k' k'' : CoreState} (h1 : k.issued k') (h2 : k'.issued k'') : k.issued k'' :=
  Eq.trans h2 (congrArg (fun x : CoreState => { x with ops := k''.ops, index := k''.index, loops := k''.loops, waiting := k''.waiting }) h1)

theorem CoreState.unqueue_issued (k : CoreState) : k.issued k.unqueue := by
  unfold CoreState.unqueue; split <;> rfl

/-- Queued operations are marked, not moved; nothing else of the core changes. -/
theorem CoreState.unqueue_loops (k : CoreState) : k.unqueue.loops = k.loops := by
  unfold CoreState.unqueue; split <;> rfl

theorem CoreState.unqueue_waiting (k : CoreState) : k.unqueue.waiting = k.waiting := by
  unfold CoreState.unqueue; split <;> rfl

/-- A unit's operation with a mesh path and no table words is begun: its effect, then its place among the operations outstanding. -/
theorem State.perform_unit (s : State) (c : Nat) (t : Waiting) (x : Issue) (hu : t.op.unit ≠ 0) (hh : s.heldUp t.op x = false)
    (ht : tableReads t.op x s = []) : ∃ p : Pend, s.perform c t x =
      ({ applyIssue t.op x s with serial := s.serial + 1 } : State).onCore c fun k =>
        ({ k with ops := k.ops ++ [p] } : CoreState).unqueue.advance t := by
  have hbad : s.tableBad [] = false := by simp [State.tableBad, State.tableMarks]
  have hnote : s.noteTables [] = s := by simp [State.noteTables, State.tableMarks]
  have hunit : (t.op.unit == 0) = false := by simpa using hu
  refine ⟨{ pendOf t.op x s with
    sends := (s.fabric.nextTransfer, (applyIssue t.op x s).fabric.nextTransfer), key := s.writerKey (c + 1) }, ?_⟩
  simp only [State.perform, hunit, hh, ht, State.useTables_good s [] _ hbad, hnote, Bool.false_eq_true, if_false]

/-- A unit's operation outside every loop with nothing waiting behind it is the last that issues: what its row comes to. -/
theorem exec_row_unit (o : CoreOp) (c : BitVec 8) (w : IWord) (s e : State) (hw : wordStatus o w.toNat = none)
    (hm : o = .matvec → 30 ≤ c.toNat % 32) (ht : s.takes c.toNat ⟨o, w.toNat⟩ = true) (hu : s.unheld c.toNat ⟨o, w.toNat⟩ = true)
    (hc : checkIssue o (s.issueOf c.toNat ⟨o, w.toNat⟩) s = none) (hunit : o.unit ≠ 0)
    (hh : s.heldUp o (s.issueOf c.toNat ⟨o, w.toNat⟩) = false) (htab : tableReads o (s.issueOf c.toNat ⟨o, w.toNat⟩) s = [])
    (he : applyIssue o (s.issueOf c.toNat ⟨o, w.toNat⟩) s = e) (hwf : SMap.wf CoreState.init e.cores = true)
    (hl : (e.core c.toNat).loops = [])
    (hq : (e.core c.toNat).waiting = []) :
    ∃ t, exec (o.row c w) s = .next t ∧ t.mem = e.mem ∧
      t.tiles = e.tiles ∧
      (e.core c.toNat).issued (t.core c.toNat) ∧
      ∀ d, d ≠ c.toNat → t.core d = e.core d := by
  have hrow := exec_row_performs o c w s hw hm ht hu hc
  obtain ⟨p, hp⟩ := State.perform_unit s c.toNat ⟨o, w.toNat⟩ _ hunit hh htab
  have hloop : (⟨o, w.toNat⟩ : Waiting).op ≠ .loop := fun h => hunit (by rw [show o = .loop from h]; rfl)
  rw [hp, he] at hrow
  have hcore := State.core_onCore (s := { e with serial := s.serial + 1 }) (c := c.toNat)
    (f := fun k => ({ k with ops := k.ops ++ [p] } : CoreState).unqueue.advance ⟨o, w.toNat⟩) hwf
  have hadv := CoreState.advance_outside ({ e.core c.toNat with ops := (e.core c.toNat).ops ++ [p] } : CoreState).unqueue ⟨o, w.toNat⟩ hloop
    (by rw [CoreState.unqueue_loops]; exact hl)
  rw [State.drain_empty] at hrow
  · refine ⟨_, hrow, rfl, rfl, ?_, fun d hd => State.core_onCore_ne hwf hd⟩
    rw [hcore]
    exact CoreState.issued.trans (k' := { e.core c.toNat with ops := (e.core c.toNat).ops ++ [p] }) rfl
      ((CoreState.unqueue_issued _).trans (CoreState.advance_issued _ _))
  · rw [hcore]
    exact (congrArg CoreState.waiting hadv).trans ((CoreState.unqueue_waiting _).trans hq)

/-- Settles O17: TCLR's effect is a fill with 0 of the 64 KiB of its tile. -/
theorem tclrClearsItsTile : Obligations.TclrClearsItsTile := by
  intro c w s hw _ hwf hmesh htakes hunheld hwait hloops
  obtain ⟨e, he⟩ : ∃ e, applyTclr (s.issueOf c.toNat ⟨.tclr, w.toNat⟩) s = e := ⟨_, rfl⟩
  have hst : s.stores e := he ▸ State.fillRange_stores _ _ _ _
  have hcore := State.core_congr hst.cores
  obtain ⟨t, hrow, hmem, htiles, hown, hother⟩ := exec_row_unit .tclr c w s e hw (fun h => nomatch h) htakes hunheld rfl (by decide) hmesh
    rfl he (by rw [hst.cores]; exact hwf) (by rw [hcore]; exact hloops) (by rw [hcore]; exact hwait)
  have haddr : accAddr c.toNat (128 * fld w.toNat 57 5) 0 = accBase + c.toNat * 2 ^ 21 + fld w.toNat 57 5 * 65536 := by
    unfold accAddr; omega
  generalize hbase : accAddr c.toNat (128 * fld w.toNat 57 5) 0 = base at *
  have hbig : stagingBase ≤ base := by rw [haddr]; unfold stagingBase accBase; omega
  have hview : stackView ≤ base := Nat.le_trans (by decide) hbig
  have h8 : base % 8 = 0 := by rw [haddr]; unfold accBase; omega
  have hfill : t.mem = s.mem.fill base (base + 65536) 0 := by
    rw [hmem, ← he, ← hbase]
    exact State.fillRange_mem s (accAddr c.toNat (128 * fld w.toNat 57 5) 0) 65536 0 (by rw [hbase]; exact Nat.le_trans (by decide) hbig)
  refine ⟨t, hrow, fun r j hr hj => ?_, fun a ha => State.loadByte_fill_out s t base 65536 a 0 hfill h8 (by decide) hbig ha,
    htiles.trans hst.tiles, fun d => ?_⟩
  · have hlane : accAddr c.toNat (128 * fld w.toNat 57 5 + r) j = base + (r * 512 + j * 4) := by rw [← hbase]; unfold accAddr; omega
    have hbyte (i : Nat) (hi : i < 4) : t.loadByte (accAddr c.toNat (128 * fld w.toNat 57 5 + r) j + i) = (0, false) := by
      rw [State.loadByte_fill_in s t base 65536 _ 0 hfill h8 (by decide) hview (by omega) (by omega)]
      simp
    have hload : t.load (accAddr c.toNat (128 * fld w.toNat 57 5 + r) j) 4 = [(0, false), (0, false), (0, false), (0, false)] := by
      rw [State.load, ← List.map_congr_left (f := fun _ => ((0 : Byte), false)) fun i hi => (hbyte i (List.mem_range.1 hi)).symm]
      rfl
    simp only [State.acc, State.num, State.stainedAt, hload]
    rfl
  · by_cases hd : d = c.toNat
    · rw [hcore] at hown
      rw [hd, hown]; exact ⟨rfl, rfl⟩
    · rw [hother d hd, hcore]; exact ⟨rfl, rfl⟩

end Sys2Proof.Machine
end

section
/-! PROOFS. The events at a core: completions, interlocks, the batching queue and the end of a block (R57, R148, R177, R218, R226). -/

namespace Sys2Proof.Machine

/-! ### The operation that completes (R57, R229) -/

/-- The operation that completes is one of the unit's, begun and not held by the mesh, and the others stay. -/
theorem takeOp_some (u : Nat) (l : List Pend) (p : Pend) (rest : List Pend) (h : takeOp u l = some (p, rest)) :
    p ∈ l ∧ p.unit = u ∧ p.queued = false ∧ p.stuck = false ∧ rest.length + 1 = l.length := by
  induction l generalizing rest with
  | nil => cases h
  | cons q l ih =>
    unfold takeOp at h
    split at h
    · rename_i hq
      split at h
      · cases h
      · rename_i hs
        cases h
        simp only [Bool.and_eq_true, beq_iff_eq, Bool.not_eq_true'] at hq
        exact ⟨List.mem_cons_self .., hq.1, hq.2, by simpa using hs, rfl⟩
    · obtain ⟨⟨q', l'⟩, hl, heq⟩ := Option.map_eq_some_iff.1 h
      cases heq
      obtain ⟨h1, h2, h3, h4, h5⟩ := ih l' hl
      exact ⟨List.mem_cons_of_mem _ h1, h2, h3, h4, by simpa using h5⟩

section
variable {s : State} {c : BitVec 8} {u : BitVec 4} {p : Pend} {rest : List Pend}

/-- With no operation to complete nothing changes. -/
theorem exec_instructionComplete_none (h : takeOp u.toNat (s.core c.toNat).ops = none) : exec (.instructionComplete c u) s = .next s := by
  show execInstructionComplete c u s = _
  simp only [execInstructionComplete, h]

/-- An operation whose packet is unsent or whose sig has no path does not complete yet. -/
theorem exec_instructionComplete_waits (h : takeOp u.toNat (s.core c.toNat).ops = some (p, rest))
    (hw : s.unsent p.sends = true ∨ s.sigHeld c.toNat p.word = true) : exec (.instructionComplete c u) s = .next s := by
  have : (s.unsent p.sends || s.sigHeld c.toNat p.word) = true := by simpa using hw
  show execInstructionComplete c u s = _
  simp only [execInstructionComplete, h, this, if_true]

/-- An operation completes: its merge entries retire, it leaves the core's operations, and its sig is applied. -/
theorem exec_instructionComplete_done (h : takeOp u.toNat (s.core c.toNat).ops = some (p, rest))
    (hs : s.unsent p.sends = false) (hp : s.sigHeld c.toNat p.word = false) : exec (.instructionComplete c u) s =
      .next ((((s.retireOwned p.key).onCore c.toNat fun k => { k with ops := rest }).signal p.word).afterComplete c.toNat) := by
  show execInstructionComplete c u s = _
  simp only [execInstructionComplete, h, hs, hp, Bool.or_self, Bool.false_eq_true, if_false]

end

/-- A core that no SFLAG holds is left by a completion as it is. -/
theorem State.afterComplete_unheld (s : State) (c : Nat) (h : (s.core c).hold ≠ some .flags) : s.afterComplete c = s := by
  simp [State.afterComplete, h]

/-- What a completion leaves: every register and all memory, and every token but the one that the sig names. -/
theorem State.complete_frame (s : State) (c : Nat) (p : Pend) (rest : List Pend) (h : SMap.wf CoreState.init s.cores = true)
    (htok : ∀ d, SMap.wf 0 (s.core d).tokens = true) (hh : (s.core c).hold ≠ some .flags) :
    ∃ t, (((s.retireOwned p.key).onCore c fun k => { k with ops := rest }).signal p.word).afterComplete c = t ∧ (t.core c).ops = rest ∧
      (∀ d, (t.core d).sregs = (s.core d).sregs ∧ (t.core d).vregs = (s.core d).vregs) ∧ t.mem = s.mem ∧ t.tiles = s.tiles ∧
      (Word.sig p.word = false → ∀ d, (t.core d).tokens = (s.core d).tokens) ∧
      (Word.sig p.word = true → (t.core (Word.sigCore p.word)).token (Word.sigToken p.word) =
        min 65535 ((s.core (Word.sigCore p.word)).token (Word.sigToken p.word) + 1)) := by
  have hcount := s.retireOwned_counts p.key
  obtain ⟨x, hx⟩ : ∃ x, (s.retireOwned p.key).onCore c (fun k => { k with ops := rest }) = x := ⟨_, rfl⟩
  have hrwf : SMap.wf CoreState.init (s.retireOwned p.key).cores = true := by rw [hcount.cores]; exact h
  have hxwf : SMap.wf CoreState.init x.cores = true := hx ▸ State.onCore_cores_wf hrwf
  have hxc : x.core c = { s.core c with ops := rest } := by rw [← hx, State.core_onCore hrwf, State.core_congr hcount.cores]
  have hxo (d : Nat) (hd : d ≠ c) : x.core d = s.core d := by
    rw [← hx, State.core_onCore_ne hrwf hd, State.core_congr hcount.cores]
  have hxd (d : Nat) : (x.core d).sregs = (s.core d).sregs ∧ (x.core d).vregs = (s.core d).vregs ∧ (x.core d).tokens = (s.core d).tokens := by
    by_cases hd : d = c
    · rw [hd, hxc]; exact ⟨rfl, rfl, rfl⟩
    · rw [hxo d hd]; exact ⟨rfl, rfl, rfl⟩
  have hcore (d : Nat) : (x.signal p.word).core d = (x.core d).signalled p.word d := State.core_signal x _ _ hxwf
  have hframe (d : Nat) := ((x.core d).signalled_tokened p.word d)
  have hhold : ((x.signal p.word).core c).hold ≠ some .flags := by rw [hcore, (hframe c).sequencer.2.2.1, hxc]; exact hh
  have htoken (d k : Nat) : (x.core d).token k = (s.core d).token k := by simp only [CoreState.token, (hxd d).2.2]
  rw [hx, State.afterComplete_unheld _ _ hhold]
  refine ⟨_, rfl, ?_, fun d => ?_, ?_, ?_, fun hs d => ?_, fun hs => ?_⟩
  · rw [hcore, hframe c, hxc]
  · rw [hcore, hframe d]; exact ⟨(hxd d).1, (hxd d).2.1⟩
  · rw [State.signal_mem, ← hx]; exact hcount.mem
  · rw [State.signal_tiles, ← hx]; exact hcount.tiles
  · rw [hcore, CoreState.signalled, if_neg fun hg => by rw [hs] at hg; exact Bool.false_ne_true hg.1]
    exact (hxd d).2.2
  · rw [hcore, CoreState.token_signalled _ _ hs (by rw [(hxd _).2.2]; exact htok _), htoken]

/-! ### Interlocks (R177, R178) -/

theorem exec_interlockRelease_free (c : BitVec 8) (s : State) (hc : s.clocked = true) (hf : s.interlockFree c.toNat = true) :
    exec (.interlockRelease c) s = .next (s.resume c.toNat) := by
  show execInterlockRelease c s = _
  simp [execInterlockRelease, hc, hf]

theorem exec_interlockRelease_held (c : BitVec 8) (s : State) (h : s.clocked = false ∨ s.interlockFree c.toNat = false) :
    exec (.interlockRelease c) s = .next s := by
  have : (s.clocked && s.interlockFree c.toNat) = false := Bool.and_eq_false_iff.2 h
  show execInterlockRelease c s = _
  simp [execInterlockRelease, this]

theorem drainFuel_eq : drainFuel = drainFuel - 1 + 1 := by unfold drainFuel; omega

/-- A released sequencer issues its held instruction, which was fetched when it was held. -/
theorem State.resume_issues (s : State) (c : Nat) (u : Waiting) (rest : List Waiting) (h : SMap.wf CoreState.init s.cores = true)
    (hw : (s.core c).waiting = u :: rest) (hf : (s.core c).fetched = true) :
    s.resume c = State.drain (drainFuel - 1) c
      ((((s.onCore c fun k => { k with hold := none }).onCore c fun k => { k with waiting := rest }).onCore c
        fun k => { k with fetched := false }).issueFetched c u) := by
  have hcore := State.core_onCore (s := s) (c := c) (f := fun k => { k with hold := none }) h
  have hwf := State.onCore_cores_wf (s := s) (c := c) (f := fun k => { k with hold := none }) h
  obtain ⟨x, hx⟩ : ∃ x, s.onCore c (fun k => { k with hold := none }) = x := ⟨_, rfl⟩
  rw [State.resume, drainFuel_eq, hx]
  rw [hx] at hcore hwf
  rw [State.drain_succ _ c x u rest (by rw [hcore]) (by rw [hcore]; exact hw)]
  have hcore' := State.core_onCore (s := x) (c := c) (f := fun k => { k with waiting := rest }) hwf
  have hfetched : ((x.onCore c fun k => { k with waiting := rest }).core c).fetched = true := by rw [hcore', hcore]; exact hf
  rw [State.issue, hfetched]
  rfl

/-! ### The batching queue (R148) -/

/-- k' differs from k at most in its sticky flags. -/
def CoreState.flagged (k k' : CoreState) : Prop := k' = { k with flags0 := k'.flags0, flags1 := k'.flags1 }

theorem CoreState.flagged.trans {k k' k'' : CoreState} (h1 : k.flagged k') (h2 : k'.flagged k'') : k.flagged k'' :=
  Eq.trans h2 (congrArg (fun x : CoreState => { x with flags0 := k''.flags0, flags1 := k''.flags1 }) h1)

theorem CoreState.raise_flagged (k : CoreState) (step f : Nat) : k.flagged (k.raise step f) := by
  unfold CoreState.raise; split <;> rfl

/-- What a pass of the cell array leaves: the tile buffers, and every core but for its sticky flags. -/
structure State.passed (s t : State) : Prop where
  tiles : t.tiles = s.tiles
  wf : SMap.wf CoreState.init s.cores = true → SMap.wf CoreState.init t.cores = true
  core : SMap.wf CoreState.init s.cores = true → ∀ d, (s.core d).flagged (t.core d)

theorem State.passed.refl (s : State) : s.passed s := ⟨rfl, id, fun _ _ => rfl⟩

theorem State.passed.trans {s t u : State} (h1 : s.passed t) (h2 : t.passed u) : s.passed u :=
  ⟨h2.tiles.trans h1.tiles, fun h => h2.wf (h1.wf h), fun h d => (h1.core h d).trans (h2.core (h1.wf h) d)⟩

theorem State.stores.passed {s t : State} (h : s.stores t) : s.passed t :=
  ⟨h.tiles, fun hw => by rw [h.cores]; exact hw, fun _ d => by rw [State.core_congr h.cores]; rfl⟩

theorem State.passed_foldl {β : Type} (f : State → β → State) (hf : ∀ (s : State) (x : β), s.passed (f s x)) (l : List β) (s : State) :
    s.passed (l.foldl f s) := by
  induction l generalizing s with
  | nil => exact State.passed.refl s
  | cons x l ih => exact (hf s x).trans (ih (f s x))

theorem State.raise_passed (s : State) (c step f : Nat) : s.passed (s.onCore c fun k => k.raise step f) := by
  refine ⟨rfl, State.onCore_cores_wf, fun h d => ?_⟩
  by_cases hd : d = c
  · rw [hd, State.core_onCore h]; exact CoreState.raise_flagged _ _ _
  · rw [State.core_onCore_ne h hd]; rfl

theorem State.noteRows_stores (s : State) (c addr pitch rows fmt n : Nat) (scales : Option Nat) (stride : Nat) :
    s.stores (s.noteRows c addr pitch rows fmt n scales stride) := by
  refine State.stores_foldl _ (fun t r => ?_) _ s
  have hrow := t.noteRead_stores (storeAddr c (addr + r * pitch)) (arrayBytes fmt n)
  split
  · exact hrow.trans (State.noteRead_stores _ _ _)
  · exact hrow

theorem State.noteStream_stores (s : State) (c addr : Nat) (scales : Option Nat) (fmt orient pitch m k : Nat) :
    s.stores (s.noteStream c addr scales fmt orient pitch m k) := by
  unfold State.noteStream; split <;> exact State.noteRows_stores _ _ _ _ _ _ _ _ _

theorem State.addRow_passed (s : State) (c step row mode : Nat) (start : Bool) (index : Nat) (bs : List (Rounded × Bool)) :
    s.passed (s.addRow c step row mode start index bs) := by
  have hread (b : Bool) (t : State) (a n : Nat) : t.stores (if b then t else t.noteRead a n) := by
    split
    · rfl
    · exact State.noteRead_stores _ _ _
  have hsecond (b : Bool) (t : State) (o a : Nat) (xs : List (Byte × Bool)) : t.stores (if b then t.put o a xs else t) := by
    split
    · exact State.put_stores _ _ _ _
    · rfl
  have hflags (t : State) (f : Nat) : t.passed (if f = 0 then t else t.onCore c fun k => k.raise step f) := by
    split
    · exact State.passed.refl t
    · exact State.raise_passed _ _ _ _
  exact State.passed.trans ((((hread _ _ _ _).trans (hread _ _ _ _)).trans ((State.put_stores _ _ _ _).trans (hsecond _ _ _ _ _))).passed)
    (hflags _ _)

theorem State.streamVector_passed (s : State) (c step part : Nat) (q : Int) (fmt : Nat) (set : StatSet) (v : List Elem)
    (row second mode : Nat) (start : Bool) (index : Nat) : s.passed (s.streamVector c step part q fmt set v row second mode start index) := by
  unfold State.streamVector
  dsimp only
  split
  · exact State.addRow_passed _ _ _ _ _ _ _ _
  · exact (State.addRow_passed _ _ _ _ _ _ _ _).trans (State.addRow_passed _ _ _ _ _ _ _ _)

theorem State.streamEntry_passed (s : State) (c : Nat) (set : StatSet) (e : BatchEntry) : s.passed (s.streamEntry c set e) :=
  (State.noteStream_stores _ _ _ _ _ _ _ _ _).passed.trans
    (State.passed_foldl _ (fun _ _ => State.streamVector_passed _ _ _ _ _ _ _ _ _ _ _ _ _) _ _)

theorem State.tellParity_passed (s : State) (c : Nat) (set : StatSet) : s.passed (s.tellParity c set) :=
  (State.records_foldl _ (fun _ _ => State.event_records _ _ _ _ _ _) _ _).counts.stores.passed

/-- A core whose batching queue has been taken for a pass. -/
def CoreState.batchTaken (k : CoreState) : CoreState :=
  { k with active := k.afterBatch.1, loading := k.afterBatch.2, batch := [], ops := k.ops.map fun p => { p with queued := false } }

/-- Issuing the batching queue computes its pass and empties it. -/
theorem State.issueBatch_spec (s : State) (c : Nat) (h : SMap.wf CoreState.init s.cores = true) :
    (s.issueBatch c).tiles = s.tiles ∧ SMap.wf CoreState.init (s.issueBatch c).cores = true ∧ ((s.issueBatch c).core c).batch = [] ∧
      ∀ d, ((s.issueBatch c).core d).sregs = (s.core d).sregs ∧ ((s.issueBatch c).core d).vregs = (s.core d).vregs := by
  by_cases hb : (s.core c).batch.isEmpty = true
  · rw [State.issueBatch, if_pos hb]
    exact ⟨rfl, h, List.isEmpty_iff.1 hb, fun _ => ⟨rfl, rfl⟩⟩
  · have hset : SMap.wf CoreState.init (s.setCore c (s.core c).batchTaken).cores = true := State.setCore_cores_wf h
    have hpass : (s.setCore c (s.core c).batchTaken).passed (s.issueBatch c) := by
      rw [State.issueBatch, if_neg hb]
      dsimp only
      split
      · exact (State.tellParity_passed _ _ _).trans (State.passed_foldl _ (fun _ _ => State.streamEntry_passed _ _ _ _) _ _)
      · exact State.passed.refl _
    refine ⟨hpass.tiles, hpass.wf hset, ?_, fun d => ?_⟩
    · rw [hpass.core hset c, State.core_setCore s c _ h]; rfl
    · rw [hpass.core hset d]
      by_cases hd : d = c
      · rw [hd, State.core_setCore s c _ h]; exact ⟨rfl, rfl⟩
      · rw [State.core_setCore_ne s c d _ h hd]; exact ⟨rfl, rfl⟩

theorem exec_batchWaitExpiry_unclocked (c : BitVec 8) (s : State) (h : s.clocked = false) : exec (.batchWaitExpiry c) s = .next s := by
  show execBatchWaitExpiry c s = _
  simp [execBatchWaitExpiry, h]

theorem exec_batchWaitExpiry (c : BitVec 8) (s : State) (h : s.clocked = true) :
    exec (.batchWaitExpiry c) s = .next ((s.issueBatch c.toNat).onCore c.toNat CoreState.unqueue) := by
  show execBatchWaitExpiry c s = _
  simp [execBatchWaitExpiry, h]

/-- Once the batching queue is empty none of the core's operations waits in it. -/
theorem CoreState.unqueue_ops (k : CoreState) (h : k.batch = []) : ∀ p ∈ k.unqueue.ops, p.queued = false := by
  intro p hp
  rw [CoreState.unqueue, if_pos (by simp [h])] at hp
  obtain ⟨q, -, rfl⟩ := List.mem_map.1 hp
  rfl

/-! ### The end of a block (R57) -/

/-- A CEND that no interlock holds ends its block. -/
theorem State.issueFetched_cend (s : State) (c w : Nat) (ht : s.takes c ⟨.cend, w⟩ = true)
    (hi : s.interlocked .cend (s.issueOf c ⟨.cend, w⟩) = false) : s.issueFetched c ⟨.cend, w⟩ = s.endBlock c ⟨.cend, w⟩ := by
  obtain ⟨hstop, hret⟩ := State.takes_runs ht
  simp [State.issueFetched, CoreState.waitParity, CoreOp.frame, hi]

/-- CEND issues the batching queue and holds the core at the end of its block. -/
theorem exec_cend (c : BitVec 8) (w : IWord) (s : State) (hw : wordStatus .cend w.toNat = none)
    (ht : s.takes c.toNat ⟨.cend, w.toNat⟩ = true) (hi : s.interlocked .cend (s.issueOf c.toNat ⟨.cend, w.toNat⟩) = false)
    (hwf : SMap.wf CoreState.init ((s.issueBatch c.toNat).onCore c.toNat CoreState.unqueue).cores = true) :
    exec (.cend c w) s = .next (s.endBlock c.toNat ⟨.cend, w.toNat⟩) := by
  have hrow := exec_row_submit .cend c w s hw (fun h => nomatch h)
  rw [State.submit_takes ht, State.issueFetched_cend s _ _ ht hi,
    State.drain_held _ _ _ (by rw [State.endBlock, State.holdOn_held _ _ _ _ hwf]; exact fun h => nomatch h)] at hrow
  exact hrow

/-- With nothing batched and nothing outstanding the queue's issue leaves the core as it is. -/
theorem CoreState.unqueue_idle (k : CoreState) (ho : k.ops = []) : k.unqueue = k := by
  unfold CoreState.unqueue
  split
  · cases k; simp_all
  · rfl

theorem State.issueBatch_idle (s : State) (c : Nat) (h : (s.core c).batch = []) : s.issueBatch c = s := by
  simp [State.issueBatch, h]

/-- A CEND at a core with nothing batched, outstanding or waiting only holds the core at the end of its block. -/
theorem State.endBlock_idle (s : State) (c : Nat) (t : Waiting) (h : SMap.wf CoreState.init s.cores = true) (ho : (s.core c).ops = [])
    (hb : (s.core c).batch = []) (hq : (s.core c).waiting = []) :
    SMap.wf CoreState.init ((s.issueBatch c).onCore c CoreState.unqueue).cores = true ∧ s.coreRecords (s.endBlock c t) ∧
      SMap.wf CoreState.init (s.endBlock c t).cores = true ∧
      (s.endBlock c t).core c = { s.core c with hold := some .block, waiting := [t], fetched := true } ∧
      ∀ d, d ≠ c → (s.endBlock c t).core d = s.core d := by
  have hwf := State.onCore_cores_wf (s := s) (c := c) (f := CoreState.unqueue) h
  have hcore : (s.onCore c CoreState.unqueue).core c = s.core c := by rw [State.core_onCore h, CoreState.unqueue_idle _ ho]
  rw [State.endBlock, State.holdOn, State.issueBatch_idle s c hb]
  refine ⟨hwf, rfl, State.onCore_cores_wf hwf, ?_, fun d hd => ?_⟩
  · rw [State.core_onCore hwf, hcore, hq]
  · rw [State.core_onCore_ne hwf hd, State.core_onCore_ne h hd]

/-- The state at the end of a block that has finished: the core at its block's start, no longer among the units with work. -/
def State.blockDone (s : State) (c : Nat) : State :=
  { s.onCore c fun k => { k with index := 0, loops := [], hold := none, waiting := [], fetched := false } with
    crest := { s.crest with units := s.crest.units.erase ⟨0, c⟩ } }

/-- BLOCK_FINISH of a core with operations outstanding changes nothing. -/
theorem exec_blockFinish_waits (c : BitVec 8) (s : State) (u : Waiting) (hh : (s.core c.toNat).hold = some .block)
    (hw : (s.core c.toNat).waiting = [u]) (ho : (s.core c.toNat).ops ≠ []) : exec (.blockFinish c) s = .next s := by
  show execBlockFinish c s = _
  simp [execBlockFinish, hh, hw, ho]

/-- BLOCK_FINISH retires a CEND without a sig once no operation of its core is outstanding. -/
theorem exec_blockFinish_done (c : BitVec 8) (s : State) (u : Waiting) (hh : (s.core c.toNat).hold = some .block)
    (hw : (s.core c.toNat).waiting = [u]) (hs : Word.sig u.word = false) (ho : (s.core c.toNat).ops = []) :
    exec (.blockFinish c) s = .next (s.blockDone c.toNat) := by
  have hsig : s.signal u.word = s := by simp [State.signal, hs]
  show execBlockFinish c s = _
  simp only [execBlockFinish, hh, hw, ho, State.sigHeld, hs, hsig, Bool.and_false, Bool.false_and, List.isEmpty_nil, Bool.not_false,
    Bool.and_self, if_true]
  rfl

/-- The block's own core, and what finishing the block leaves on the others. -/
theorem State.core_blockDone (s : State) (c : Nat) (h : SMap.wf CoreState.init s.cores = true) :
    (s.blockDone c).core c = { s.core c with index := 0, loops := [], hold := none, waiting := [], fetched := false } ∧
      ∀ d, d ≠ c → (s.blockDone c).core d = s.core d :=
  ⟨State.core_onCore (s := s) (c := c) (f := fun k => { k with index := 0, loops := [], hold := none, waiting := [], fetched := false }) h,
    fun _ hd => State.core_onCore_ne (s := s) (c := c)
      (f := fun k => { k with index := 0, loops := [], hold := none, waiting := [], fetched := false }) h hd⟩

/-- Settles O18: each row by the lemmas above about it. -/
theorem coreEventRows : Obligations.CoreEventRows := by
  refine ⟨fun c u s => ⟨exec_instructionComplete_none, fun p rest h => ?_⟩, fun c s => ⟨exec_interlockRelease_free c s,
    exec_interlockRelease_held c s, fun u rest x hclk hfree hw hwf hf hx htakes hunheld hcheck => ?_⟩, fun c s =>
    ⟨exec_batchWaitExpiry_unclocked c s, exec_batchWaitExpiry c s, fun hclk hwf => ?_⟩, fun c w s hw ht hi hwf =>
    ⟨exec_cend c w s hw ht hi hwf, fun hs ho hb hq hsig => ?_⟩, fun c s u hh hw hsig hwf =>
    ⟨exec_blockFinish_waits c s u hh hw, fun ho => ?_⟩⟩
  case refine_1 =>
    obtain ⟨hmem, hunit, hqueued, hstuck, hlen⟩ := takeOp_some _ _ p rest h
    refine ⟨hmem, hunit, hqueued, hstuck, hlen, exec_instructionComplete_waits h, exec_instructionComplete_done h,
      fun hs hp hwf htok hh => ?_⟩
    obtain ⟨t, ht, hframe⟩ := State.complete_frame s c.toNat p rest hwf htok hh
    exact ⟨t, by rw [exec_instructionComplete_done h hs hp, ht], hframe⟩
  case refine_2 =>
    rw [exec_interlockRelease_free c s hclk hfree, State.resume_issues s _ u rest hwf hw hf, ← hx,
      State.issueFetched_performs htakes hunheld hcheck]
  case refine_3 =>
    obtain ⟨htiles, hbwf, hbatch, hregs⟩ := s.issueBatch_spec c.toNat hwf
    have hcore := State.core_onCore (s := s.issueBatch c.toNat) (c := c.toNat) (f := CoreState.unqueue) hbwf
    refine ⟨_, exec_batchWaitExpiry c s hclk, ?_, ?_, fun d => ?_, htiles⟩
    · rw [hcore, CoreState.unqueue_issued]; exact hbatch
    · rw [hcore]; exact CoreState.unqueue_ops _ hbatch
    · by_cases hd : d = c.toNat
      · rw [hd, hcore, CoreState.unqueue_issued]; exact hregs _
      · rw [State.core_onCore_ne hbwf hd]; exact hregs d
  case refine_4 =>
    obtain ⟨hbwf, hrec, htwf, htc, hto⟩ := State.endBlock_idle s c.toNat ⟨.cend, w.toNat⟩ hs ho hb hq
    have hrun := exec_cend c w s hw ht hi hbwf
    generalize s.endBlock c.toNat ⟨.cend, w.toNat⟩ = t at *
    obtain ⟨hdone, hrest⟩ := t.core_blockDone c.toNat htwf
    refine ⟨t, t.blockDone c.toNat, hrun, by rw [htc], by rw [hrec], by rw [hrec],
      exec_blockFinish_done c t ⟨.cend, w.toNat⟩ (by rw [htc]) (by rw [htc]) hsig (by rw [htc]; exact ho),
      by rw [hdone], by rw [hdone], by rw [hdone], ?_, ?_, ?_, fun d => ?_⟩
    · show t.crest.units.erase _ = _; rw [hrec]
    · show t.mem = _; rw [hrec]
    · show t.tiles = _; rw [hrec]
    · by_cases hd : d = c.toNat
      · rw [hd, hdone, htc]; exact ⟨rfl, rfl⟩
      · rw [hrest d hd, hto d hd]; exact ⟨rfl, rfl⟩
  case refine_5 =>
    obtain ⟨hdone, -⟩ := s.core_blockDone c.toNat hwf
    exact ⟨_, exec_blockFinish_done c s u hh hw hsig ho, by rw [hdone], by rw [hdone], rfl, rfl, rfl⟩

end Sys2Proof.Machine
end

section
/-! PROOFS. The work of FILL in both views of HBM3 (R41, R42, R494). -/

namespace Sys2Proof.Machine

/-! ### The spans of an interleaved range -/

/-- Where a span of a stack begins and ends as a canonical address. -/
def spanLo (sp : Nat × Nat × Nat) : Nat := stackView + sp.1 * 2 ^ 36 + sp.2.1
def spanHi (sp : Nat × Nat × Nat) : Nat := stackView + sp.1 * 2 ^ 36 + sp.2.2

/-- Fills of several spans with one pattern: a byte of one of them is the pattern's. -/
theorem Memory.readAt_fillSpans_in (p : Word) (l : List (Nat × Nat × Nat)) (m : Memory) (c : Nat)
    (h8 : ∀ sp ∈ l, spanLo sp % 8 = 0 ∧ spanHi sp % 8 = 0)
    (h : (∃ sp ∈ l, spanLo sp ≤ c ∧ c < spanHi sp) ∨ m.readAt c = (BitVec.ofNat 8 (p.toNat >>> (8 * (c % 8))), false)) :
    (l.foldl (fun m sp => m.fill (spanLo sp) (spanHi sp) p) m).readAt c = (BitVec.ofNat 8 (p.toNat >>> (8 * (c % 8))), false) := by
  induction l generalizing m with
  | nil => exact h.resolve_left fun ⟨_, h, _⟩ => nomatch h
  | cons sp l ih =>
    obtain ⟨hlo, hhi⟩ := h8 sp (List.mem_cons_self ..)
    refine ih _ (fun x hx => h8 x (List.mem_cons_of_mem _ hx)) ?_
    by_cases hin : spanLo sp ≤ c ∧ c < spanHi sp
    · exact Or.inr (Memory.readAt_fill_in m _ _ c p hlo hhi hin.1 hin.2)
    · rcases h with ⟨x, hx, hxc⟩ | h
      · rcases List.mem_cons.1 hx with rfl | hx
        · exact absurd hxc hin
        · exact Or.inl ⟨x, hx, hxc⟩
      · exact Or.inr ((Memory.readAt_fill_out m _ _ c p hlo hhi (by omega)).trans h)

/-- A byte of none of the spans reads as before. -/
theorem Memory.readAt_fillSpans_out (p : Word) (l : List (Nat × Nat × Nat)) (m : Memory) (c : Nat)
    (h8 : ∀ sp ∈ l, spanLo sp % 8 = 0 ∧ spanHi sp % 8 = 0) (h : ∀ sp ∈ l, c < spanLo sp ∨ spanHi sp ≤ c) :
    (l.foldl (fun m sp => m.fill (spanLo sp) (spanHi sp) p) m).readAt c = m.readAt c := by
  induction l generalizing m with
  | nil => rfl
  | cons sp l ih =>
    obtain ⟨hlo, hhi⟩ := h8 sp (List.mem_cons_self ..)
    exact (ih _ (fun x hx => h8 x (List.mem_cons_of_mem _ hx)) fun x hx => h x (List.mem_cons_of_mem _ hx)).trans
      (Memory.readAt_fill_out m _ _ c p hlo hhi (h sp (List.mem_cons_self ..)))

/-- The span of a stack in a range of whole 4 KiB blocks: block A on, N of them. -/
theorem interleavedSpan_blocks (A N m : Nat) :
    interleavedSpan (4096 * A) (4096 * N) m =
      if N = 0 ∨ A + N - 1 < A + (m + 12 - A % 12) % 12 ∨ A + N - 1 < ((A + N - 1) % 12 + 12 - m) % 12 ∨
        A + N - 1 - ((A + N - 1) % 12 + 12 - m) % 12 < A + (m + 12 - A % 12) % 12 then (0, 0)
      else ((A + (m + 12 - A % 12) % 12) / 12 * 4096, ((A + N - 1 - ((A + N - 1) % 12 + 12 - m) % 12) / 12 + 1) * 4096) := by
  have h0 : 4096 * A / 4096 = A := by omega
  have hm0 : 4096 * A % 4096 = 0 := by omega
  have hn0 : (4096 * N = 0) ↔ N = 0 := by omega
  by_cases hN : N = 0
  · simp [interleavedSpan, hN]
  · have h1 : (4096 * A + 4096 * N - 1) / 4096 = A + N - 1 := by omega
    have hm1 : (4096 * A + 4096 * N - 1) % 4096 + 1 = 4096 := by omega
    simp only [interleavedSpan, h0, h1, hm0, hm1, hn0, ite_self, Nat.add_zero, Nat.add_mul, Nat.one_mul]

/-- The span of a stack holds the offsets of just the blocks of the range that are held in that stack. -/
theorem mem_interleavedSpan_iff (A N m o : Nat) (hm : m < 12) :
    ((interleavedSpan (4096 * A) (4096 * N) m).1 ≤ o ∧ o < (interleavedSpan (4096 * A) (4096 * N) m).2) ↔
      A ≤ o / 4096 * 12 + m ∧ o / 4096 * 12 + m < A + N := by
  rw [interleavedSpan_blocks]
  split <;> dsimp only <;> omega

theorem interleavedSpan_aligned (A N m : Nat) :
    (interleavedSpan (4096 * A) (4096 * N) m).1 % 4096 = 0 ∧ (interleavedSpan (4096 * A) (4096 * N) m).2 % 4096 = 0 := by
  rw [interleavedSpan_blocks]
  split <;> dsimp only <;> omega

/-- Which canonical addresses an interleaved range reaches: those of the spans of the 12 stacks. -/
theorem mem_hbmSpans_iff (A N c : Nat) (hlo : 4096 * A < stackView) (hhi : 4096 * (A + N) ≤ stackView) :
    (∃ sp ∈ hbmSpans (4096 * A) (4096 * N), spanLo sp ≤ c ∧ c < spanHi sp) ↔
      ∃ x, 4096 * A ≤ x ∧ x < 4096 * A + 4096 * N ∧ canon x = c := by
  simp only [hbmSpans, if_pos hlo, List.mem_filter, List.mem_map, List.mem_range]
  constructor
  · rintro ⟨_, ⟨⟨m, hm, rfl⟩, -⟩, h1, h2⟩
    simp only [spanLo, spanHi] at h1 h2
    have hmem := (mem_interleavedSpan_iff A N m (c - stackView - m * 2 ^ 36) hm).1 ⟨by omega, by omega⟩
    refine ⟨((c - stackView - m * 2 ^ 36) / 4096 * 12 + m) * 4096 + (c - stackView - m * 2 ^ 36) % 4096, by omega, by omega, ?_⟩
    rw [canon, if_pos (by omega)]
    omega
  · rintro ⟨x, h1, h2, rfl⟩
    have hm : x / 4096 % 12 < 12 := Nat.mod_lt _ (by decide)
    have hmem := (mem_interleavedSpan_iff A N (x / 4096 % 12) (x / 4096 / 12 * 4096 + x % 4096) hm).2 (by omega)
    refine ⟨_, ⟨⟨_, hm, rfl⟩, decide_eq_true (by dsimp only; omega)⟩, ?_⟩
    rw [canon, if_pos (by omega)]
    simp only [spanLo, spanHi]
    omega

theorem hbmSpans_aligned (A N : Nat) (hlo : 4096 * A < stackView) :
    ∀ sp ∈ hbmSpans (4096 * A) (4096 * N), spanLo sp % 4096 = 0 ∧ spanHi sp % 4096 = 0 := by
  simp only [hbmSpans, if_pos hlo, List.mem_filter, List.mem_map, List.mem_range]
  rintro _ ⟨⟨m, -, rfl⟩, -⟩
  obtain ⟨h1, h2⟩ := interleavedSpan_aligned A N m
  unfold spanLo spanHi stackView
  dsimp only
  omega

/-! ### The memory after a FILL -/

/-- A FILL of whole 4 KiB blocks of either view or of another region: every address that shares its canonical place with one of the range
reads as the pattern's byte, unstained, and every other as before. -/
theorem State.fillBytes_reads (s t : State) (A N : Nat) (p : Word) (ht : t.mem = (s.fillBytes (4096 * A) (4096 * N) p).mem)
    (hfit : stackView ≤ 4096 * A ∨ 4096 * (A + N) ≤ stackView) (y : Nat) :
    ((∃ x, 4096 * A ≤ x ∧ x < 4096 * A + 4096 * N ∧ canon x = canon y) →
      t.loadByte y = (BitVec.ofNat 8 (p.toNat >>> (8 * (canon y % 8))), false)) ∧
    ((∀ x, 4096 * A ≤ x → x < 4096 * A + 4096 * N → canon x ≠ canon y) → t.loadByte y = s.loadByte y) := by
  simp only [State.loadByte_eq, ht]
  by_cases hv : stackView ≤ 4096 * A
  · have hmem : (s.fillBytes (4096 * A) (4096 * N) p).mem = s.mem.fill (4096 * A) (4096 * A + 4096 * N) p := by
      unfold State.fillBytes
      split
      · have hspan : hbmSpans (4096 * A) (4096 * N) = [((4096 * A - stackView) / 2 ^ 36, (4096 * A - stackView) % 2 ^ 36,
            (4096 * A - stackView) % 2 ^ 36 + 4096 * N)] := by rw [hbmSpans, if_neg (by omega)]
        have hbase : stackView + (4096 * A - stackView) / 2 ^ 36 * 2 ^ 36 + (4096 * A - stackView) % 2 ^ 36 = 4096 * A := by omega
        simp only [hspan, List.foldl_cons, List.foldl_nil, ← Nat.add_assoc, hbase]
      · rfl
    rw [hmem]
    constructor
    · rintro ⟨x, h1, h2, hx⟩
      rw [← hx, canon_of_stackView_le x (by omega)]
      exact Memory.readAt_fill_in _ _ _ _ _ (by omega) (by omega) h1 h2
    · intro h
      refine Memory.readAt_fill_out _ _ _ _ _ (by omega) (by omega) ?_
      by_contra hc
      exact h (canon y) (by omega) (by omega) (canon_of_stackView_le _ (by omega))
  · have hlo : 4096 * A < stackView := Nat.lt_of_not_le hv
    have hhi := hfit.resolve_left hv
    have hmem : (s.fillBytes (4096 * A) (4096 * N) p).mem =
        (hbmSpans (4096 * A) (4096 * N)).foldl (fun m sp => m.fill (spanLo sp) (spanHi sp) p) s.mem := by
      rw [State.fillBytes, if_pos (Nat.lt_trans hlo (by decide))]
      rfl
    have h8 : ∀ sp ∈ hbmSpans (4096 * A) (4096 * N), spanLo sp % 8 = 0 ∧ spanHi sp % 8 = 0 := fun sp hsp => by
      have := hbmSpans_aligned A N hlo sp hsp; omega
    rw [hmem]
    constructor
    · exact fun h => Memory.readAt_fillSpans_in p _ _ _ h8 (Or.inl ((mem_hbmSpans_iff A N _ hlo hhi).2 h))
    · intro h
      refine Memory.readAt_fillSpans_out p _ _ _ h8 fun sp hsp => ?_
      by_contra hc
      obtain ⟨x, h1, h2, hx⟩ := (mem_hbmSpans_iff A N (canon y) hlo hhi).1 ⟨sp, hsp, by omega, by omega⟩
      exact h x h1 h2 hx

/-- The merge entries that a FILL retires leave memory as it is. -/
theorem State.fillRange_mem_eq (s : State) (a n : Nat) (p : Word) : (s.fillRange a n p).mem = (s.fillBytes a n p).mem := by
  unfold State.fillRange State.fillBytes
  rw [(s.noteWrite_counts 0 a n).mem]
  by_cases h : a < 0x01C000000000
  · rw [if_pos h, if_pos h]
  · rw [if_neg h, if_neg h]

/-- A byte's place in its word is the same at its canonical address. -/
theorem canon_mod_8 (a : Nat) : canon a % 8 = a % 8 := by
  unfold canon stackView; split <;> omega

/-- A range that lies in one region from an interleaved address on lies in the interleaved view. -/
theorem reachable_fits (s : State) (a n : Nat) (hn : 0 < n) (h : s.reachable a n = true) : stackView ≤ a ∨ a + n ≤ stackView := by
  by_contra hc
  have hlo : a < stackView := by omega
  have hhi : ¬ a + n - 1 < stackView := by omega
  have hother : regionOf s.code (a + n - 1) ≠ some .hbm := by
    unfold regionOf
    rw [if_neg hhi]
    dsimp only
    repeat' split
    all_goals exact fun h => nomatch h
  unfold State.reachable at h
  split at h
  · rename_i r r' hr hr'
    rw [regionOf, if_pos hlo] at hr
    split at hr
    · cases hr
      simp only [Bool.and_eq_true, beq_iff_eq] at h
      exact hother (h.1 ▸ hr')
    · cases hr
  · cases h

/-- A completion leaves device memory. -/
theorem State.completeWith_mem (s : State) (d : DescRef) (status extra detail : Nat) :
    (s.completeWith d status extra detail).mem = s.mem := by
  unfold State.completeWith
  dsimp only
  split
  · exact (State.putRecord_records _ _ _).mem
  · rfl

/-- Settles O34: the range reaches just the canonical places that the FILL covers. -/
theorem fillWritesItsPattern : Obligations.FillWritesItsPattern := by
  intro s x _ ha hn hpos hreach
  obtain ⟨A, hA⟩ : ∃ A, fld x.bits 64 48 = 4096 * A := ⟨_, (Nat.mul_div_cancel' (Nat.dvd_of_mod_eq_zero ha)).symm⟩
  obtain ⟨N, hN⟩ : ∃ N, fld x.bits 128 48 = 4096 * N := ⟨_, (Nat.mul_div_cancel' (Nat.dvd_of_mod_eq_zero hn)).symm⟩
  have hfit := reachable_fits s _ _ hpos hreach
  have hpat : (BitVec.ofNat 64 (fld x.bits 192 64)).toNat = fld x.bits 192 64 :=
    (BitVec.toNat_ofNat ..).trans (Nat.mod_eq_of_lt (Nat.mod_lt _ (by decide)))
  have hmem : (s.workFill x).mem = (s.fillBytes (fld x.bits 64 48) (fld x.bits 128 48) (BitVec.ofNat 64 (fld x.bits 192 64))).mem := 
    (State.completeWith_mem _ _ _ _ _).trans (State.fillRange_mem_eq s _ _ _)
  rw [hA, hN] at hmem hfit ⊢
  have hreads := State.fillBytes_reads s _ A N _ hmem (by omega)
  rw [hpat] at hreads
  refine ⟨fun a h1 h2 => ?_, fun y hy => (hreads y).2 hy⟩
  rw [(hreads a).1 ⟨a, h1, h2, rfl⟩, canon_mod_8]

end Sys2Proof.Machine
end

section
/-! PROOFS. Stain marks on contributions (R385) and fabric writes (R422, R423). -/

namespace Sys2Proof.Machine

/-! ### Stain marks -/

/-- The contribution of a step in flight, or of the next one submitted, is marked stained. -/
def State.stainMarked (s : State) : Prop := s.store.heldStain = true ∨ ∃ x ∈ s.steps, x.flying = true ∧ x.first.stain = true

/-- The step of a number is one of the steps. -/
theorem State.step?_mem (s : State) (n : Nat) (r : StepRec) (h : s.step? n = some r) : r ∈ s.steps ∧ r.number = n := by
  unfold State.step? at h
  split at h
  · rename_i r' hr
    cases h
    have hp := List.find?_some hr
    simp only [Bool.and_eq_true, beq_iff_eq] at hp
    exact ⟨List.mem_of_find?_eq_some hr, hp.1⟩
  · exact ⟨List.mem_of_find?_eq_some h, by simpa using List.find?_some h⟩

/-- A change of a step in flight is made on that step. -/
theorem mem_onStep (l : List StepRec) (r : StepRec) (f : StepRec → StepRec) (h : r ∈ l) (hf : r.flying = true) : f r ∈ onStep r.number f l := by
  have hp : (r.number == r.number && r.flying) = true := by simp [hf]
  rw [onStep, if_pos (List.any_eq_true.2 ⟨r, h, hp⟩)]
  exact List.mem_map.2 ⟨r, h, by rw [if_pos hp]⟩

/-- A stain mark put on the step of a number while it is in flight, else held for the next step. -/
def State.markStep (s : State) (m : Nat) : State :=
  match s.step? m with
  | some r => if r.flying then s.updStep m fun r => { r with first := { r.first with stain := true } }
    else { s with store := { s.store with heldStain := true } }
  | none => { s with store := { s.store with heldStain := true } }

/-- A stain mark of step n is put on step n or on the one after it. -/
theorem State.markStain_eq (s : State) (n : Nat) : ∃ m, s.markStain n = s.markStep m := ⟨_, rfl⟩

theorem State.markStep_marks (s : State) (m : Nat) : (s.markStep m).stainMarked := by
  unfold State.markStep
  split
  · rename_i r hr
    obtain ⟨hmem, rfl⟩ := s.step?_mem m r hr
    split
    · rename_i hf
      exact Or.inr ⟨_, mem_onStep s.steps r (fun r => { r with first := { r.first with stain := true } }) hmem hf, hf, rfl⟩
    · exact Or.inl rfl
  · exact Or.inl rfl

/-- A stain mark stands on a step in flight, or is held for the next one. -/
theorem State.markStain_marks (s : State) (n : Nat) : (s.markStain n).stainMarked := by
  obtain ⟨m, hm⟩ := s.markStain_eq n
  rw [hm]; exact s.markStep_marks m

theorem State.markOldest_marks (s : State) : s.markOldest.stainMarked := by
  unfold State.markOldest
  split
  · exact State.markStain_marks _ _
  · exact Or.inl rfl

/-- t differs from s at most in the steps and the parameter store's held mark. -/
def State.marks (s t : State) : Prop := t = { s with steps := t.steps, store := t.store }

theorem State.markStain_frame (s : State) (n : Nat) : s.marks (s.markStain n) := by
  obtain ⟨m, hm⟩ := s.markStain_eq n
  rw [hm]
  unfold State.markStep
  split
  · split <;> rfl
  · rfl

theorem State.markOldest_frame (s : State) : s.marks s.markOldest := by
  unfold State.markOldest
  split
  · exact State.markStain_frame _ _
  · rfl

/-! ### Writes from the fabric -/

/-- What a write of device memory leaves: any function of the state that reads none of the six fields. -/
theorem State.stores.same {s t : State} (h : s.stores t) {β : Type} (f : State → β)
    (hf : ∀ m g l r e v, f { s with mem := m, merge := g, link := l, rings := r, err := e, heldEvents := v } = f s) : f t = f s := by
  rw [h]; exact hf _ _ _ _ _ _

/-- A refused write leaves memory, cores and tile buffers, and marks a contribution. -/
theorem State.refuseWrite_spec (s : State) (l : Nat) (k : Packet) :
    (s.refuseWrite l k).mem = s.mem ∧ (s.refuseWrite l k).cores = s.cores ∧ (s.refuseWrite l k).tiles = s.tiles ∧
      (s.refuseWrite l k).stainMarked := by
  have hmark := State.markStain_frame (s.lEvent 0x12 l (fld k.step.toNat 0 64) k.source) (fld k.step.toNat 0 64)
  have hevent := s.event_records 0x12 3 l (fld k.step.toNat 0 64) k.source
  refine ⟨?_, ?_, ?_, State.markStain_marks _ _⟩
  · rw [State.refuseWrite, hmark]; exact hevent.mem
  · rw [State.refuseWrite, hmark]; exact hevent.cores
  · rw [State.refuseWrite, hmark]; exact hevent.tiles

/-- Bytes of a packet's transfer that have landed with it. -/
def State.landedWith (s : State) (k : Packet) : Nat :=
  ((s.fabric.landed.find? fun x => x.source == k.source && x.transfer == k.transfer).map Landed.bytes).getD 0 + k.body.length

/-- Landing leaves memory. -/
theorem State.land_mem (s : State) (k : Packet) : (s.land k).mem = s.mem := by
  unfold State.land
  dsimp only
  split
  · rfl
  · split
    · rw [State.addToken_mem]; exact (State.retireOwned_counts _ _).mem
    · exact (State.retireOwned_counts _ _).mem

/-- The remote token is signalled by a transfer's last packet only, and only where it has one. -/
theorem State.land_cores (s : State) (k : Packet) (h : s.landedWith k < k.transferLength ∨ k.signal = false) :
    (s.land k).cores = s.cores := by
  unfold State.land
  dsimp only
  split
  · rfl
  · rename_i hfull
    rcases h with h | h
    · exact absurd h hfull
    · rw [h, if_neg Bool.false_ne_true]; exact (State.retireOwned_counts _ _).cores

/-- Settles O40: the three cases of the receiver's map and the access. -/
theorem fabricWritesAreChecked : Obligations.FabricWritesAreChecked := by
  intro s l a k all bs
  refine ⟨fun hmap => ?_, fun hmap hheld => ?_, fun hmap hheld => ?_⟩
  · have hw : s.fabricWrite l k all a bs = s.refuseWrite l k := by simp only [State.fabricWrite, hmap, Bool.not_false, if_true]
    rw [hw]; exact s.refuseWrite_spec l k
  · simp only [State.fabricWrite, hmap, hheld, Bool.not_true, Bool.false_eq_true, if_false, if_true, State.block]
  · have hw : s.fabricWrite l k all a bs = (s.put (transferWriter k.source k.transfer) a bs).land k := by
      simp only [State.fabricWrite, hmap, hheld, Bool.not_true, Bool.false_eq_true, if_false]
    have hput := s.put_stores (transferWriter k.source k.transfer) a bs
    have hlanded : (s.put (transferWriter k.source k.transfer) a bs).landedWith k = s.landedWith k :=
      hput.same (fun s => s.landedWith k) fun _ _ _ _ _ _ => rfl
    rw [hw]
    refine ⟨by rw [State.land_mem, State.put_mem], fun h => ?_, fun h => ?_⟩
    · rw [State.land_cores _ k (Or.inl (hlanded ▸ h))]; exact hput.cores
    · rw [State.land_cores _ k (Or.inr h)]; exact hput.cores

end Sys2Proof.Machine
end

section
/-! PROOFS. Mesh links that fail, beacons that stay out, merge entries that retire (R37, R38, R430, R496). -/

namespace Sys2Proof.Machine

/-! ### Events that are not held (R474, R622) -/

/-- t differs from s at most in the host's memory, the rings and the error log. -/
def State.logs (s t : State) : Prop := t = { s with link := t.link, rings := t.rings, err := t.err }

theorem State.logs.trans {s t u : State} (h1 : s.logs t) (h2 : t.logs u) : s.logs u :=
  Eq.trans h2 (congrArg (fun x : State => { x with link := u.link, rings := u.rings, err := u.err }) h1)

theorem State.hostWrite_logs (s : State) (a : Nat) (bs : List Byte) : s.logs (s.hostWrite a bs) := by
  unfold State.hostWrite; split <;> rfl

theorem State.setRing_logs (s : State) (i : Nat) (r : Ring) : s.logs (s.setRing i r) := rfl

theorem State.interrupt_logs (s : State) (i : Nat) : s.logs (s.interrupt i) := by
  unfold State.interrupt
  dsimp only
  split
  · rfl
  · exact State.logs.trans (t := s.setRing i { s.ring i with holding := decide ((s.ring i).holdoff ≠ 0) }) rfl (State.hostWrite_logs _ _ _)

theorem State.putRecord_logs (s : State) (i body : Nat) : s.logs (s.putRecord i body) := by
  unfold State.putRecord
  split
  · rfl
  · exact State.logs.trans (State.logs.trans (State.hostWrite_logs s _ _) (State.setRing_logs _ i _)) (State.interrupt_logs _ i)

theorem State.reportLost_logs (s : State) : s.logs s.reportLost := by
  unfold State.reportLost
  split
  · rfl
  · exact State.logs.trans (State.putRecord_logs s _ _) rfl

theorem State.putEvent_logs (s : State) (body : Nat) : s.logs (s.putEvent body) := by
  unfold State.putEvent
  split
  · rfl
  · exact State.putRecord_logs s _ _

/-- An event that is neither a hot-plug nor a trip event is never held. -/
theorem State.event_logs (s : State) (code cls src step detail : Nat) (h : code ≠ 0x19) (h' : code ≠ 0x38) :
    s.logs (s.event code cls src step detail) := by
  have hheld : (code == 0x19 || code == 0x38) = false := by simp [h, h']
  simp only [State.event, hheld, Bool.false_and, Bool.false_eq_true, if_false]
  exact (State.reportLost_logs s).trans (State.putEvent_logs _ _)

/-- The state with its partition mark set to b. -/
def State.withPartition (s : State) (b : Bool) : State := { s with partitioned := b }

/-- The partition mark is none of the records. -/
theorem State.logs.withPartition {s t : State} (h : s.logs t) (b : Bool) : (s.withPartition b).logs (t.withPartition b) := by
  unfold State.logs; exact (congrArg (fun x : State => x.withPartition b) h :)

theorem State.logs.partitioned {s t : State} (h : s.logs t) : t.partitioned = s.partitioned := by rw [h]

theorem State.logs.cores {s t : State} (h : s.logs t) : t.cores = s.cores := by rw [h]

theorem State.countRead_logs (s : State) (die k cls src addr : Nat) (m : Mark) : s.logs (s.countRead die k cls src addr m) := by
  unfold State.countRead
  split
  · rfl
  cases m with
  | correctable =>
    dsimp only
    split
    · exact State.logs.trans (t := { s with err := _ }) rfl (State.event_logs _ _ _ _ _ _ (by decide) (by decide))
    · rfl
  | clean => rfl
  | carried => rfl
  | uncorrectable => rfl
  | sweep => rfl

theorem State.noteCodeword_logs (s : State) (w : Nat) (m : Mark) : s.logs (s.noteCodeword w m) := by
  unfold State.noteCodeword
  split
  · rfl
  · rfl
  · exact State.countRead_logs s _ _ _ _ _ _

/-! ### A mesh link that fails (R37, R38) -/

/-- A map whose every value is changed by its key reads changed, where the default stays. -/
theorem SMap.get_map {α : Type} (d : α) (f : Nat → α → α) (hd : ∀ i, f i d = d) (m : SMap α) (i : Nat) :
    SMap.get d (m.map fun p => (p.1, f p.1 p.2)) i = f i (SMap.get d m i) := by
  induction m with
  | nil => exact (hd i).symm
  | cons p m ih =>
    obtain ⟨j, v⟩ := p
    simp only [List.map_cons, SMap.get]
    split
    · rename_i h; rw [h]
    · exact ih

/-- The operations of a core whose transfers cross a link, marked as retried. -/
def CoreState.retriedOver (c : Nat) (l : Nat × Nat) (k : CoreState) : CoreState :=
  { k with ops := k.ops.map fun q => if q.dies.any fun d => (meshPath (c / 32) d).contains l then { q with retried := true } else q }

theorem State.core_retryOps (s : State) (l : Nat × Nat) (c : Nat) : (s.retryOps l).core c = (s.core c).retriedOver c l :=
  SMap.get_map CoreState.init (fun c k => k.retriedOver c l) (fun _ => rfl) s.cores c

/-- The state of a module whose mesh link has failed, before its events. -/
def State.linkOut (s : State) (l : Nat × Nat) : State := State.retryOps { s with meshDown := s.meshDown ++ [l] } l

theorem State.core_linkOut (s : State) (l : Nat × Nat) (c : Nat) : (s.linkOut l).core c = (s.core c).retriedOver c l :=
  State.core_retryOps _ _ _

section
variable {a b : BitVec 5} {s : State}

/-- A link already out of service changes nothing. -/
theorem exec_meshLinkFailure_out (hl : meshLinked a.toNat b.toNat = true) (h : s.meshDown.contains (link a.toNat b.toNat) = true) :
    exec (.meshLinkFailure a b) s = .next s := by
  show execMeshLinkFailure a b s = _
  simp only [execMeshLinkFailure, hl, h, Bool.not_true, Bool.false_eq_true, if_false, if_true]

/-- A link that leaves service: its event, and the partition's where it is the first. -/
theorem exec_meshLinkFailure_in (hl : meshLinked a.toNat b.toNat = true) (h : s.meshDown.contains (link a.toNat b.toNat) = false) :
    ∃ t, exec (.meshLinkFailure a b) s = .next t ∧
      (s.linkOut (link a.toNat b.toNat)).logs (t.withPartition s.partitioned) ∧
      t.partitioned = (s.partitioned || (partner s.meshDown a.toNat b.toNat).isSome) := by
  obtain ⟨e, he⟩ : ∃ e, (s.linkOut (link a.toNat b.toNat)).event 0x07 4 0 noStep (a.toNat + b.toNat <<< 8) = e := ⟨_, rfl⟩
  have hev : (s.linkOut (link a.toNat b.toNat)).logs e := he ▸ State.event_logs _ _ _ _ _ _ (by decide) (by decide)
  have hexec : exec (.meshLinkFailure a b) s = match partner s.meshDown a.toNat b.toNat with
      | some o => if s.partitioned then .next e
        else .next ((e.withPartition true).event 0x1A 4 0 noStep (o.1 + o.2 <<< 8 + a.toNat <<< 16 + b.toNat <<< 24))
      | none => .next e := by
    show execMeshLinkFailure a b s = _
    simp only [execMeshLinkFailure, hl, h, Bool.not_true, Bool.false_eq_true, if_false, ← he]
    rfl
  have hback := hev.withPartition s.partitioned
  rw [hexec]
  cases partner s.meshDown a.toNat b.toNat with
  | none => exact ⟨_, rfl, hback, hev.partitioned.trans (Bool.or_false _).symm⟩
  | some o =>
    by_cases hp : s.partitioned = true
    · exact ⟨e, if_pos hp, hback, hev.partitioned.trans (Bool.or_eq_left_iff_imp.2 fun _ => hp).symm⟩
    · have hpart := State.event_logs (e.withPartition true) 0x1A 4 0 noStep
        (o.1 + o.2 <<< 8 + a.toNat <<< 16 + b.toNat <<< 24) (by decide) (by decide)
      exact ⟨_, if_neg hp, hback.trans (hpart.withPartition s.partitioned), hpart.partitioned.trans (Bool.or_true _).symm⟩

end

/-! ### Beacons (R430) -/

/-- The state of a module that has had no beacon for 64 crest periods, before its event. -/
def State.unaligned (s : State) : State :=
  { s with crest := { s.crest with aligned := false, locking := false, beacons := false, offset := 0x80000000, good := 0 } }

/-- The beacon source has no beacon to lose. -/
theorem exec_beaconLoss_source (s : State) (h : (bit s.crest.control 1 && fld s.crest.control 2 18 == s.address) = true) :
    exec .beaconLoss s = .next s := by
  show execBeaconLoss s = _
  simp only [execBeaconLoss, h, if_true]

/-- Every other module loses its alignment. -/
theorem exec_beaconLoss (s : State) (h : (bit s.crest.control 1 && fld s.crest.control 2 18 == s.address) = false) :
    exec .beaconLoss s = .next (s.unaligned.event 0x13 4 0 noStep 0) := by
  show execBeaconLoss s = _
  simp only [execBeaconLoss, h, Bool.false_eq_true, if_false, State.unaligned]

/-! ### Merge entries (R496, R503) -/

/-- An entry that retires leaves the merge buffer and counts one read. -/
theorem State.retireEntry_logs (s : State) (e : MergeEntry) : State.logs { s with merge := s.merge.erase e } (s.retireEntry e) :=
  State.noteCodeword_logs _ _ _

/-- A good or a carried word is not counted. -/
theorem State.noteCodeword_good (s : State) (w : Nat) (m : Mark) (h : m = .clean ∨ m = .carried) : s.noteCodeword w m = s := by
  rcases h with rfl | rfl <;> rfl

/-- Where no processor runs nothing is counted. -/
theorem State.noteCodeword_idle (s : State) (w : Nat) (m : Mark) (h : s.processors = false) : s.noteCodeword w m = s := by
  unfold State.noteCodeword
  split
  · rfl
  · rfl
  · simp [State.countRead, h]

/-- A read of an unwritten word of stack m is counted at M-die m. -/
theorem State.noteCodeword_sweep (s : State) (w m : Nat) (hp : s.processors = true) (hr : regionOf s.code w = some (.stack m))
    (hwf : SMap.wf ⟨0, 0, 0⟩ s.err.mem = true) :
    (SMap.get ⟨0, 0, 0⟩ (s.noteCodeword w .sweep).err.mem (8 * (8 + m))).unwritten =
      satAdd 21 (SMap.get ⟨0, 0, 0⟩ s.err.mem (8 * (8 + m))).unwritten 1 := by
  simp only [State.noteCodeword, instanceOf, hr, State.countRead, hp, Bool.not_true, Bool.false_eq_true, if_false, Nat.add_zero]
  rw [SMap.get_set_eq _ _ _ _ hwf]

theorem exec_mergeEntryRetire (m : BitVec 4) (s : State) (hm : m.toNat < 12) : exec (.mergeEntryRetire m) s =
    match s.merge.find? fun e => e.mdie == m.toNat with
    | some e => .next (s.retireEntry e)
    | none => .next s := if_neg (by omega)

/-- Settles O44: the three rows by the lemmas above about them. -/
theorem meshAndBeaconLoss : Obligations.MeshAndBeaconLoss := by
  refine ⟨fun a b s hl => ⟨exec_meshLinkFailure_out hl, fun hin => ?_⟩, fun s => ⟨exec_beaconLoss_source s, fun h => ?_⟩,
    fun m s hm => ⟨fun h => ?_, fun e h => ?_⟩⟩
  case refine_1 =>
    obtain ⟨t, ht, hlog, hpart⟩ := exec_meshLinkFailure_in hl hin
    have hdown : t.meshDown = s.meshDown ++ [link a.toNat b.toNat] := congrArg State.meshDown hlog
    have hcore (c : Nat) : t.core c = (s.core c).retriedOver c (link a.toNat b.toNat) :=
      (State.core_congr (t := t) hlog.cores c).trans (s.core_linkOut _ c)
    refine ⟨t, ht, hdown, fun h => by rw [hpart, h]; rfl, fun h => by rw [hpart, h, Bool.or_true], ?_, fun c => ?_⟩
    · have heq := congrArg (fun x : State => { x with partitioned := t.partitioned, cores := t.cores, meshDown := t.meshDown }) hlog
      exact heq
    · rw [hcore c]; exact ⟨rfl, rfl⟩
  case refine_2 =>
    have hev := s.unaligned.event_records 0x13 4 0 noStep 0
    refine ⟨_, exec_beaconLoss s h, ?_⟩
    rw [hev]
    exact ⟨rfl, rfl, rfl, rfl, rfl, rfl, rfl, rfl, rfl⟩
  case refine_3 => rw [exec_mergeEntryRetire m s hm, h]
  case refine_4 =>
    refine ⟨s.retireEntry e, by rw [exec_mergeEntryRetire m s hm, h], s.retireEntry_logs e, fun hgood => ?_, fun hs hp hr hwf => ?_⟩
    · rcases hgood with hg | hg | hg
      · exact State.noteCodeword_good _ _ _ (Or.inl hg)
      · exact State.noteCodeword_good _ _ _ (Or.inr hg)
      · exact State.noteCodeword_idle _ _ _ hg
    · rw [State.retireEntry, hs]
      exact State.noteCodeword_sweep { s with merge := s.merge.erase e } e.word m.toNat hp hr hwf

end Sys2Proof.Machine
end

section
/-! PROOFS. Register writes of the core map and of the ports (R28, R29, R402, R605, R606, R610, R611). -/

namespace Sys2Proof.Machine

/-! ### A write from ATTESTED on (R481, R598) -/

section
variable {s : State} {off : Nat} {f : State → RegResult}

/-- A write that is accepted. -/
theorem State.regWrite_ok {t : State} (h : 4 ≤ s.power.hot.code) (hf : f s = .ok t) : s.regWrite off f = t := by
  have h3 : ¬ s.power.hot.code < 3 := by omega
  have hl : s.power.hot ≠ .linked := fun hl => by rw [hl] at h; exact absurd h (by decide)
  simp [State.regWrite, h3, hl, hf]

/-- A write that is refused with a cause. -/
theorem State.regWrite_error {c : Nat} (h : 4 ≤ s.power.hot.code) (hf : f s = .error c) :
    s.regWrite off f = s.illegalWrite false off c := by
  have h3 : ¬ s.power.hot.code < 3 := by omega
  have hl : s.power.hot ≠ .linked := fun hl => by rw [hl] at h; exact absurd h (by decide)
  simp [State.regWrite, h3, hl, hf]

end

/-! ### The core map (R28, R605, R606) -/

/-- A map that lists a value only where it differs from the default reads as the value. -/
theorem SMap.getD_set_listed (m : SMap (Option Nat)) (k x d : Nat) (h : SMap.wf none m = true) :
    (SMap.get none (SMap.set none m k (if x = d then none else some x)) k).getD d = x := by
  rw [SMap.get_set_eq _ _ _ _ h]
  split
  · rename_i hx; exact hx.symm
  · rfl

/-- The state with the physical cores of logical core n and of its spare exchanged in the map as written. -/
def State.exchanged (s : State) (n : Nat) : State :=
  { s with coreMap := { s.coreMap with
      index := SMap.set none s.coreMap.index n
        (if s.spareIndex (n / 32) (coreClass n) = s.fuseIndex n then none else some (s.spareIndex (n / 32) (coreClass n)))
      spare := SMap.set none s.coreMap.spare (2 * (n / 32) + coreClass n)
        (if s.coreIndex n = s.fuseSpare (n / 32) (coreClass n) then none else some (s.coreIndex n))
      moved := s.coreMap.moved ++ [n] } }

section
variable {v : Word} {s : State}

/-- An exchange with a spare that is marked failed is refused. -/
theorem exec_coreExchange_failed (h : 4 ≤ s.power.hot.code) (hv : fld v.toNat 8 56 = 0) (hp : s.plan = none)
    (hf : bit (SMap.get 0 s.coreMap.failed (fld v.toNat 0 8 / 32)) (s.spareIndex (fld v.toNat 0 8 / 32) (coreClass (fld v.toNat 0 8))) = true) :
    exec (.coreExchange v) s = .next (s.illegalWrite false 0x420 3) :=
  congrArg Host.Outcome.next (State.regWrite_error h (by simp [writeCoreExchange, refuseIf, firstOf, hv, hp, hf]))

/-- An exchange with a good spare. -/
theorem exec_coreExchange_good (h : 4 ≤ s.power.hot.code) (hv : fld v.toNat 8 56 = 0) (hp : s.plan = none)
    (hf : bit (SMap.get 0 s.coreMap.failed (fld v.toNat 0 8 / 32)) (s.spareIndex (fld v.toNat 0 8 / 32) (coreClass (fld v.toNat 0 8))) = false) :
    exec (.coreExchange v) s = .next (s.exchanged (fld v.toNat 0 8)) :=
  congrArg Host.Outcome.next (State.regWrite_ok h (by simp [writeCoreExchange, refuseIf, firstOf, hv, hp, hf, State.exchanged]))

end

/-- An exchange swaps the logical core's physical core with the spare's, and no other core's. -/
theorem State.exchanged_indices (s : State) (n : Nat) (hi : SMap.wf none s.coreMap.index = true) (hs : SMap.wf none s.coreMap.spare = true) :
    (s.exchanged n).coreIndex n = s.spareIndex (n / 32) (coreClass n) ∧
      (s.exchanged n).spareIndex (n / 32) (coreClass n) = s.coreIndex n ∧ ∀ k, k ≠ n → (s.exchanged n).coreIndex k = s.coreIndex k := by
  refine ⟨SMap.getD_set_listed _ _ _ _ hi, SMap.getD_set_listed _ _ _ _ hs, fun k hk => ?_⟩
  show (SMap.get none (SMap.set none s.coreMap.index n _) k).getD (s.fuseIndex k) = _
  rw [SMap.get_set_ne _ _ _ _ _ hi hk]
  rfl

/-! ### Ports (R402, R610, R611) -/

/-- A packet goes out on an ACTIVE port only. -/
theorem State.portOf_active (s : State) (x : Sending) (p : Nat) (h : s.portOf x = some p) : (s.port p).state = .active := by
  have hmem : p ∈ s.portsOf x.ldie := by
    unfold State.portOf at h
    split at h
    · cases h
    · rename_i q hq
      cases h
      rw [hq]; exact List.mem_cons_self ..
    · exact List.mem_of_getElem? h
  have hactive : p ∈ (List.range 32).filter fun q => (s.port q).state = .active := by
    unfold State.portsOf at hmem
    dsimp only at hmem
    split at hmem
    · exact hmem
    · exact (List.mem_filter.1 hmem).1
  exact of_decide_eq_true (List.mem_filter.1 hactive).2

/-- t differs from s at most in ACTIVE ports and in the packets that wait, and every port's state is as it was. -/
structure State.carried (s t : State) : Prop where
  links : s.links t
  wf : SMap.wf Port.init s.fabric.ports = true → SMap.wf Port.init t.fabric.ports = true
  port : SMap.wf Port.init s.fabric.ports = true → ∀ q, (t.port q).state = (s.port q).state ∧
    ((s.port q).state ≠ .active → t.port q = s.port q)

theorem State.carried.refl (s : State) : s.carried s := ⟨rfl, id, fun _ _ => ⟨rfl, fun _ => rfl⟩⟩

theorem State.carried.trans {s t u : State} (h1 : s.carried t) (h2 : t.carried u) : s.carried u := by
  refine ⟨h1.links.trans h2.links, fun h => h2.wf (h1.wf h), fun h q => ?_⟩
  obtain ⟨hs1, hp1⟩ := h1.port h q
  obtain ⟨hs2, hp2⟩ := h2.port (h1.wf h) q
  exact ⟨hs2.trans hs1, fun hq => (hp2 (by rw [hs1]; exact hq)).trans (hp1 hq)⟩

theorem State.carry_carried (s : State) (x : Sending) : s.carried (s.carry x) := by
  have hwait : s.carried { s with fabric := { s.fabric with waits := s.fabric.waits ++ [x] } } := ⟨rfl, id, fun _ _ => ⟨rfl, fun _ => rfl⟩⟩
  unfold State.carry
  dsimp only
  split
  · exact hwait
  · rename_i p hp
    split
    · exact hwait
    · have hactive := s.portOf_active x p hp
      refine ⟨rfl, fun h => SMap.wf_set _ _ _ _ h, fun h q => ?_⟩
      by_cases hq : q = p
      · have hread : ((s.setPort p ((s.port p).transmit x.packet (s.fillFrames (linkBytes x.packet)))).port q) =
            (s.port p).transmit x.packet (s.fillFrames (linkBytes x.packet)) := by rw [hq]; exact SMap.get_set_eq _ _ _ _ h
        rw [hread, hq]
        exact ⟨rfl, fun hn => absurd hactive hn⟩
      · have hread : ((s.setPort p ((s.port p).transmit x.packet (s.fillFrames (linkBytes x.packet)))).port q) = s.port q :=
          SMap.get_set_ne _ _ _ _ _ h hq
        rw [hread]
        exact ⟨rfl, fun _ => rfl⟩

theorem State.pump_carried (s : State) : s.carried s.pump := by
  have hfold (l : List Sending) (t : State) (h : s.carried t) : s.carried (l.foldl State.carry t) := by
    induction l generalizing t with
    | nil => exact h
    | cons x l ih => exact ih _ (h.trans (t.carry_carried x))
  exact hfold _ _ ⟨rfl, id, fun _ _ => ⟨rfl, fun _ => rfl⟩⟩

/-- Packets that a port leaves behind go to ACTIVE ports. -/
theorem State.reroute_carried (s : State) (p : Nat) (q : Port) : s.carried (s.reroute p q) :=
  State.carried.trans (t := { s with fabric := { s.fabric with waits := (q.flying.map fun x => ⟨portDie p, x.2⟩) ++ s.fabric.waits } })
    ⟨rfl, id, fun _ _ => ⟨rfl, fun _ => rfl⟩⟩ (State.pump_carried _)

/-- With no packet in flight and none waiting there is nothing to send elsewhere. -/
theorem State.reroute_idle (s : State) (p : Nat) (q : Port) (hw : s.fabric.waits = []) (hq : q.flying = []) : s.reroute p q = s := by
  have : ({ s with fabric := { s.fabric with waits := (q.flying.map fun x => ⟨portDie p, x.2⟩) ++ s.fabric.waits } } : State) = s := by
    rw [hq]; rfl
  rw [State.reroute, this, State.pump_idle s hw]

/-- A port in DISABLED with nothing left but its caps. -/
def disabledPort (cap capUsed : Nat) : Port := { cap := cap, capUsed := capUsed }

section
variable {p : BitVec 5} {v : Word} {s : State}

theorem exec_portEnable_refused (h : 4 ≤ s.power.hot.code) (hv : fld v.toNat 3 61 = 0) (hc : 2 ≤ fld v.toNat 1 2)
    (hon : bit v.toNat 0 = true) (hr : 3 ≤ s.power.state.code) :
    exec (.portEnable p v) s = .next (s.illegalWrite false (0x3100 + 16 * p.toNat) 3) := by
  have hc' : ¬ fld v.toNat 1 2 < 2 := by omega
  exact congrArg Host.Outcome.next (State.regWrite_error h (by simp [writePortControl, refuseIf, firstOf, hv, hc', hon, hr]))

theorem exec_portEnable_detect (h : 4 ≤ s.power.hot.code) (hv : fld v.toNat 3 61 = 0) (hc : 2 ≤ fld v.toNat 1 2)
    (hon : bit v.toNat 0 = true) (hr : s.power.state.code < 3) (hd : (s.port p.toNat).state = .disabled) :
    exec (.portEnable p v) s =
      .next (s.setPort p.toNat { s.port p.toNat with cap := fld v.toNat 1 2, capUsed := fld v.toNat 1 2, state := .detect }) := by
  have hc' : ¬ fld v.toNat 1 2 < 2 := by omega
  exact congrArg Host.Outcome.next (State.regWrite_ok h (by simp [writePortControl, refuseIf, firstOf, hv, hc', hon, Nat.not_le.2 hr, hd]))

theorem exec_portEnable_enabled (h : 4 ≤ s.power.hot.code) (hv : fld v.toNat 3 61 = 0) (hc : 2 ≤ fld v.toNat 1 2)
    (hon : bit v.toNat 0 = true) (hr : s.power.state.code < 3) (hd : (s.port p.toNat).state ≠ .disabled) :
    exec (.portEnable p v) s = .next s := by
  have hc' : ¬ fld v.toNat 1 2 < 2 := by omega
  exact congrArg Host.Outcome.next (State.regWrite_ok h (by simp [writePortControl, refuseIf, firstOf, hv, hc', hon, Nat.not_le.2 hr, hd]))

theorem exec_portDisable (h : 4 ≤ s.power.hot.code) (hv : fld v.toNat 3 61 = 0) (hc : 2 ≤ fld v.toNat 1 2) (hoff : bit v.toNat 0 = false) :
    exec (.portDisable p v) s = .next (State.reroute (s.setPort p.toNat (disabledPort (fld v.toNat 1 2) (s.port p.toNat).capUsed)) p.toNat
      (s.port p.toNat)).retryCollectives := by
  have hc' : ¬ fld v.toNat 1 2 < 2 := by omega
  exact congrArg Host.Outcome.next (State.regWrite_ok h (by
    simp [writePortControl, refuseIf, firstOf, hv, hc', hoff, Port.off, disabledPort]))

/-! ### FABRIC_ADDRESS (R610, R611) -/

theorem exec_fabricAddress_refused (h : 4 ≤ s.power.hot.code) (hv : fld v.toNat 18 46 = 0)
    (hb : s.plan ≠ none ∨ ∃ x ∈ s.fabric.ports, x.2.state ≠ .disabled) :
    exec (.fabricAddress v) s = .next (s.illegalWrite false 0x3000 3) := by
  have hbusy : (s.plan.isSome || s.fabric.ports.any fun x => decide (x.2.state ≠ .disabled)) = true := by
    rw [Bool.or_eq_true, List.any_eq_true]
    rcases hb with hb | ⟨x, hx, hd⟩
    · exact Or.inl (Option.isSome_iff_ne_none.2 hb)
    · exact Or.inr ⟨x, hx, decide_eq_true hd⟩
  exact congrArg Host.Outcome.next (State.regWrite_error h (by
    rw [writeFabricAddress, hv]; simp only [refuseIf, firstOf, hbusy]; rfl))

/-- Whether an address write changes rack or pod. -/
def State.addressChanges (s : State) (v : Nat) : Bool := fld v 6 7 != s.fabric.rack || fld v 13 5 != s.fabric.pod

/-- The state with rack and pod written; a change clears the four rank tables. -/
def State.addressed (s : State) (v : Nat) : State :=
  { s.rewriteTables (fun w => s.addressChanges v && w.isRank) with
    fabric := { s.fabric with
      rack := fld v 6 7, pod := fld v 13 5, ranks := if s.addressChanges v then [[], [], [], []] else s.fabric.ranks,
      stale := s.fabric.stale || s.addressChanges v } }

theorem exec_fabricAddress (h : 4 ≤ s.power.hot.code) (hv : fld v.toNat 18 46 = 0) (hp : s.plan = none)
    (hd : ∀ x ∈ s.fabric.ports, x.2.state = .disabled) : exec (.fabricAddress v) s = .next (s.addressed v.toNat) := by
  have hidle : (s.plan.isSome || s.fabric.ports.any fun x => decide (x.2.state ≠ .disabled)) = false := by
    rw [hp, Option.isSome_none, Bool.false_or, List.any_eq_false]
    intro x hx
    simp [hd x hx]
  exact congrArg Host.Outcome.next (State.regWrite_ok h (by
    rw [writeFabricAddress, hv]; simp only [refuseIf, firstOf, hidle]; rfl))

end

/-- Settles O55: each row by the lemmas above about it. -/
theorem mapAndPortRows : Obligations.MapAndPortRows := by
  intro v s h
  refine ⟨fun hv hp hi hs => ⟨exec_coreExchange_failed h hv hp, fun hf => ?_⟩, fun d hv => ?_, fun p hv hc =>
    ⟨exec_portEnable_refused h hv hc, exec_portEnable_detect h hv hc, exec_portEnable_enabled h hv hc, fun hoff hwf => ?_⟩, fun hv =>
    ⟨exec_fabricAddress_refused h hv, fun hp hd => ?_⟩⟩
  case refine_1 =>
    obtain ⟨hindex, hspare, hother⟩ := s.exchanged_indices (fld v.toNat 0 8) hi hs
    exact ⟨_, exec_coreExchange_good h hv hp hf, rfl, hindex, hspare, rfl, fun _ => rfl, hother⟩
  case refine_2 =>
    refine ⟨{ s with coreMap := { s.coreMap with failed := SMap.set 0 s.coreMap.failed d.toNat (fld v.toNat 0 34) } },
      congrArg Host.Outcome.next (State.regWrite_ok h (by simp [writeCoreFailed, refuseIf, firstOf, hv])), rfl,
      fun hwf => SMap.get_set_eq _ _ _ _ hwf⟩
  case refine_3 =>
    refine ⟨_, exec_portDisable h hv hc hoff, rfl, fun hcoll => ?_⟩
    obtain ⟨x, hx⟩ : ∃ x, s.setPort p.toNat (disabledPort (fld v.toNat 1 2) (s.port p.toNat).capUsed) = x := ⟨_, rfl⟩
    have hxwf : SMap.wf Port.init x.fabric.ports = true := hx ▸ SMap.wf_set _ _ _ _ hwf
    have hxp : x.port p.toNat = disabledPort (fld v.toNat 1 2) (s.port p.toNat).capUsed := hx ▸ SMap.get_set_eq _ _ _ _ hwf
    have hxq (q : Nat) (hq : q ≠ p.toNat) : x.port q = s.port q := hx ▸ SMap.get_set_ne _ _ _ _ _ hwf hq
    have hcar := x.reroute_carried p.toNat (s.port p.toNat)
    have hnone : (x.reroute p.toNat (s.port p.toNat)).retryCollectives = x.reroute p.toNat (s.port p.toNat) := by
      have : (x.reroute p.toNat (s.port p.toNat)).collectives = [] := by rw [hcar.links, ← hx]; exact hcoll
      rw [State.retryCollectives, this]; rfl
    rw [hx, hnone]
    refine ⟨?_, ?_, fun q hq => ?_, fun hw hfl q hq => ?_⟩
    · have hlink : s.links x := hx ▸ rfl
      exact hlink.trans hcar.links
    · rw [(hcar.port hxwf p.toNat).2 (by rw [hxp]; exact fun h => nomatch h), hxp]; rfl
    · rw [(hcar.port hxwf q).1, hxq q hq]
    · rw [State.reroute_idle x _ _ (by rw [← hx]; exact hw) hfl, hxq q hq]
  case refine_4 =>
    refine ⟨_, exec_fabricAddress h hv hp hd, rfl, rfl, rfl, rfl, fun hr hpod => ?_, fun hch => ?_⟩
    · have hsame : s.addressChanges v.toNat = false := by simp [State.addressChanges, hr, hpod]
      simp [State.addressed, State.rewriteTables, hsame]
    · have hdiff : s.addressChanges v.toNat = true := by simpa [State.addressChanges] using hch
      simp [State.addressed, hdiff]

end Sys2Proof.Machine
end

section
/-! PROOFS. A program word that sends to a lender whose address is wider than 18 bits (R347, R381, R410). -/

namespace Sys2Proof.Machine

/-- A raw entry of M-die 0, of one block, that SHIP sends to a talus store. -/
def talusEntry : ActEntry :=
  { policy := 2, codec := 0, talus := true, fmt := 0, target := 0, beta := 0, kf := 1, mdie := 0, layer := 0, home := 0, bytes := 4096,
    frames := 1, copyBase := 0, capacity := 4096, indexBase := 8192, produce := 0, homeCrest := 0, release := 0, segment := 0, scaleAddr := 0 }

/-- A plan of that entry alone. -/
def talusPlan : Plan :=
  { seed := 0, digest := 0, work := ⟨8000, 1, 0, false, [], [], [], [], [], [], [], [], 0, 0⟩, acts := [talusEntry], buckets := [],
    groups := [], scales := [], apertures := [], sends := [], named := [], fetches := [] }

/-- A lender of no fabric address: its low 18 bits are 0, 0xFC lies over the type field of the header, a 1 over its signal bit. Added to
the header of a talus write (type 0x06), it makes that a GATHER packet (type 0x02) with a signal. -/
def strayLender : Nat := 0xFC <<< 48 + 1 <<< 176

/-- A module at address 0 with the plan, to which that lender is bound. TALUS_BIND binds none such: it takes an 18-bit field. -/
def strayState : State := { State.reset with plan := some talusPlan, power := {}, talus := { bound := some strayLender } }

/-- SHIP of the entry's block. -/
def shipWord : MWord := { op := .ship, word := (3 : IWord).toNat }

/-- Token 0 of core 0 after SHIP on M-die 0. -/
def tokenAfterShip : Option Nat :=
  match exec (MOp.ship.row 0 3) strayState with
  | .next t => some ((t.core 0).token 0)
  | _ => none

/-- The word is legal, neither retires nor waits, and the mesh has a path for it. -/
theorem strayState_runs_ship :
    mwordStatus .ship (3 : IWord).toNat = none ∧ strayState.diesActive = true ∧ (strayState.mdie 0).busy = none ∧
      strayState.mRetires shipWord = false ∧ strayState.mWaits 0 shipWord = false ∧ strayState.mHeldUp 0 shipWord = false ∧
      SMap.wf MDie.init strayState.mdies = true := by decide +kernel

/-- The packet is turned round in the L-die as GATHER data, lands whole, and signals token 0 of core 0. -/
theorem tokenAfterShip_eq : tokenAfterShip = some 1 := by decide +kernel

/-- Refutes O20: the statement holds no bound on the lender's address, and a SHIP to the lender of `strayState` changes a core. -/
theorem not_mdieWordsRun : ¬ Obligations.MdieWordsRun := by
  intro h
  obtain ⟨hlegal, hactive, hidle, hretires, hwaits, hheld, hwf⟩ := strayState_runs_ship
  obtain ⟨-, hruns, -⟩ := h.1 .ship 0 3 strayState (by decide) hlegal
  obtain ⟨-, t, hexec, -, -, -, -, -, -, -, -, hcores, -⟩ := hruns hactive hidle hretires hwaits hheld hwf
  have hsame : t.core 0 = strayState.core 0 := State.core_congr (hcores (by decide) (by decide)).1 0
  have htoken : tokenAfterShip = some ((t.core 0).token 0) := by rw [tokenAfterShip, hexec]
  rw [hsame, tokenAfterShip_eq] at htoken
  exact absurd htoken (by decide)

end Sys2Proof.Machine
end

section
/-! PROOFS. Which commands answer (R63, R221, R598): what the meaning of each family of rows refuses, and that no row faults. -/

namespace Sys2Proof.Machine

/-- The outcome is a next state where p holds, and never a fault. -/
def answers (p : Prop) (o : Host.Outcome State Fault Refusal) : Prop := (p → safe o) ∧ ∀ r, o ≠ .fault r

section
variable {p c : Prop} [Decidable c] {o o' : Host.Outcome State Fault Refusal} {r : Refusal}

theorem answers_next (t : State) : answers p (.next t) := ⟨fun _ => ⟨t, rfl⟩, fun _ h => nomatch h⟩

theorem answers_refused (h : ¬ p) : answers p (.refused r) := ⟨fun hp => absurd hp h, fun _ h => nomatch h⟩

theorem answers_ite (h : answers p o) (h' : answers p o') : answers p (if c then o else o') := by
  split
  · exact h
  · exact h'

theorem answers.mono {q : Prop} (h : answers q o) (hpq : p → q) : answers p o := ⟨fun hp => h.1 (hpq hp), h.2⟩

theorem answers_refuse (h : p → ¬ c) (ho : answers p o) : answers p (if c then .refused r else o) := by
  split
  · rename_i hc; exact answers_refused fun hp => h hp hc
  · exact ho

end

/-- A core's word answers where its plan load accepts it (R220). -/
theorem issueWord_answers (o : CoreOp) (c : BitVec 8) (w : IWord) (s : State) :
    answers ((wordStatus o w.toNat == none) = true) (issueWord o c w s) := by
  cases h : wordStatus o w.toNat with
  | none => rw [issueWord_next o c w s h]; exact answers_next _
  | some st => rw [issueWord_refused o c w s st h]; exact answers_refused (by simp)

/-- An M-die's word answers where the M-die exists and its plan load accepts it (R381). -/
theorem runMword_answers (o : MOp) (m : BitVec 4) (w : IWord) (s : State) :
    answers ((decide (m.toNat < 12) && mwordStatus o w.toNat == none) = true) (runMword o m w s) := by
  refine answers_refuse (fun hp => by simp at hp; omega) ?_
  split
  · rename_i h; exact answers_refused (by simp [h])
  · exact answers_next _

/-- A descriptor's row answers for a descriptor of its kind (R458). -/
theorem performDesc_answers (kind : Nat) (check : State → DescRef → List (Bool × Nat)) (act : State → DescRef → State) (r : BitVec 4)
    (d : Desc) (s : State) : answers ((fld d.toNat 0 8 == kind) = true) (performDesc kind check act r d s) := by
  refine answers_refuse (fun hp => by simpa using hp) ?_
  split
  · exact answers_next _
  · refine answers_ite (answers_next _) ?_
    split <;> exact answers_next _

/-- A packet's row answers for a packet of its type (R411). -/
theorem receive_answers (type : Nat) (act : State → Nat → Packet → Bool → State) (p : BitVec 5) (k : Packet) (s : State) :
    answers ((k.type == type) = true) (receive type act p k s) := by
  refine answers_ite (answers_next _) ?_
  split
  · exact answers_next _
  · exact answers_refuse (fun hp => by simpa using hp) (answers_next _)

/-- A row of MB_COMMAND answers for its code (R562). -/
theorem mailboxWrite_answers (code : Nat) (v : Word) (s : State) : answers ((fld v.toNat 0 8 == code) = true) (mailboxWrite code v s) :=
  answers_refuse (fun hp => by simpa using hp) (answers_next _)

/-- A control row answers for a request of its code (R589). -/
theorem controlRow_answers (code : Nat) (act : State → State) (msg : List Byte) (s : State) :
    answers ((controlRequest msg && msgByte msg 2 == code) = true) (controlRow code act msg s) :=
  answers_refuse (fun hp => by simpa using hp) (answers_ite (answers_next _) (answers_next _))

/-- A Llynyar row answers for a request of its code (R591). -/
theorem vendorRow_answers (code : Nat) (act : State → State) (msg : List Byte) (s : State) :
    answers ((vendorRequest msg && msgByte msg 5 == code) = true) (vendorRow code act msg s) :=
  answers_refuse (fun hp => by simpa using hp) (answers_ite (answers_next _) (answers_next _))

/-- A request without a row of its own goes on by the row of its message type. -/
theorem execUnsupportedControlCommand_answers (msg : List Byte) (s : State) :
    answers (otherRequest msg = true) (execUnsupportedControlCommand msg s) := by
  refine answers_refuse (fun hp => by simpa using hp) ?_
  split
  · rename_i hc
    exact (controlRow_answers (msgByte msg 2) _ msg s).mono fun _ => by simpa using hc
  · rename_i hc
    refine (vendorRow_answers (msgByte msg 5) _ msg s).mono fun hp => ?_
    rw [otherRequest, if_neg hc] at hp
    simp at hp ⊢
    exact hp.1

/-- Each row answers for a well-formed command: rows of one family by what their common meaning refuses, the others by their branches. -/
theorem exec_answers (i : Instr) (s : State) : answers (i.wf = true) (exec i s) := by
  cases i <;> dsimp only [exec, Instr.wf]
  case nop c w | cbegin c w | cend c w | loop c w | twait c w | tsig c w | sli c w | salu c w | sld c w | sst c w | sid c w | sflag c w |
      loadset c w | pass c w | enq c w | flush c w | tclr c w | combine c w | vop c w | vcvt c w | vsplit c w | vperm c w | vsetvl c w |
      vmovs c w | vld c w | vst c w | kload c w | kapply c w | rreg c w | rtrow c w | wrun c w | wpool c w | copy c w | fill c w |
      dsplit c w | fsend c w | frecv c w | bsend c w | kvread c w | kvappend c w | kvflush c w => exact issueWord_answers _ c w s
  case matvec c w =>
    have hwf : (Instr.matvec c w).wf = true → ¬ c.toNat % 32 < 30 ∧ (wordStatus .matvec w.toNat == none) = true := by
      simp [Instr.wf]
    exact answers_refuse (fun hp => (hwf hp).1) ((issueWord_answers .matvec c w s).mono fun hp => (hwf hp).2)
  case pack m w | unpack m w | ship m w | fetch m w | fwait m w | update m w | vcontrib m w | rerun m w | ostage m w | gather m w |
      cwait m w => exact runMword_answers _ m w s
  case planLoad r d | planUnload r d | step r d | abort r d | realign r d | clipFactor r d | ringAdvance r d | shardMap r d |
      rankTable r d | rankMove r d | paramLoad r d | paramRead r d | copyDescriptor r d | fillDescriptor r d | snapshot r d | restore r d |
      talusLend r d | talusEnd r d | talusBind r d | talusRevoke r d | powerState r d | quiesce r d | hbmRepair r d | firmware r d |
      peerLost r d => exact performDesc_answers _ _ _ r d s
  case bucketPacket p k | fsendData p k | gatherData p k | ostageData p k | snapshotCopy p k | talusReadRequest p k | talusReadReply p k |
      talusWrite p k | talusRefusal p k | collectiveData p k | beacon p k | barrierArrive p k | barrierRelease p k |
      verdictContribution p k | verdict p k | rankMovePacket p k | identityQuery p k | identityReply p k | resetPacket p k |
      acknowledgement p k | unreachableNotice p k => exact receive_answers _ _ p k s
  case getReport v | accept v | getCerts v | getStatus v | stageImage v | commitVersion v | setBootSlot v | revokeKey v =>
    exact mailboxWrite_answers _ v s
  case setEndpointId msg | getEndpointId msg | getMctpVersionSupport msg | getMessageTypeSupport msg |
      getVendorDefinedMessageSupport msg => exact controlRow_answers _ _ msg s
  case getState msg | powerEnable msg | powerDisable msg | readFru msg | readSensors msg | readInput msg | readTrip msg | clearTrip msg =>
    exact vendorRow_answers _ _ msg s
  case unsupportedControlCommand msg => exact execUnsupportedControlCommand_answers msg s
  case submissionDoorbell | completionDoorbell | eventDoorbell | crestPeriod | crestControl | arrayCurrentControl |
      batchingWait | zeroStreakThreshold | cReset | mReset | lReset | deviceReset | coreExchange | coreFailed | moduleEnable |
      supplyThermalControl | fabricAddress | portEnable | portDisable | errorStatusClear | countClear | registerWrite | pchgBreak =>
    exact answers_next _
  case interlockRelease | batchWaitExpiry | descriptorFetch | hostReadCompletion | frameRetryExhausted | beaconLoss | presenceClose |
      presenceLoss | inputPowerLoss | enterPowered | cairnBoot | linkDown | supplyDip | overVoltage | powerWarning | processorRestart |
      sidebandControllerStart | firewalledAccess | measureDone => exact answers_ite (answers_next _) (answers_next _)
  case equaliseDone => exact answers_ite (answers_next _) (answers_ite (answers_next _) (answers_next _))
  case coolantEvent => exact answers_ite (answers_next _) (answers_ite (answers_next _) (answers_ite (answers_next _) (answers_next _)))
  case frame =>
    exact answers_ite (answers_next _) (answers_ite (answers_next _) (answers_ite (answers_next _) (answers_next _)))
  case instructionComplete | tokenWaitMet | blockFinish | crestBoundary | lateWorkFinish | overrunRepeat | stepCompletion | normPartial |
      controlPacketResend | heldPacketRelease | quiesceDrained | powerTransition | supplyDipEnd | supplyLow | mailboxResult =>
    dsimp only [execInstructionComplete, execTokenWaitMet, execBlockFinish, execCrestBoundary, execLateWorkFinish, execOverrunRepeat,
      execStepCompletion, execNormPartial, execControlPacketResend, execHeldPacketRelease, execQuiesceDrained, execPowerTransition,
      execSupplyDipEnd, execSupplyLow, execMailboxResult]
    repeat' split
    all_goals exact answers_next _
  case mdieWaitMet | mdieWordFinish =>
    refine answers_refuse (fun h => by simp at h; omega) ?_
    split
    · exact answers_ite (answers_next _) (answers_next _)
    · exact answers_next _
  case mergeEntryRetire =>
    refine answers_refuse (fun h => by simp at h; omega) ?_
    split <;> exact answers_next _
  case descriptorWorkDone =>
    refine answers_refuse (fun h => by simpa [or_iff_not_imp_left] using h) ?_
    split
    · exact answers_next _
    · exact answers_ite (answers_next _) (answers_next _)
  case meshLinkFailure =>
    refine answers_refuse (fun h => by simpa using h) (answers_ite (answers_next _) ?_)
    split
    · exact answers_ite (answers_next _) (answers_next _)
    · exact answers_next _
  case ringEnable | ringDisable | resetDone | stackPoisonDone => exact answers_refuse (fun h => by simp at h; omega) (answers_next _)
  case partnerDetected | stackFault => exact answers_refuse (fun h => by simp at h; omega) (answers_ite (answers_next _) (answers_next _))
  case unknownMailboxCommand => exact answers_refuse (fun h => by simp at h; omega) (answers_next _)
  case linkTrained =>
    exact answers_refuse (fun h => by simpa [BitVec.toNat_eq] using h) (answers_ite (answers_next _) (answers_next _))
  case trip temperature _ _ =>
    exact answers_refuse (fun h => by cases temperature <;> simp at h ⊢; omega) (answers_ite (answers_next _) (answers_next _))
  case irqHoldoffExpiry =>
    exact answers_refuse (fun h => by simp at h; omega) (answers_ite (answers_next _) (answers_ite (answers_next _) (answers_next _)))
  case sensorSample =>
    refine answers_refuse (fun h => by simp at h; omega) (answers_ite (answers_next _) (answers_ite ?_ ?_))
    all_goals exact answers_ite (answers_next _) (answers_next _)

/-- Settles O5: every row answers. -/
theorem wellFormedCommandsAnswer : Obligations.WellFormedCommandsAnswer :=
  ⟨fun i s => (exec_answers i s).1, fun i s => (exec_answers i s).2⟩

end Sys2Proof.Machine
end

section
/-! PROOFS. What the device reads of memory and tiles at reset (R155, R493), and its reset values. -/

namespace Sys2Proof.Machine

/-- A memory that nothing has written reads as swept (R493). -/
theorem Memory.seen_empty (g x : Nat) : ({} : Memory).seen g x = .sweep := if_neg fun h => nomatch h.2

theorem Memory.readAt_empty (c : Nat) : ({} : Memory).readAt c = (0, true) := by
  rw [Memory.readAt, Memory.seen_empty]; rfl

theorem State.loadByte_reset (a : Nat) : State.reset.loadByte a = (0, true) := Memory.readAt_empty (canon a)

theorem State.tileLoad_reset_stained (c t o n : Nat) (b : Byte × Bool) (h : b ∈ State.reset.tileLoad c t o n) : b.2 = true := by
  obtain ⟨i, -, rfl⟩ := List.mem_map.1 h
  exact congrArg Mark.stained (Memory.seen_empty 4 (tileAddr c t (o + i) - tileAddr c t (o + i) % 4))

theorem State.core_reset (c : Nat) : State.reset.core c = CoreState.init := rfl

/-- Settles O2: registers and bytes by the lemmas above, every other value as State.reset gives it. -/
theorem resetState : Obligations.ResetState := by
  refine ⟨rfl, rfl, rfl, rfl, rfl, rfl, rfl, rfl, fun _ => rfl, fun _ => rfl, fun _ _ => rfl, fun c r => ?_, fun c v j => ?_, fun _ => rfl,
    State.loadByte_reset, State.tileLoad_reset_stained, by decide, by decide, by decide, by decide, rfl, rfl⟩
  · rw [State.core_reset]; rfl
  · rw [State.core_reset]; rfl

end Sys2Proof.Machine
end

section
/-! PROOFS. Descriptors that wait for the boundary (R54, R460), the cases of a boundary (R60, R63, R65), and what one without a plan
changes (R51, R52, R54, R62). -/

namespace Sys2Proof.Machine

theorem State.atBoundary_eq (s : State) (d : DescRef) (c : BoundaryCmd) : s.atBoundary d c =
    { s with fetched := s.fetched.erase d, descs := s.descs ++ [d], crest := { s.crest with cmds := s.crest.cmds ++ [c] } } := rfl

/-- The command that a descriptor of order 4 leaves for the boundary (R54, R460). -/
def boundaryCommand (k : Nat) (x : DescRef) : Option BoundaryCmd :=
  match k with
  | 0x02 => some (.unload x)
  | 0x05 => some (.realign (x.f 64 64) x)
  | 0x07 => some (.ringAdvance (x.f 64 48) (x.f 128 32) (x.f 192 64) x)
  | 0x13 => some (.talusBind (x.f 64 18) x)
  | 0x14 => some (.talusRevoke x)
  | 0x15 => some (.power (x.f 64 3) x)
  | 0x19 => some (.peerLost (x.f 64 17) x)
  | _ => none

theorem descriptorEffect_boundary (k : Nat) (s : State) (x : DescRef) (cmd : BoundaryCmd) (h : boundaryCommand k x = some cmd) :
    descriptorEffect k s x = s.atBoundary x cmd := by
  unfold boundaryCommand at h
  split at h
  case h_8 => cases h
  all_goals cases h; rfl

/-- Settles O31: each of the seven kinds leaves its command by atBoundary. -/
theorem boundaryCommandsWait : Obligations.BoundaryCommandsWait := by
  intro k s x hk
  obtain ⟨cmd, hcmd⟩ : ∃ cmd, boundaryCommand k x = some cmd := by
    simp only [List.mem_cons, List.not_mem_nil, or_false] at hk
    rcases hk with rfl | rfl | rfl | rfl | rfl | rfl | rfl <;> exact ⟨_, rfl⟩
  refine ⟨cmd, (descriptorEffect_boundary k s x cmd hcmd).trans (s.atBoundary_eq x cmd), ?_⟩
  refine ⟨?_, ?_, ?_, ?_, ?_, ?_, ?_⟩
  all_goals rintro rfl; exact (Option.some.inj hcmd).symm

/-- Settles O32: the effect appends one step record, whose fields the statement reads. -/
theorem stepAccepted : Obligations.StepAccepted := fun _ _ =>
  ⟨_, rfl, ⟨_, rfl, rfl, rfl, rfl, rfl, rfl, rfl, rfl, rfl, rfl⟩, rfl, rfl, rfl, rfl, rfl⟩

section
variable {s : State} {l : BitVec 32} {d : Deferred}

theorem exec_crestBoundary_deferred (h : s.crest.deferred = some d) : exec .crestBoundary s = .next s := by
  show execCrestBoundary s = _
  unfold execCrestBoundary; rw [h]

theorem exec_crestBoundary_waiting {g : Nat} (h : s.crest.deferred = none) (hw : s.crest.waiting = some g) :
    exec .crestBoundary s = .next (s.resumeCrest g) := by
  show execCrestBoundary s = _
  unfold execCrestBoundary; rw [h, hw]

theorem exec_crestBoundary_late (h : s.crest.deferred = none) (hw : s.crest.waiting = none) (hl : s.lateUnit = some d) :
    exec .crestBoundary s = .next (s.slip d) := by
  show execCrestBoundary s = _
  unfold execCrestBoundary; rw [h, hw, hl]

theorem exec_crestBoundary_due (h : s.crest.deferred = none) (hw : s.crest.waiting = none) (hl : s.lateUnit = none) :
    exec .crestBoundary s = .next s.boundary := by
  show execCrestBoundary s = _
  unfold execCrestBoundary; rw [h, hw, hl]

theorem exec_lateWorkFinish_none (h : s.crest.deferred = none) : exec (.lateWorkFinish l) s = .next s := by
  show execLateWorkFinish l s = _
  unfold execLateWorkFinish; rw [h]

theorem exec_lateWorkFinish_late (hl : s.lateUnit ≠ none) : exec (.lateWorkFinish l) s = .next s := by
  show execLateWorkFinish l s = _
  unfold execLateWorkFinish
  split
  · rw [if_pos (Option.isSome_iff_ne_none.2 hl)]
  · rfl

theorem exec_lateWorkFinish_done (h : s.crest.deferred = some d) (hl : s.lateUnit = none) :
    exec (.lateWorkFinish l) s = .next (s.endDeferred d l.toNat) := by
  show execLateWorkFinish l s = _
  unfold execLateWorkFinish; rw [h, hl]; rfl

theorem exec_overrunRepeat_idle (h : s.crest.deferred = none ∨ s.lateUnit = none) : exec (.overrunRepeat l) s = .next s := by
  show execOverrunRepeat l s = _
  unfold execOverrunRepeat
  split
  · rename_i hd hl; rcases h with h | h
    · rw [h] at hd; cases hd
    · rw [h] at hl; cases hl
  · rfl

theorem exec_overrunRepeat_late {u : Deferred} (h : s.crest.deferred = some d) (hl : s.lateUnit = some u) :
    exec (.overrunRepeat l) s = .next (s.overrunEvent u l.toNat) := by
  show execOverrunRepeat l s = _
  unfold execOverrunRepeat; rw [h, hl]

end

/-- Settles O21: the branches of the three rows, a lemma for each. -/
theorem crestBoundaryCases : Obligations.CrestBoundaryCases := fun _ _ =>
  ⟨exec_crestBoundary_due, fun h hw _ => exec_crestBoundary_late h hw, fun h _ => exec_crestBoundary_waiting h,
    fun _ => exec_crestBoundary_deferred, fun _ => exec_lateWorkFinish_done,
    fun _ _ h hl => ⟨exec_lateWorkFinish_late (by rw [hl]; exact Option.some_ne_none _), exec_overrunRepeat_late h hl⟩,
    fun h => ⟨exec_lateWorkFinish_none h, exec_overrunRepeat_idle (.inl h)⟩⟩

/-! ### A boundary without a plan -/

/-- What keeps a boundary without a plan from anything but counting the crest: no step, no unit at work, no command or realign that waits, no dip,
no locking to a grid, and no beacon to send. -/
structure State.quiet (s : State) : Prop where
  plan : s.plan = none
  steps : s.steps = []
  units : s.crest.units = []
  cmds : s.crest.cmds = []
  waiting : s.crest.waiting = none
  locking : s.crest.locking = false
  beacon : bit s.crest.controlNext 1 = false
  dip : s.power.dip = none

/-- Nothing is late. -/
theorem State.quiet.lateUnit {s : State} (h : s.quiet) : s.lateUnit = none := by
  have hd : s.deciding = none := by rw [State.deciding, State.flight, h.steps]; rfl
  have hb : s.beginning = none := by
    unfold State.beginning
    rw [h.plan]
    split <;> rfl
  simp only [State.lateUnit, h.units, firstUnit, hd, hb]
  exact ite_self none

/-- Records only, one after another: records only. -/
theorem State.logs_foldl {β : Type} (f : State → β → State) (hf : ∀ (s : State) (x : β), s.logs (f s x)) (l : List β) (s : State) :
    s.logs (l.foldl f s) := by
  induction l generalizing s with
  | nil => rfl
  | cons x l ih => exact (hf s x).trans (ih (f s x))

/-- Events of uncorrectable reads change records only. -/
theorem State.tellReads_logs (s : State) : s.logs s.tellReads := by
  have hsay (code : Nat) (h : code ≠ 0x19) (h' : code ≠ 0x38) (l : List CrestReads) (s : State) := State.logs_foldl
    (fun s (x : CrestReads) => s.event code x.cls x.src noStep (x.kind + x.addr <<< 4 + (x.count % 2 ^ 32) <<< 52))
    (fun s _ => s.event_logs _ _ _ _ _ h h') l s
  exact ((hsay 0x21 (by decide) (by decide) s.err.told21 s).trans (hsay 0x22 (by decide) (by decide) s.err.told22 _)).trans rfl

/-- Without such reads there is no event. -/
theorem State.tellReads_idle (s : State) (h21 : s.err.told21 = []) (h22 : s.err.told22 = []) : s.tellReads = s := by
  have herr : ({ s.err with told21 := [], told22 := [] } : ErrorLog) = s.err :=
    calc ({ s.err with told21 := [], told22 := [] } : ErrorLog)
      _ = { s.err with told21 := s.err.told21, told22 := s.err.told22 } := by rw [h21, h22]
      _ = s.err := rfl
  calc s.tellReads
    _ = { s with err := { s.err with told21 := [], told22 := [] } } := by simp only [State.tellReads, h21, h22, List.foldl_nil]
    _ = s := by rw [herr]

theorem State.verdictOrders_planless (s : State) (ran : Option Running) (h : s.plan = none) : s.verdictOrders ran = s.tellReads := by
  have hp : s.tellReads.plan = none := by rw [s.tellReads_logs]; exact h
  simp only [State.verdictOrders, State.sendSnapshots, hp]

theorem State.hostCommands_none (s : State) (first : Option Nat) (h : s.crest.cmds = []) : s.hostCommands first = s := by
  have hc : ({ s.crest with cmds := [] } : CrestState) = s.crest :=
    calc ({ s.crest with cmds := [] } : CrestState)
      _ = { s.crest with cmds := s.crest.cmds } := by rw [h]
      _ = s.crest := rfl
  calc s.hostCommands first
    _ = { s with crest := { s.crest with cmds := [] } } := by simp [State.hostCommands, h, sortMoves]
    _ = s := by rw [hc]

/-- The state with another crest. -/
def State.withCrest (s : State) (c : CrestState) : State := { s with crest := c }

/-- A dip that is not there does not come with the next crest: the counter moves on, and nothing but the crest changes. -/
theorem State.setCounter_of_no_dip (s : State) (n : Nat) (h : s.power.dip = none) : s.setCounter n = s.withCrest (s.setCounter n).crest := by
  have hpower : (s.setCounter n).power = s.power :=
    calc (s.setCounter n).power
      _ = { s.power with dip := s.power.dip.map fun d => { d with crests := d.crests ++ [n] } } := rfl
      _ = { s.power with dip := s.power.dip } := by rw [h]; rfl
      _ = s.power := rfl
  calc s.setCounter n
    _ = { s.withCrest (s.setCounter n).crest with power := (s.setCounter n).power } := rfl
    _ = s.withCrest (s.setCounter n).crest := by rw [hpower]; rfl

theorem State.sendBeacon_none (s : State) (h : bit s.crest.control 1 = false) : s.sendBeacon = s := by
  simp [State.sendBeacon, h]

/-- A crest that carries no work. -/
def CrestState.workless (c : CrestState) : CrestState := { c with running := none, units := [], idle := true }

theorem State.dispatch_planless (s : State) (h : s.plan = none) : s.dispatch = s.withCrest s.crest.workless := by
  unfold State.dispatch
  split
  · rfl
  · rename_i p hp; rw [h] at hp; cases hp

/-- The crest that begins without a plan and off the lock: the counter goes on by one. -/
def State.plainCrest (s : State) : CrestState := { (s.setCounter ((s.crest.counter + 1) % 2 ^ 64)).crest with locking := false }

theorem State.beginCrest_planless (s : State) (hp : s.plan = none) (hl : s.crest.locking = false) (hb : bit s.crest.control 1 = false)
    (hd : s.power.dip = none) : s.beginCrest = s.withCrest s.plainCrest.workless :=
  have hbegin : s.beginCrest = ((s.setCounter ((s.crest.counter + 1) % 2 ^ 64)).withCrest s.plainCrest).sendBeacon.dispatch := by
    simp only [State.beginCrest, hl, Bool.or_false]; rfl
  calc s.beginCrest
    _ = ((s.setCounter ((s.crest.counter + 1) % 2 ^ 64)).withCrest s.plainCrest).sendBeacon.dispatch := hbegin
    _ = ((s.withCrest _).withCrest s.plainCrest).sendBeacon.dispatch :=
      congrArg (fun x : State => (x.withCrest s.plainCrest).sendBeacon.dispatch) (s.setCounter_of_no_dip _ hd)
    _ = (s.withCrest s.plainCrest).dispatch := congrArg State.dispatch (State.sendBeacon_none _ hb)
    _ = s.withCrest s.plainCrest.workless := State.dispatch_planless _ hp

/-- The state when a crest has run to its scheduled end. -/
def State.elapsed (s : State) : State := s.withCrest (s.crest.elapse s.crest.period)

/-- The settings last written put into force (R146, R399). -/
def ArrayControl.applied (a : ArrayControl) : ArrayControl :=
  { a with currentInForce := a.current, batchWaitInForce := a.batchWait, thresholdInForce := a.threshold }

/-- Orders 4 to 6 of a boundary (R54). -/
def State.ordersFourToSix (s : State) : State :=
  let t := (s.hostCommands (if s.crest.cmds.any BoundaryCmd.realigns then none else s.beginning)).applySettings
  if t.crest.waiting.isSome then t.withCrest { t.crest with units := [], idle := true } else t.beginCrest

theorem State.boundary_eq (s : State) : s.boundary =
    (s.elapsed.verdictOrders (if s.elapsed.crest.idle then none else s.elapsed.crest.running)).ordersFourToSix := rfl

/-- With no command and no realign that waits they put the settings into force and begin the next crest. -/
theorem State.ordersFourToSix_idle (s : State) (hc : s.crest.cmds = []) (hw : s.crest.waiting = none) :
    s.ordersFourToSix = s.applySettings.beginCrest := by
  have hfree : ¬ s.applySettings.crest.waiting.isSome = true := by show ¬ s.crest.waiting.isSome = true; simp [hw]
  unfold State.ordersFourToSix
  rw [State.hostCommands_none _ _ hc]
  exact if_neg hfree

/-- Orders 2 to 6 of a boundary without a plan: the reads of the crest are told, the settings come into force, and a crest without work begins. -/
theorem State.boundary_quiet (s : State) (h : s.quiet) :
    s.boundary = { s.elapsed.tellReads with
      crest := s.elapsed.tellReads.applySettings.plainCrest.workless, arrays := s.arrays.applied } := by
  obtain ⟨x, hx⟩ : ∃ x, s.elapsed.tellReads = x := ⟨_, rfl⟩
  have hlogs : s.elapsed.logs x := hx ▸ s.elapsed.tellReads_logs
  have hcrest : x.crest = s.crest.elapse s.crest.period := by rw [hlogs]; rfl
  have hplan : x.plan = none := by rw [hlogs]; exact h.plan
  have hdip : x.power.dip = none := by rw [hlogs]; exact h.dip
  have hcmds : x.crest.cmds = [] := by rw [hcrest]; exact h.cmds
  have hwaiting : x.crest.waiting = none := by rw [hcrest]; exact h.waiting
  have hbeacon : bit x.applySettings.crest.control 1 = false := by
    show bit x.crest.controlNext 1 = false; rw [hcrest]; exact h.beacon
  have hlocking : x.applySettings.crest.locking = false := by
    have : x.crest.locking = false := by rw [hcrest]; exact h.locking
    simp [State.applySettings, this]
  have hboundary : s.boundary = x.applySettings.beginCrest :=
    calc s.boundary
      _ = s.elapsed.tellReads.ordersFourToSix := congrArg State.ordersFourToSix (s.elapsed.verdictOrders_planless _ h.plan)
      _ = x.ordersFourToSix := by rw [hx]
      _ = x.applySettings.beginCrest := x.ordersFourToSix_idle hcmds hwaiting
  rw [hboundary, State.beginCrest_planless x.applySettings hplan hlocking hbeacon hdip, hx]
  have harrays : x.applySettings.arrays = s.arrays.applied := by show x.arrays.applied = _; rw [hlogs]; rfl
  rw [← harrays]; rfl

/-- The crest that such a boundary begins: one more than the last, under the settings last written. -/
theorem State.boundary_quiet_crest (s : State) (h : s.quiet) :
    s.boundary.crest.counter = (s.crest.counter + 1) % 2 ^ 64 ∧ s.boundary.crest.period = s.crest.periodNext ∧
      s.boundary.crest.control = s.crest.controlNext ∧ s.boundary.crest.deferred = s.crest.deferred := by
  have hcrest : s.elapsed.tellReads.crest = s.elapsed.crest := by rw [s.elapsed.tellReads_logs]
  rw [s.boundary_quiet h]
  refine ⟨?_, ?_, ?_, ?_⟩
  · show (s.elapsed.tellReads.crest.counter + 1) % 2 ^ 64 = _; rw [hcrest]; rfl
  · show s.elapsed.tellReads.crest.periodNext = _; rw [hcrest]; rfl
  · show s.elapsed.tellReads.crest.controlNext = _; rw [hcrest]; rfl
  · show s.elapsed.tellReads.crest.deferred = _; rw [hcrest]; rfl

/-- Beside the crest and the settings in force it writes records at most. -/
theorem State.boundary_quiet_logs (s : State) (h : s.quiet) :
    State.logs { s with crest := s.boundary.crest, arrays := s.arrays.applied } s.boundary := by
  have hlogs := s.elapsed.tellReads_logs
  rw [State.logs, s.boundary_quiet h]
  obtain ⟨x, hx⟩ : ∃ x, s.elapsed.tellReads = x := ⟨_, rfl⟩
  rw [hx] at hlogs ⊢
  rw [hlogs]
  rfl

/-- Where no read has to be told, it writes no record. -/
theorem State.boundary_quiet_untold (s : State) (h : s.quiet) (h21 : s.err.told21 = []) (h22 : s.err.told22 = []) :
    s.boundary = { s with crest := s.boundary.crest, arrays := s.arrays.applied } := by
  rw [s.boundary_quiet h, State.tellReads_idle s.elapsed h21 h22]
  rfl

/-! ### The end of a deferral -/

/-- The state at a deferred boundary: the overrun event is written, and the crest has lasted so much longer. -/
def State.overdue (s : State) (d : Deferred) (lateness : Nat) : State :=
  (s.overrunEvent d lateness).withCrest { (s.overrunEvent d lateness).crest.elapse lateness with deferred := none }

theorem State.endDeferred_eq (s : State) (d : Deferred) (lateness : Nat) : s.endDeferred d lateness = (s.overdue d lateness).boundary := rfl

/-- An overrun event is written at once: it is neither a hot-plug nor a trip event. -/
theorem State.overrunEvent_logs (s : State) (d : Deferred) (lateness : Nat) : s.logs (s.overrunEvent d lateness) :=
  s.event_logs _ _ _ _ _ (by decide) (by decide)

theorem State.overdue_logs (s : State) (d : Deferred) (lateness : Nat) :
    State.logs (s.withCrest { s.crest.elapse lateness with deferred := none }) (s.overdue d lateness) := by
  unfold State.overdue
  rw [s.overrunEvent_logs d lateness]
  rfl

theorem State.quiet.overdue {s : State} (h : s.quiet) (d : Deferred) (lateness : Nat) : (s.overdue d lateness).quiet := by
  rw [s.overdue_logs d lateness]
  exact ⟨h.plan, h.steps, h.units, h.cmds, h.waiting, h.locking, h.beacon, h.dip⟩

/-- The boundary that ends a deferral does as one in time; only of the records nothing is said. -/
theorem State.endDeferred_quiet (s : State) (h : s.quiet) (d : Deferred) (lateness : Nat) : ∃ t, s.endDeferred d lateness = t ∧
    t.crest.deferred = none ∧ t.crest.counter = (s.crest.counter + 1) % 2 ^ 64 ∧ t.crest.period = s.crest.periodNext ∧
    t.crest.control = s.crest.controlNext ∧ State.logs { s with crest := t.crest, arrays := s.arrays.applied } t := by
  have hlogs := s.overdue_logs d lateness
  have hover := h.overdue d lateness
  rw [State.endDeferred_eq]
  obtain ⟨x, hx⟩ : ∃ x, s.overdue d lateness = x := ⟨_, rfl⟩
  rw [hx] at hlogs hover ⊢
  have hcrest : x.crest = { s.crest.elapse lateness with deferred := none } := by rw [hlogs]; rfl
  have hframe := x.boundary_quiet_logs hover
  obtain ⟨hcount, hperiod, hcontrol, hdeferred⟩ := x.boundary_quiet_crest hover
  rw [hcrest] at hcount hperiod hcontrol hdeferred
  refine ⟨_, rfl, hdeferred, hcount, hperiod, hcontrol, ?_⟩
  obtain ⟨t, ht⟩ : ∃ t, x.boundary = t := ⟨_, rfl⟩
  rw [ht] at hframe ⊢
  rw [State.logs, hframe, hlogs]
  rfl

/-- Settles O22: boundary_quiet says what such a boundary changes, in time and, after the overrun event, late. -/
theorem idleBoundaryCountsAndApplies : Obligations.IdleBoundaryCountsAndApplies := by
  refine ⟨fun s hp hs hc hw hu hdip hl hb _ h21 h22 => ?_, fun n s => ⟨exec_overrunRepeat_idle, fun h => ?_, fun d e hd he =>
    ⟨_, exec_overrunRepeat_late hd he, rfl, s.overrunEvent_logs e n.toNat⟩⟩⟩
  case refine_1 =>
    have h : s.quiet := ⟨hp, hs, hu, hc, hw, hl, hb, hdip⟩
    refine ⟨fun hd => ?_, fun d n hd => ⟨exec_crestBoundary_deferred hd, ?_⟩⟩
    · obtain ⟨hcount, hperiod, hcontrol, -⟩ := s.boundary_quiet_crest h
      refine ⟨_, exec_crestBoundary_due hd hw h.lateUnit, hcount, hperiod, hcontrol, ?_⟩
      rw [s.boundary_quiet_untold h h21 h22]
      exact ⟨rfl, rfl, rfl, rfl, rfl, rfl, rfl, rfl, rfl⟩
    · obtain ⟨t, ht, hdeferred, hcount, hperiod, hcontrol, hlogs⟩ := s.endDeferred_quiet h d n.toNat
      refine ⟨t, ht ▸ exec_lateWorkFinish_done hd h.lateUnit, hdeferred, hcount, hperiod, hcontrol, ?_⟩
      rw [hlogs]
      exact ⟨rfl, rfl, rfl, rfl, rfl, rfl, rfl, rfl⟩
  case refine_2 =>
    rcases h with h | h
    · exact exec_lateWorkFinish_none h
    · exact exec_lateWorkFinish_late h

end Sys2Proof.Machine
end

section
/-! PROOFS. The completion of a step: its record, its status and what else it changes (R73, R470, R471, R473). -/

namespace Sys2Proof.Machine

/-- The ring that holds the record of a completion of d (R456). -/
def DescRef.record (d : DescRef) : Nat := 16 + d.cring % 4

/-- The state with a descriptor no longer among those fetched and in progress. -/
def State.withoutDesc (s : State) (d : DescRef) : State := { s with descs := s.descs.erase d, fetched := s.fetched.erase d }

/-- The state in which a completion's record is written: its descriptor is done with, and its record no longer reserved. -/
def State.released (s : State) (d : DescRef) : State :=
  (s.setRing d.record { s.ring d.record with reserved := (s.ring d.record).reserved - 1 }).withoutDesc d

/-- The completion of a descriptor writes records and takes the descriptor from those fetched and in progress. -/
theorem State.completeWith_logs (s : State) (d : DescRef) (status extra detail : Nat) :
    (s.withoutDesc d).logs (s.completeWith d status extra detail) := by
  unfold State.completeWith
  dsimp only
  split
  · exact State.logs.trans (t := s.released d) rfl (State.putRecord_logs _ _ _)
  · rfl

theorem State.ring_released (s : State) (d : DescRef) (h : SMap.wf Ring.init s.rings = true) :
    (s.released d).ring d.record = { s.ring d.record with reserved := (s.ring d.record).reserved - 1 } := State.ring_setRing s _ _ h

/-- On an enabled ring the record is written. -/
theorem State.completeWith_enabled (s : State) (d : DescRef) (status extra detail : Nat) (h : SMap.wf Ring.init s.rings = true)
    (he : (s.ring d.record).enable = true) : s.completeWith d status extra detail =
      (s.released d).putRecord d.record (completionRecord (s.released d) d status extra detail) := by
  have : ((s.released d).ring d.record).enable = true := by rw [s.ring_released d h]; exact he
  exact if_pos this

/-- The state with the verdict record of a step in host memory: an aborted step has none (R473). -/
def State.verdictWritten (s : State) (r : StepRec) : State :=
  match r.verdict with
  | some v => if r.area != 0 && !decide (r.phase = .ended stAborted) then s.hostWrite r.area (r.verdictRecord v) else s
  | none => s

theorem State.verdictWritten_host (s : State) (r : StepRec) : ∃ l e, s.verdictWritten r = { s with link := l, err := e } := by
  unfold State.verdictWritten State.hostWrite
  repeat' split
  all_goals exact ⟨_, _, rfl⟩

/-- The state with a step off the list, its verdict record written. -/
def State.stepTaken (s : State) (r : StepRec) : State := { s.verdictWritten r with steps := (s.verdictWritten r).steps.erase r }

/-- The detail of a step's completion (R471). -/
def State.stepDetail (s : State) (r : StepRec) : Nat :=
  r.number + (min r.overruns 65535) <<< 64 + (if r.phase = StepPhase.ended stAborted then 0 else r.verdictCode) <<< 80 + s.store.epoch <<< 82

theorem State.completeStep_eq (s : State) (r : StepRec) : s.completeStep r =
    (s.stepTaken r).completeWith r.desc (s.stepStatus r) (completionExtra r.superseded r.voidCauses r.flags false) (s.stepDetail r) := by
  have hstore : (s.verdictWritten r).store = s.store := by
    obtain ⟨l, e, h⟩ := s.verdictWritten_host r
    rw [h]
  unfold State.completeStep State.stepDetail
  rw [← hstore]
  simp only [decide_eq_true_eq]
  rfl

theorem State.stepTaken_host (s : State) (r : StepRec) : ∃ l e, s.stepTaken r = { s with steps := s.steps.erase r, link := l, err := e } := by
  obtain ⟨l, e, h⟩ := s.verdictWritten_host r
  exact ⟨l, e, by rw [State.stepTaken, h]⟩

/-- The step and its descriptor are off their lists; beside that the completion writes records only. -/
theorem State.completeStep_logs (s : State) (r : StepRec) : State.logs
    { s.withoutDesc r.desc with steps := s.steps.erase r } (s.completeStep r) := by
  have htaken : State.logs { s.withoutDesc r.desc with steps := s.steps.erase r } ((s.stepTaken r).withoutDesc r.desc) := by
    obtain ⟨l, e, h⟩ := s.stepTaken_host r
    rw [h]; rfl
  rw [s.completeStep_eq r]
  exact htaken.trans (State.completeWith_logs _ _ _ _ _)

theorem State.completeStep_frame (s : State) (r : StepRec) :
    (s.completeStep r).steps = s.steps.erase r ∧ (s.completeStep r).mem = s.mem ∧ (s.completeStep r).tiles = s.tiles ∧
      (s.completeStep r).cores = s.cores ∧ (s.completeStep r).store = s.store ∧ (s.completeStep r).scales = s.scales := by
  rw [s.completeStep_logs r]
  exact ⟨rfl, rfl, rfl, rfl, rfl, rfl⟩

/-- On an enabled ring the step's completion record is written (R470, R471). -/
theorem State.completeStep_enabled (s : State) (r : StepRec) (h : SMap.wf Ring.init s.rings = true)
    (he : (s.ring r.desc.record).enable = true) : ∃ y : State,
      s.completeStep r = y.putRecord r.desc.record (completionRecord y r.desc (s.stepStatus r)
        (completionExtra r.superseded r.voidCauses r.flags false) (s.stepDetail r)) ∧
      y = { s with steps := s.steps.erase r, descs := s.descs.erase r.desc, fetched := s.fetched.erase r.desc, rings := y.rings,
                   link := y.link, err := y.err } ∧
      (y.ring r.desc.record).prod = (s.ring r.desc.record).prod := by
  obtain ⟨l, e, hx⟩ := s.stepTaken_host r
  have hrings : (s.stepTaken r).rings = s.rings := by rw [hx]
  have hwf : SMap.wf Ring.init (s.stepTaken r).rings = true := by rw [hrings]; exact h
  have hring : (s.stepTaken r).ring r.desc.record = s.ring r.desc.record := by rw [hx]; rfl
  refine ⟨(s.stepTaken r).released r.desc, ?_, ?_, ?_⟩
  · rw [s.completeStep_eq r]
    exact State.completeWith_enabled _ _ _ _ _ hwf (by rw [hring]; exact he)
  · rw [hx]; rfl
  · rw [State.ring_released _ _ hwf, hring]

section
variable {s : State} {r : StepRec}

theorem State.stepStatus_peerLost (h : r.peerLost = true) : s.stepStatus r = stPeerLost := if_pos h

theorem State.stepStatus_ended {st : Nat} (h : r.peerLost = false) (hp : r.phase = .ended st) : s.stepStatus r = st := by
  simp [State.stepStatus, h, hp]

/-- A committed step: a void cause ranks above an overrun (R73). -/
theorem State.stepStatus_committed (h : r.peerLost = false) (hp : r.phase = .committed) :
    s.stepStatus r = if r.voidCauses = 0 then if r.overruns = 0 then stDone else stCrestOverrun else stDeterminismVoid := by
  simp [State.stepStatus, h, hp]

theorem exec_stepCompletion_none {n : Word} (h : (s.steps.find? fun r => r.number == n.toNat && r.due) = none) :
    exec (.stepCompletion n) s = .next s := by
  show execStepCompletion n s = _
  unfold execStepCompletion; rw [h]

theorem exec_stepCompletion_due {n : Word} (h : (s.steps.find? fun r => r.number == n.toNat && r.due) = some r) :
    exec (.stepCompletion n) s = .next (s.completeStep r) := by
  show execStepCompletion n s = _
  unfold execStepCompletion; rw [h]

end

/-- Settles O23: the completion's frame, its record, and the order of the statuses. -/
theorem stepCompletionRow : Obligations.StepCompletionRow := by
  intro n s
  refine ⟨exec_stepCompletion_none, fun r hr => ?_⟩
  obtain ⟨hnumber, hdue⟩ : r.number = n.toNat ∧ r.due = true := by simpa using List.find?_some hr
  obtain ⟨hsteps, hmem, htiles, hcores, hstore, hscales⟩ := s.completeStep_frame r
  refine ⟨hnumber, hdue, State.stepStatus_peerLost, fun h st hp => State.stepStatus_ended h hp,
    fun h hp hv => ?_, fun h hp hv ho => ?_, fun h hp hv ho => ?_, exec_stepCompletion_due hr,
    hsteps, hmem, htiles, hcores, hstore, hscales, fun he hwf => s.completeStep_enabled r hwf he⟩
  case refine_1 => rw [State.stepStatus_committed h hp, if_neg hv]
  case refine_2 => rw [State.stepStatus_committed h hp, if_pos hv, if_neg ho]
  case refine_3 => rw [State.stepStatus_committed h hp, if_pos hv, if_pos ho]

end Sys2Proof.Machine
end

section
/-! PROOFS. The settings of crest, arrays, thresholds and supply: what a write takes and what it refuses (R146, R399, R538, R604). -/

namespace Sys2Proof.Machine

/-- A write from ATTESTED on of a register that checks its value only: a value that passes takes effect, any other is refused with cause 2. -/
theorem State.regWrite_checked {s t : State} {off : Nat} {f : State → RegResult} {b : Bool} (h : 4 ≤ s.power.hot.code)
    (hf : f s = refuseIf [(b, 2)] t) :
    (b = false → s.regWrite off f = t) ∧ (b = true → s.regWrite off f = s.illegalWrite false off 2) :=
  ⟨fun hb => State.regWrite_ok h (by rw [hf, hb]; rfl), fun hb => State.regWrite_error h (by rw [hf, hb]; rfl)⟩

/-- A write from ATTESTED on of a register that checks its value, and then what it must not find under way: cause 3 where it does. -/
theorem State.regWrite_checked_idle {s t : State} {off : Nat} {f : State → RegResult} {b busy : Bool} (h : 4 ≤ s.power.hot.code)
    (hf : f s = refuseIf [(b, 2), (busy, 3)] t) :
    (b = false → busy = false → s.regWrite off f = t) ∧ (b = false → busy = true → s.regWrite off f = s.illegalWrite false off 3) ∧
      (b = true → s.regWrite off f = s.illegalWrite false off 2) :=
  ⟨fun hb hi => State.regWrite_ok h (by rw [hf, hb, hi]; rfl), fun hb hi => State.regWrite_error h (by rw [hf, hb, hi]; rfl),
    fun hb => State.regWrite_error h (by rw [hf, hb]; rfl)⟩

/-- A field's slot is its low six bits (R420). -/
theorem badAddress_fld (v lo : Nat) : badAddress (fld v lo 18) = decide (33 < fld v lo 6) := by
  rw [badAddress, fld, fld, Nat.mod_mod_of_dvd _ (by decide : 64 ∣ 2 ^ 18)]; rfl

section
variable {v : Word} {s : State} (h : 4 ≤ s.power.hot.code)
include h

theorem exec_crestPeriod :
    (2000 ≤ v.toNat → v.toNat ≤ 1000000 → s.plan = none →
      exec (.crestPeriod v) s = .next { s with crest := { s.crest with periodNext := v.toNat } }) ∧
    (2000 ≤ v.toNat → v.toNat ≤ 1000000 → s.plan ≠ none → exec (.crestPeriod v) s = .next (s.illegalWrite false 0x200 3)) ∧
    (v.toNat < 2000 ∨ 1000000 < v.toNat → exec (.crestPeriod v) s = .next (s.illegalWrite false 0x200 2)) := by
  obtain ⟨hok, hbusy, hbad⟩ := State.regWrite_checked_idle (off := 0x200) (f := writeCrestPeriod v.toNat) h rfl
  refine ⟨fun hlo hhi hp => congrArg Host.Outcome.next (hok ?_ ?_), fun hlo hhi hp => congrArg Host.Outcome.next (hbusy ?_ ?_),
    fun hv => congrArg Host.Outcome.next (hbad ?_)⟩
  · simp; omega
  · rw [hp]; rfl
  · simp; omega
  · exact Option.isSome_iff_ne_none.2 hp
  · simpa using hv

/-- CREST_CONTROL is checked by its reserved bits and its source address. -/
theorem exec_crestControl :
    (fld v.toNat 20 44 = 0 → (bit v.toNat 1 = true → fld v.toNat 2 6 ≤ 33) →
      exec (.crestControl v) s = .next { s with crest := { s.crest with controlNext := v.toNat } }) ∧
    (fld v.toNat 20 44 ≠ 0 ∨ (bit v.toNat 1 = true ∧ 33 < fld v.toNat 2 6) →
      exec (.crestControl v) s = .next (s.illegalWrite false 0x208 2)) := by
  obtain ⟨hok, hbad⟩ := State.regWrite_checked (off := 0x208) (f := writeCrestControl v.toNat) h rfl
  refine ⟨fun hr ha => congrArg Host.Outcome.next (hok ?_), fun hv => congrArg Host.Outcome.next (hbad ?_)⟩
  · simpa [badAddress_fld, hr] using ha
  · simpa [badAddress_fld] using hv

theorem exec_arrayCurrentControl :
    (fld v.toNat 16 7 ≤ 64 → bit v.toNat 23 = false → fld v.toNat 56 8 = 0 →
      exec (.arrayCurrentControl v) s = .next { s with arrays := { s.arrays with current := v.toNat } }) ∧
    (64 < fld v.toNat 16 7 ∨ bit v.toNat 23 = true ∨ fld v.toNat 56 8 ≠ 0 →
      exec (.arrayCurrentControl v) s = .next (s.illegalWrite false 0x400 2)) := by
  obtain ⟨hok, hbad⟩ := State.regWrite_checked (off := 0x400) (f := writeArrayCurrent v.toNat) h rfl
  refine ⟨fun hd hb hr => congrArg Host.Outcome.next (hok ?_), fun hv => congrArg Host.Outcome.next (hbad ?_)⟩
  · simp [hd, hb, hr]
  · simpa [or_assoc] using hv

theorem exec_batchingWait :
    (v.toNat ≤ 65535 → exec (.batchingWait v) s = .next { s with arrays := { s.arrays with batchWait := v.toNat } }) ∧
    (65535 < v.toNat → exec (.batchingWait v) s = .next (s.illegalWrite false 0x408 2)) := by
  obtain ⟨hok, hbad⟩ := State.regWrite_checked (off := 0x408) (f := writeBatchWait v.toNat) h rfl
  exact ⟨fun hv => congrArg Host.Outcome.next (hok (by simpa using hv)), fun hv => congrArg Host.Outcome.next (hbad (by simpa using hv))⟩

theorem exec_zeroStreakThreshold :
    (1 ≤ v.toNat → v.toNat ≤ 65535 →
      exec (.zeroStreakThreshold v) s = .next { s with arrays := { s.arrays with threshold := v.toNat } }) ∧
    (v = 0 ∨ 65535 < v.toNat → exec (.zeroStreakThreshold v) s = .next (s.illegalWrite false 0x410 2)) := by
  obtain ⟨hok, hbad⟩ := State.regWrite_checked (off := 0x410) (f := writeThreshold v.toNat) h rfl
  refine ⟨fun h0 hv => congrArg Host.Outcome.next (hok ?_), fun hv => congrArg Host.Outcome.next (hbad ?_)⟩
  · simp [hv]; omega
  · simpa [BitVec.toNat_eq] using hv

/-- SUPPLY_THERMAL_CONTROL is checked field by field; a dip starts where the latest input is below the new level (R538). -/
theorem exec_supplyThermalControl :
    (520 ≤ fld v.toNat 0 10 → fld v.toNat 0 10 ≤ 580 → fld v.toNat 10 6 = 0 → 85 ≤ fld v.toNat 16 7 → fld v.toNat 16 7 ≤ 110 →
      bit v.toNat 23 = false → 70 ≤ fld v.toNat 24 7 → fld v.toNat 24 7 ≤ 95 → bit v.toNat 31 = false →
      (fld v.toNat 32 12 = 0 ∨ (100 ≤ fld v.toNat 32 12 ∧ fld v.toNat 32 12 ≤ 400)) → fld v.toNat 44 20 = 0 →
      exec (.supplyThermalControl v) s = .next { s with power := { s.power with
        supply := v.toNat,
        dip := if s.power.dip = none ∧ 0 < fld s.monitor.input 0 16 ∧ fld s.monitor.input 0 16 < fld v.toNat 0 10 * 10 then
          some ⟨fld s.monitor.input 0 16, [s.crest.counter]⟩ else s.power.dip } }) ∧
    (fld v.toNat 0 10 < 520 ∨ 580 < fld v.toNat 0 10 ∨ fld v.toNat 10 6 ≠ 0 ∨ fld v.toNat 16 7 < 85 ∨ 110 < fld v.toNat 16 7 ∨
        bit v.toNat 23 = true ∨ fld v.toNat 24 7 < 70 ∨ 95 < fld v.toNat 24 7 ∨ bit v.toNat 31 = true ∨
        (fld v.toNat 32 12 ≠ 0 ∧ (fld v.toNat 32 12 < 100 ∨ 400 < fld v.toNat 32 12)) ∨ fld v.toNat 44 20 ≠ 0 →
      exec (.supplyThermalControl v) s = .next (s.illegalWrite false 0x2000 2)) := by
  obtain ⟨hok, hbad⟩ := State.regWrite_checked (off := 0x2000) (f := writeSupply v.toNat) h rfl
  refine ⟨fun hvolt hvolt' hlow hjunction hjunction' hmid hstack hstack' hhigh hwatt htop =>
    congrArg Host.Outcome.next ((hok ?_).trans ?_), fun hv => congrArg Host.Outcome.next (hbad ?_)⟩
  · simpa [hvolt, hvolt', hlow, hjunction, hjunction', hmid, hstack, hstack', hhigh, htop, or_iff_not_imp_left] using hwatt
  · simp [and_assoc]
  · simpa [or_assoc] using hv

end

/-- Settles O52: each register by the checks of its row. -/
theorem settingsTakeWrites : Obligations.SettingsTakeWrites := by
  intro v s h
  obtain ⟨hperiod, hplanned, hperiod'⟩ := exec_crestPeriod (v := v) h
  obtain ⟨hcontrol, hcontrol'⟩ := exec_crestControl (v := v) h
  obtain ⟨hcurrent, hcurrent'⟩ := exec_arrayCurrentControl (v := v) h
  obtain ⟨hwait, hwait'⟩ := exec_batchingWait (v := v) h
  obtain ⟨hstreak, hstreak'⟩ := exec_zeroStreakThreshold (v := v) h
  exact ⟨hperiod, hplanned, hperiod', hcontrol, hcontrol', hcurrent, hcurrent', hwait, hwait', hstreak, hstreak',
    exec_supplyThermalControl h⟩

end Sys2Proof.Machine
end

section
/-! PROOFS. Decoding a binary floating-point code and rounding the value gives the code again (R87, R88, R89, R189). -/

namespace Sys2Proof.Machine

/-! ### Fields of a code (R86) -/

/-- A code is its sign, its exponent field and its mantissa field. -/
theorem Fp.sign_add_fields (f : Fp) (code : Nat) (h : code < 2 ^ f.width) :
    f.sign (bit code (f.ebits + f.mbits)) + (fld code f.mbits f.ebits * 2 ^ f.mbits + fld code 0 f.mbits) = code := by
  have htop : code / 2 ^ (f.ebits + f.mbits) < 2 :=
    Nat.div_lt_of_lt_mul (by rwa [Fp.width, Nat.add_assoc, Nat.add_comm, Nat.pow_succ] at h)
  have hsign : f.sign (bit code (f.ebits + f.mbits)) = code / 2 ^ (f.ebits + f.mbits) * 2 ^ (f.ebits + f.mbits) := by
    rw [Fp.sign, bit, Nat.shiftRight_eq_div_pow]
    rcases Nat.lt_succ_iff_lt_or_eq.1 htop with hlow | hhigh
    · simp [Nat.lt_one_iff.1 hlow]
    · simp [hhigh]
  have hmant := Nat.div_add_mod' code (2 ^ f.mbits)
  have hexp := Nat.div_add_mod' (code / 2 ^ f.mbits) (2 ^ f.ebits)
  rw [Nat.div_div_eq_div_mul, ← Nat.pow_add, Nat.add_comm f.mbits] at hexp
  calc _ = (code / 2 ^ (f.ebits + f.mbits) * 2 ^ f.ebits + code / 2 ^ f.mbits % 2 ^ f.ebits) * 2 ^ f.mbits + code % 2 ^ f.mbits := by
        rw [hsign, fld, fld, Nat.shiftRight_eq_div_pow, Nat.shiftRight_zero, Nat.pow_add, Nat.add_mul]; ring
    _ = code := by rw [hexp, hmant]

/-- The integer significand of an exponent field and a mantissa field (R87): subnormals have no leading one. -/
def Fp.significand (f : Fp) (ex m : Nat) : Nat := if ex = 0 then m else m + 2 ^ f.mbits

theorem Fp.significand_lt (f : Fp) (ex m : Nat) (h : m < 2 ^ f.mbits) : f.significand ex m < 2 ^ (f.mbits + 1) := by
  rw [Fp.significand, Nat.pow_succ]; split <;> omega

/-- The leading one of a normal number steps the exponent field by one. -/
theorem Fp.significand_add (f : Fp) (ex m : Nat) : (max ex 1 - 1) * 2 ^ f.mbits + f.significand ex m = ex * 2 ^ f.mbits + m := by
  rcases ex with _ | ex
  · simp [Fp.significand]
  · simp [Fp.significand]; ring

/-! ### What a code of an IEEE format decodes to (R87) -/

section
variable {f : Fp} {code : Nat}

theorem Fp.decode_special (hs : f.style = .ieee) (h : fld code f.mbits f.ebits = 2 ^ f.ebits - 1) :
    f.decode code = if fld code 0 f.mbits = 0 then .inf (bit code (f.ebits + f.mbits)) else .nan (bit code (f.ebits + f.mbits)) := by
  rw [Fp.decode, hs]
  by_cases hm : fld code 0 f.mbits = 0 <;> simp [h, hm]

theorem Fp.decode_finite (hs : f.style = .ieee) (h : fld code f.mbits f.ebits ≠ 2 ^ f.ebits - 1) :
    f.decode code = if f.significand (fld code f.mbits f.ebits) (fld code 0 f.mbits) = 0 then .zero (bit code (f.ebits + f.mbits)) else
      .fin (if bit code (f.ebits + f.mbits) then -(f.significand (fld code f.mbits f.ebits) (fld code 0 f.mbits) : Int)
          else f.significand (fld code f.mbits f.ebits) (fld code 0 f.mbits))
        ((max (fld code f.mbits f.ebits) 1 : Nat) - (f.bias : Int) - f.mbits) := by
  have hman : (if fld code f.mbits f.ebits = 0 then (fld code 0 f.mbits : Int) else fld code 0 f.mbits + (2 ^ f.mbits : Nat)) =
      (f.significand (fld code f.mbits f.ebits) (fld code 0 f.mbits) : Int) := by
    rw [Fp.significand]; split <;> simp
  have hspecial : (fld code f.mbits f.ebits == 2 ^ f.ebits - 1) = false := by simpa using h
  simp only [Fp.decode, hs, hspecial, Bool.false_eq_true, if_false, beq_iff_eq, hman, Int.natCast_eq_zero]

end

/-! ### Rounding a value of the format (R100) -/

/-- An integer rounds to itself, in either mode. -/
theorem roundNat_zero (mode : Rounding) (num : Nat) : roundNat mode num 0 = num := by simp [roundNat]

/-- A significand at an exponent field of the format rounds without loss. -/
theorem Fp.roundMag_exact (f : Fp) (mode : Rounding) (ex num : Nat) (hex : 1 ≤ ex) (h0 : num ≠ 0) (hlt : num < 2 ^ (f.mbits + 1))
    (hnorm : ex = 1 ∨ 2 ^ f.mbits ≤ num) : f.roundMag mode num ((ex : Int) - f.bias - f.mbits) = (ex - 1) * 2 ^ f.mbits + num := by
  have hhigh : Nat.log2 num < f.mbits + 1 := (Nat.log2_lt h0).2 hlt
  have hlow : ex = 1 ∨ f.mbits ≤ Nat.log2 num := hnorm.imp_right (Nat.le_log2 h0).2
  have htop : max ((Nat.log2 num : Int) + ((ex : Int) - f.bias - f.mbits)) (1 - (f.bias : Int)) = (ex : Int) - f.bias := by omega
  have hfield : ((ex : Int) - f.bias - (1 - f.bias)).toNat = ex - 1 := by omega
  rw [Fp.roundMag]
  simp only [htop, hfield, sub_self, roundNat_zero]

/-- A code of an IEEE format that is no NaN is what its value converts to, in either mode and with or without saturation. -/
theorem Fp.convert_decode (f : Fp) (hs : f.style = .ieee) (hmax : f.inf ≤ f.maxFin + 1) (mode : Rounding) (sat : Bool) (code : Nat)
    (h : code < 2 ^ f.width) (hn : (f.decode code).isNaN = false) : (f.convert mode sat (f.decode code)).code = code := by
  have hcode := f.sign_add_fields code h
  by_cases hex : fld code f.mbits f.ebits = 2 ^ f.ebits - 1
  case pos =>
    rw [Fp.decode_special hs hex] at hn ⊢
    by_cases hm : fld code 0 f.mbits = 0
    · rw [hex, hm] at hcode
      simpa [hm, Fp.convert, hs, Fp.inf] using hcode
    · simp [hm, Val.isNaN] at hn
  case neg =>
    have hexlt : fld code f.mbits f.ebits < 2 ^ f.ebits := Nat.mod_lt _ (Nat.two_pow_pos _)
    have hmlt : fld code 0 f.mbits < 2 ^ f.mbits := Nat.mod_lt _ (Nat.two_pow_pos _)
    rw [Fp.decode_finite hs hex]
    generalize fld code f.mbits f.ebits = ex at *
    generalize fld code 0 f.mbits = m at *
    generalize bit code (f.ebits + f.mbits) = s at *
    have hsum := f.significand_add ex m
    by_cases h0 : f.significand ex m = 0
    · obtain ⟨rfl, rfl⟩ : ex = 0 ∧ m = 0 := by
        rw [Fp.significand] at h0; split at h0 <;> omega
      simpa [h0, Fp.convert] using hcode
    · have hmag : f.roundMag mode (f.significand ex m) ((max ex 1 : Nat) - (f.bias : Int) - f.mbits) = ex * 2 ^ f.mbits + m := by
        rw [f.roundMag_exact mode _ _ (Nat.le_max_right ..) h0 (f.significand_lt ex m hmlt) ?_, hsum]
        by_cases hz : ex = 0
        · exact .inl (by omega)
        · exact .inr (by simp [Fp.significand, hz])
      have hfits : ex * 2 ^ f.mbits + m ≤ f.maxFin := by
        have : (ex + 1) * 2 ^ f.mbits ≤ f.inf := Nat.mul_le_mul_right _ (by omega)
        rw [Nat.add_mul] at this; omega
      have hneg : decide ((if s then -(f.significand ex m : Int) else f.significand ex m) < 0) = s := by
        cases s
        · simp
        · simp; omega
      have habs : (if s then -(f.significand ex m : Int) else f.significand ex m).natAbs = f.significand ex m := by
        split <;> simp
      simp only [h0, if_false, Fp.convert, hneg, habs, hmag, hfits, if_true, hcode]

/-! ### binary32 -/

theorem toF32_of_isNaN {v : Val} (h : v.isNaN = true) : (toF32 v).code = 0x7FC00000 := by
  cases v with
  | nan => rfl
  | _ => cases h

theorem toF32_eq_convert {v : Val} (h : v.isNaN = false) : toF32 v = fpB32.convert .nearest false v := by
  cases v with
  | nan => cases h
  | _ => rfl

/-- Settles O19: binary32 is an IEEE format, whose codes are what their values convert to. -/
theorem binary32RoundsToItself : Obligations.Binary32RoundsToItself := by
  intro x
  refine ⟨fun h => ?_, toF32_of_isNaN⟩
  rw [toF32_eq_convert h]
  exact fpB32.convert_decode rfl (by decide) _ _ _ x.isLt h

end Sys2Proof.Machine
end

section
/-! PROOFS. Norm partials: written once, and a stained one never (R391, R472, R499, R500). -/

namespace Sys2Proof.Machine

/-- A change of the steps of a number that keeps number and phase reads back on the one in flight. -/
theorem State.step?_updStep {s : State} {n : Nat} {r : StepRec} {f : StepRec → StepRec} (h : s.step? n = some r) (hr : r.flying = true)
    (hf : ∀ x, (f x).number = x.number ∧ (f x).phase = x.phase) : (s.updStep n f).step? n = some (f r) := by
  have hfind : (s.steps.find? fun x => x.number == n && x.flying) = some r := by
    unfold State.step? at h
    split at h
    · next x hx => rw [hx, h]
    · next hnone =>
      have hnot := List.find?_eq_none.1 hnone r (List.mem_of_find?_eq_some h)
      simp [hr, beq_iff_eq.1 (List.find?_some h :)] at hnot
  have hpred : (r.number == n && r.flying) = true := List.find?_some (p := fun x : StepRec => x.number == n && x.flying) hfind
  have hany : (s.steps.any fun x => x.number == n && x.flying) = true :=
    List.any_eq_true.2 ⟨r, List.mem_of_find?_eq_some hfind, hpred⟩
  have hkeeps : ((fun x : StepRec => x.number == n && x.flying) ∘ fun x => if x.number == n && x.flying then f x else x) =
      fun x => x.number == n && x.flying := by
    funext x
    by_cases hx : (x.number == n && x.flying) = true
    · simp only [Function.comp, if_pos hx]
      rw [StepRec.flying, (hf x).1, (hf x).2]; rfl
    · simp only [Function.comp, if_neg hx]
  have hfound : ((onStep n f s.steps).find? fun x => x.number == n && x.flying) = some (f r) := by
    rw [onStep, if_pos hany, List.find?_map, hkeeps, hfind, Option.map_some, if_pos hpred]
  simp only [State.step?, State.updStep, hfound]

/-- A completion of no descriptor's place is written, or waits for a free record, and changes nothing else (R456). -/
theorem State.putFree_records (s : State) (cring body : Nat) :
    State.records { s with waits := (s.putFree cring body).waits } (s.putFree cring body) := by
  unfold State.putFree
  dsimp only
  split
  · rfl
  · split
    · have h := s.putRecord_records (16 + cring % 4) (setFld body 64 32 (s.ring (fld body 9 4)).cons)
      have hwaits : (s.putRecord (16 + cring % 4) (setFld body 64 32 (s.ring (fld body 9 4)).cons)).waits = s.waits := by rw [h]
      rw [hwaits]; exact h
    · rfl

theorem State.putFree_steps (s : State) (cring body : Nat) : (s.putFree cring body).steps = s.steps := (s.putFree_records cring body).steps
theorem State.putFree_mem (s : State) (cring body : Nat) : (s.putFree cring body).mem = s.mem := (s.putFree_records cring body).mem
theorem State.putFree_cores (s : State) (cring body : Nat) : (s.putFree cring body).cores = s.cores := (s.putFree_records cring body).cores

theorem State.step?_congr {s t : State} (h : t.steps = s.steps) (n : Nat) : t.step? n = s.step? n := by simp only [State.step?, h]

/-! ### The partial noted and written (R472) -/

/-- The step notes the group among its partials and keeps the sum's flags (R89). -/
def State.notePartial (s : State) (n g : Nat) : State :=
  (s.updStep n fun x => { x with partials := x.partials ++ [g] }).raiseStep n (s.normPartial g n).1.flags

theorem State.putPartial_stained (s : State) (r : StepRec) (n g : Nat) (h : (s.normPartial g n).2 = true) :
    s.putPartial r n g = (s.notePartial n g).event 0x0A 4 0 n 0 := if_pos h

theorem State.putPartial_unstained (s : State) (r : StepRec) (n g : Nat) (h : (s.normPartial g n).2 = false) :
    s.putPartial r n g = (s.notePartial n g).putFree r.desc.cring (completionRecord (s.notePartial n g) { r.desc with kind := 0x80 } stDone 0
      (n + g <<< 64 + (s.normPartial g n).1.code <<< 96)) := if_neg (Bool.eq_false_iff.1 h)

/-- What follows the note, a record or an event, leaves steps, memory and cores. -/
theorem State.putPartial_frame (s : State) (r : StepRec) (n g : Nat) :
    (s.putPartial r n g).steps = (s.notePartial n g).steps ∧ (s.putPartial r n g).mem = s.mem ∧ (s.putPartial r n g).cores = s.cores := by
  cases h : (s.normPartial g n).2 with
  | true =>
    rw [s.putPartial_stained r n g h]
    exact ⟨State.event_steps .., State.event_mem .., State.event_cores ..⟩
  | false =>
    rw [s.putPartial_unstained r n g h]
    exact ⟨State.putFree_steps .., State.putFree_mem .., State.putFree_cores ..⟩

theorem State.step?_notePartial {s : State} {r : StepRec} {n g : Nat} (h : s.step? n = some r) (hr : r.flying = true) :
    ∃ x, (s.notePartial n g).step? n = some x ∧ x.partials = r.partials ++ [g] := by
  have hnoted := State.step?_updStep (f := fun x => { x with partials := x.partials ++ [g] }) h hr fun _ => ⟨rfl, rfl⟩
  exact ⟨_, State.step?_updStep (f := fun x => { x with flags := x.flags ||| (s.normPartial g n).1.flags }) hnoted hr fun _ => ⟨rfl, rfl⟩, rfl⟩

/-! ### The row -/

section
variable {n : Word} {g : BitVec 6} {s : State} {r : StepRec} {gr : Group}

theorem exec_normPartial_none (h : s.step? n.toNat = none ∨ s.group? g.toNat = none) : exec (.normPartial n g) s = .next s := by
  show execNormPartial n g s = _
  unfold execNormPartial
  dsimp only
  rcases h with h | h
  · rw [h]
  · rw [h]; cases s.step? n.toNat <;> rfl

theorem exec_normPartial (hr : s.step? n.toNat = some r) (hg : s.group? g.toNat = some gr) : exec (.normPartial n g) s =
    if !r.flying || !gr.software || s.predecessorOpen n.toNat || !s.groupFolded g.toNat n.toNat || r.partials.contains g.toNat then .next s
    else .next (s.useTables (s.partialTables g.toNat) fun s => s.putPartial r n.toNat g.toNat) := by
  show execNormPartial n g s = _
  simp only [execNormPartial, hr, hg]

end

/-- Settles O24: the row's conditions, and the partial noted on the state whose table words have been read. -/
theorem normPartialOnce : Obligations.NormPartialOnce := by
  intro n g s
  refine ⟨exec_normPartial_none, fun r gr hr hg => ?_⟩
  rw [exec_normPartial hr hg]
  refine ⟨fun h => if_pos (by simpa [or_assoc] using h), fun hfly hsoft hopen hfold hnew y hy => ?_⟩
  rw [if_neg (by simpa [hfly, hsoft, hopen, hfold] using hnew)]
  subst hy
  have hcounts := s.noteTables_counts (s.partialTables g.toNat)
  have hsteps : (s.noteTables (s.partialTables g.toNat)).steps = s.steps := by rw [hcounts]
  refine ⟨fun hbad => by rw [State.useTables_bad _ _ _ hbad], fun hgood => ?_⟩
  rw [State.useTables_good _ _ _ hgood]
  generalize s.noteTables (s.partialTables g.toNat) = y at *
  obtain ⟨hnoted, hmem, hcores⟩ := y.putPartial_frame r n.toNat g.toNat
  refine ⟨_, y.notePartial n.toNat g.toNat, rfl, ?_, hmem.trans hcounts.mem, hcores.trans hcounts.cores, rfl,
    y.putPartial_stained r _ _, y.putPartial_unstained r _ _⟩
  rw [State.step?_congr hnoted]
  exact State.step?_notePartial ((State.step?_congr hsteps _).trans hr) hfly

end Sys2Proof.Machine
end

section
/-! PROOFS. The scale ledger at a commit, a non-finite discard and any other discard (R113, R114, R115, R119). -/

namespace Sys2Proof.Machine

/-! ### One entry (R111, R113, R114, R119) -/

/-- An exponent that a history calls for lies from −120 to 120 (R113). -/
theorem historyK_bounds {history : List Nat} {margin : Nat} {k : Int} (h : historyK history margin = some k) : -120 ≤ k ∧ k ≤ 120 := by
  unfold historyK at h
  dsimp only at h
  split at h
  · cases h
  · cases h; omega

/-- A primed entry with its pending amax taken into its history. -/
def ScaleEntry.shifted (e : ScaleEntry) : ScaleEntry :=
  { e with history := e.history.set e.head e.pending, head := (e.head + 1) % 16, pending := 0, pendStain := false }

/-- An entry primed with its pending amax throughout its history (R119). -/
def ScaleEntry.primedNow (e : ScaleEntry) : ScaleEntry :=
  { e with history := List.replicate 16 e.pending, head := 0, pending := 0, pendStain := false, primed := true }

section
variable {e : ScaleEntry} {n : Nat} {p : Bool}

theorem ScaleEntry.commit_unprimed (h : e.primed = false) : e.commit n false = e := by
  simp [ScaleEntry.commit, h]

/-- A commit of a primed entry writes beside the history only k of the step's parity, where the history calls for one (R113). -/
theorem ScaleEntry.commit_primed_cases (h : e.primed = true) :
    historyK e.shifted.history e.margin = none ∧ e.commit n p = e.shifted ∨
    ∃ k, historyK e.shifted.history e.margin = some k ∧ (n % 2 = 0 ∧ e.commit n p = { e.shifted with kEven := k } ∨
      n % 2 = 1 ∧ e.commit n p = { e.shifted with kOdd := k }) := by
  unfold ScaleEntry.commit
  rw [if_pos h]
  dsimp only
  split
  · next k hk =>
    refine .inr ⟨k, hk, ?_⟩
    rcases Nat.mod_two_eq_zero_or_one n with hn | hn
    · exact .inl ⟨hn, by rw [hn]; rfl⟩
    · exact .inr ⟨hn, by rw [hn]; rfl⟩
  · next hk => exact .inl ⟨hk, rfl⟩

/-- A priming commit fills the history and may set both slots of k. -/
theorem ScaleEntry.commit_primes_cases (h : e.primed = false) :
    ∃ j k, e.commit n true = { e.primedNow with kEven := j, kOdd := k } := by
  simp only [ScaleEntry.commit, h, Bool.false_eq_true, if_false, if_true]
  split
  · next k _ => exact ⟨k, k, rfl⟩
  · exact ⟨e.kEven, e.kOdd, rfl⟩

theorem ScaleEntry.backoff_primed (h : e.primed = true) : e.backoff.1 =
    { e with pending := 0, pendStain := false, kEven := max (-120) (e.kEven - 1), kOdd := max (-120) (e.kOdd - 1),
             backoffs := satAdd 16 e.backoffs 1, floor := e.floor || (e.kEven == -120 || e.kOdd == -120) } := by
  simp [ScaleEntry.backoff, h]

end

/-- k backed off goes no lower than −120 (R114). -/
theorem max_sub_one_eq {k : Int} (h : -120 ≤ k) : max (-120) (k - 1) = if k = -120 then -120 else k - 1 := by
  split <;> omega

/-! ### What a discard does beside the ledger -/

/-- t has the ledger and the table words of s. -/
def State.sameLedger (s t : State) : Prop := t.scales = s.scales ∧ t.tables = s.tables

theorem State.sameLedger.refl (s : State) : s.sameLedger s := ⟨rfl, rfl⟩

theorem State.sameLedger.trans {s t u : State} (h1 : s.sameLedger t) (h2 : t.sameLedger u) : s.sameLedger u :=
  ⟨h2.1.trans h1.1, h2.2.trans h1.2⟩

theorem State.counts.sameLedger {s t : State} (h : s.counts t) : s.sameLedger t := ⟨by rw [h], by rw [h]⟩

theorem State.marks.sameLedger {s t : State} (h : s.marks t) : s.sameLedger t := ⟨by rw [h], by rw [h]⟩

theorem State.sameLedger_foldl {β : Type} (f : State → β → State) (hf : ∀ (s : State) (x : β), s.sameLedger (f s x)) (l : List β) (s : State) :
    s.sameLedger (l.foldl f s) := by
  induction l generalizing s with
  | nil => exact State.sameLedger.refl s
  | cons x l ih => exact (hf s x).trans (ih (f s x))

theorem State.tableBad_congr {s t : State} (h : t.tables = s.tables) (ws : List TableWord) : t.tableBad ws = s.tableBad ws := by
  simp only [State.tableBad, State.tableMarks, h]

theorem State.captureFlags_sameLedger (s : State) (n : Nat) : s.sameLedger (s.captureFlags n) := by
  unfold State.captureFlags
  dsimp only
  split
  · exact (s.markStain_frame n).sameLedger
  · exact State.sameLedger.refl s

theorem State.endSteps_sameLedger (s : State) (nums : List Nat) (st : Nat) (sup : Bool) (because : Option Verdict) :
    s.sameLedger (s.endSteps nums st sup because) :=
  State.sameLedger_foldl _ State.captureFlags_sameLedger nums s

theorem State.dropRunning_sameLedger (s : State) (p : Plan) (nums : List Nat) : s.sameLedger (s.dropRunning p nums) := by
  unfold State.dropRunning
  split
  · exact State.sameLedger.refl s
  · split
    · split <;> exact ⟨rfl, rfl⟩
    · split <;> exact ⟨rfl, rfl⟩

theorem State.takeVerdict_sameLedger (s : State) (n : Nat) (v : Verdict) (k : Option Packet) : s.sameLedger (s.takeVerdict n v k) := by
  unfold State.takeVerdict
  split
  · cases k <;> exact ⟨rfl, rfl⟩
  · split
    · exact ⟨rfl, rfl⟩
    · split <;> exact ⟨rfl, rfl⟩

/-! ### The ledger at the boundary -/

/-- Where no entry's word is uncorrectable every entry is changed (R500). -/
theorem State.mapLedger_scales (s : State) (f : Nat → ScaleEntry → ScaleEntry) (h : ∀ i, s.tableBad [.scale i] = false) :
    (s.mapLedger f).scales = s.scales.zipIdx.map fun x => f x.2 x.1 := by
  have hnote (t : State) (ws : List TableWord) : (t.noteTables ws).scales = t.scales := (t.noteTables_counts ws).sameLedger.1
  have hmap : (s.scales.zipIdx.map fun x => if s.tableBad [.scale x.2] then x.1 else f x.2 x.1) =
      s.scales.zipIdx.map fun x => f x.2 x.1 := by simp [h]
  unfold State.mapLedger
  dsimp only
  split
  · rw [(State.markOldest_frame _).sameLedger.1, hnote]; exact hmap
  · rw [hnote]; exact hmap

/-- A boundary that drops steps leaves the ledger to ledgerDrop. -/
theorem State.afterDrop_scales (s : State) (nonfinite : Bool) : (s.afterDrop nonfinite).scales = (s.ledgerDrop nonfinite).scales :=
  (State.sameLedger_foldl _ (fun s _ => State.takeVerdict_sameLedger s _ _ _) _ _).1

/-- A drop that is not non-finite clears the pending amax of every entry (R115). -/
theorem State.ledgerDrop_scales (s : State) (h : ∀ i, s.tableBad [.scale i] = false) :
    (s.ledgerDrop false).scales = s.scales.map fun e => { e with pending := 0, pendStain := false } := by
  have hdrop : s.ledgerDrop false = s.mapLedger fun _ e => { e with pending := 0, pendStain := false } := by simp [State.ledgerDrop]
  rw [hdrop, s.mapLedger_scales _ h]
  conv_rhs => rw [← List.zipIdx_map_fst 0 s.scales, List.map_map]
  rfl

theorem State.discardFrom_scales (s : State) (p : Plan) (n st : Nat) (sup : Bool) (hst : st ≠ stDiscardNonfinite)
    (h : ∀ i, s.tableBad [.scale i] = false) :
    (s.discardFrom p n st sup).scales = s.scales.map fun e => { e with pending := 0, pendStain := false } := by
  have hnot : (st == stDiscardNonfinite) = false := by simpa using hst
  unfold State.discardFrom
  dsimp only
  rw [hnot, State.afterDrop_scales]
  obtain ⟨hscales, htables⟩ := (s.endSteps_sameLedger (s.from n) st sup _).trans (State.dropRunning_sameLedger _ p (s.from n))
  rw [State.ledgerDrop_scales _ fun i => (State.tableBad_congr htables _).trans (h i), hscales]

/-- Settles O59: the entry's commit by its cases, its back-off, and the ledger of a discard. -/
theorem ledgerAtTheBoundary : Obligations.LedgerAtTheBoundary := by
  refine ⟨fun e n p _ _ => ⟨fun hp => ?_, fun hp hn => ?_, fun hp hy => ?_⟩, fun e hp heven hodd => ?_, State.discardFrom_scales⟩
  · rcases ScaleEntry.commit_primed_cases (n := n) (p := p) hp with ⟨-, heq⟩ | ⟨k, hk, ⟨hn, heq⟩ | ⟨hn, heq⟩⟩
    · simp [heq, ScaleEntry.shifted, hp]
    · simp [heq, ScaleEntry.shifted, hp, hn, historyK_bounds hk]
    · simp [heq, ScaleEntry.shifted, hp, hn, historyK_bounds hk]
  · rw [hn, ScaleEntry.commit_unprimed hp]
  · obtain ⟨j, k, heq⟩ := ScaleEntry.commit_primes_cases (n := n) hp
    rw [hy, heq]
    exact ⟨rfl, rfl, rfl, rfl⟩
  · rw [ScaleEntry.backoff_primed hp]
    exact ⟨rfl, rfl, rfl, max_sub_one_eq heven, max_sub_one_eq hodd, rfl, by simp [Bool.or_assoc, Bool.beq_eq_decide_eq]⟩

end Sys2Proof.Machine
end

section
/-! PROOFS. The fold of a bucket (R174, R366, R367): whatever the order in which the leaves join, the nodes that wait are those whose sibling
is missing, and the root is the balanced tree's. -/

namespace Sys2Proof.Machine

/-! ### The levels of a balanced pairwise tree -/

section
variable {α : Type} (node : α → α → α)

/-- The values of the tree's level over list positions, the leaves at level 0. -/
def treeLevel (leaves : List α) : Nat → List α
  | 0 => leaves
  | n + 1 => pairUp node (treeLevel leaves n)

theorem length_pairUp (l : List α) : (pairUp node l).length = (l.length + 1) / 2 := by
  induction l using pairUp.induct with
  | case1 a b rest ih => simp only [pairUp, List.length_cons, ih]; omega
  | case2 l h =>
    match l, h with
    | [], _ => simp [pairUp]
    | [a], _ => simp [pairUp]
    | a :: b :: rest, h => exact absurd rfl (h a b rest)

/-- A level is as wide as the fold counts it. -/
theorem length_treeLevel (leaves : List α) (n : Nat) : (treeLevel node leaves n).length = levelWidth leaves.length n := by
  induction n with
  | zero => rfl
  | succ n ih => rw [treeLevel, length_pairUp, ih, levelWidth]

/-- Two children make their parent. -/
theorem getElem?_pairUp_of_pair (l : List α) (i : Nat) (a b : α) (ha : l[2 * i]? = some a) (hb : l[2 * i + 1]? = some b) :
    (pairUp node l)[i]? = some (node a b) := by
  induction l using pairUp.induct generalizing i with
  | case1 x y rest ih =>
    cases i with
    | zero => simp at ha hb; simp [pairUp, ha, hb]
    | succ i => exact ih i (by simpa [Nat.mul_succ] using ha) (by simpa [Nat.mul_succ] using hb)
  | case2 l h =>
    match l, h with
    | [], _ => simp at ha
    | [x], _ => simp at hb
    | x :: y :: rest, h => exact absurd rfl (h x y rest)

/-- An odd last child is carried up unchanged. -/
theorem getElem?_pairUp_of_last (l : List α) (i : Nat) (a : α) (ha : l[2 * i]? = some a) (hb : l.length = 2 * i + 1) :
    (pairUp node l)[i]? = some a := by
  induction l using pairUp.induct generalizing i with
  | case1 x y rest ih =>
    cases i with
    | zero => simp at hb
    | succ i => exact ih i (by simpa [Nat.mul_succ] using ha) (by simp at hb; omega)
  | case2 l h =>
    match l, h with
    | [], _ => simp at ha
    | [x], _ => obtain rfl : i = 0 := by simpa using hb.symm
                exact ha
    | x :: y :: rest, h => exact absurd rfl (h x y rest)

theorem treeLevel_pairUp (l : List α) (n : Nat) : treeLevel node (pairUp node l) n = treeLevel node l (n + 1) := by
  induction n with
  | zero => rfl
  | succ n ih => rw [treeLevel, ih]; rfl

theorem treeLevel_of_fixed (l : List α) (h : pairUp node l = l) (n : Nat) : treeLevel node l n = l := by
  induction n with
  | zero => rfl
  | succ n ih => rw [treeLevel, ih, h]

/-- The root is the one value of any level that is at most one wide. -/
theorem treeRoot_eq_head?_treeLevel (fuel n : Nat) (l : List α) (hl : l.length ≤ fuel) (hn : (treeLevel node l n).length ≤ 1) :
    treeRoot node fuel l = (treeLevel node l n).head? := by
  induction fuel generalizing l n with
  | zero =>
    obtain rfl : l = [] := List.length_eq_zero_iff.1 (by omega)
    rw [treeLevel_of_fixed node [] rfl]; rfl
  | succ fuel ih =>
    match l, hl, hn with
    | [], _, _ => rw [treeLevel_of_fixed node [] rfl]; rfl
    | [a], _, _ => rw [treeLevel_of_fixed node [a] rfl]; rfl
    | a :: b :: rest, hl, hn =>
      cases n with
      | zero => simp [treeLevel] at hn
      | succ n =>
        rw [← treeLevel_pairUp] at hn ⊢
        exact ih n _ (by rw [length_pairUp]; simp at hl ⊢; omega) hn

end

theorem levelWidth_antitone (g : Nat) : Antitone (levelWidth g) :=
  antitone_nat_of_succ_le fun n => by rw [levelWidth]; omega

theorem levelWidth_le_one {g n : Nat} (h : g ≤ 2 ^ n) : levelWidth g n ≤ 1 := by
  have hw : ∀ k m, g ≤ 2 ^ (k + m) → levelWidth g k ≤ 2 ^ m := by
    intro k
    induction k with
    | zero => intro m hm; simpa [levelWidth] using hm
    | succ k ih =>
      intro m hm
      have := ih (m + 1) (by rwa [show k + (m + 1) = k + 1 + m by omega])
      rw [levelWidth]; omega
  exact hw n 0 h

theorem levelWidth_pos {g n : Nat} (h : 0 < g) : 0 < levelWidth g n := by
  induction n with
  | zero => exact h
  | succ n ih => rw [levelWidth]; omega

/-! ### Which values of the tree are known -/

/-- Whether the leaves below a place of the tree have all arrived. -/
def treeReady (g : Nat) (arrived : List Nat) : Nat → Nat → Prop
  | 0, i => i ∈ arrived
  | n + 1, i => treeReady g arrived n (2 * i) ∧ (2 * i + 1 < levelWidth g n → treeReady g arrived n (2 * i + 1))

/-- The other child of a place's parent. -/
def siblingIndex (i : Nat) : Nat := if i % 2 == 0 then i + 1 else i - 1

theorem siblingIndex_even (k : Nat) : siblingIndex (2 * k) = 2 * k + 1 := by simp [siblingIndex]

theorem siblingIndex_odd (k : Nat) : siblingIndex (2 * k + 1) = 2 * k := by simp [siblingIndex, Nat.add_mod]

theorem siblingIndex_siblingIndex (i : Nat) : siblingIndex (siblingIndex i) = i := by
  obtain ⟨k, rfl | rfl⟩ := i.even_or_odd'
  · rw [siblingIndex_even, siblingIndex_odd]
  · rw [siblingIndex_odd, siblingIndex_even]

theorem siblingIndex_ne (i : Nat) : siblingIndex i ≠ i := by
  obtain ⟨k, rfl | rfl⟩ := i.even_or_odd'
  · rw [siblingIndex_even]; omega
  · rw [siblingIndex_odd]; omega

/-- A value waits in the fold while its sibling is missing (R367). -/
def treeWaits (g : Nat) (arrived : List Nat) (n i : Nat) : Prop :=
  treeReady g arrived n i ∧ i < levelWidth g n ∧ siblingIndex i < levelWidth g n ∧ ¬ treeReady g arrived n (siblingIndex i)

/-- The leaf p makes one value of a level known. -/
def treeNew (g : Nat) (arrived : List Nat) (p n i : Nat) : Prop :=
  treeReady g (p :: arrived) n i ∧ ¬ treeReady g arrived n i ∧
    ∀ j, j ≠ i → (treeReady g (p :: arrived) n j ↔ treeReady g arrived n j)

section
variable {g : Nat} {arrived : List Nat} {p n i : Nat}

theorem treeNew_leaf (h : p ∉ arrived) : treeNew g arrived p 0 p :=
  ⟨List.mem_cons_self, h, fun j hj => by simp [treeReady, hj]⟩

/-- A parent is ready exactly where its child and, in the level, that child's sibling are. -/
theorem treeReady_parent (hi : i < levelWidth g n) (arrived : List Nat) :
    treeReady g arrived (n + 1) (i / 2) ↔
      treeReady g arrived n i ∧ (siblingIndex i < levelWidth g n → treeReady g arrived n (siblingIndex i)) := by
  obtain ⟨k, rfl | rfl⟩ := i.even_or_odd'
  · rw [siblingIndex_even, show 2 * k / 2 = k by omega, treeReady]
  · rw [siblingIndex_odd, show (2 * k + 1) / 2 = k by omega, treeReady]
    constructor
    · exact fun h => ⟨h.2 hi, fun _ => h.1⟩
    · exact fun h => ⟨h.2 (by omega), fun _ => h.1⟩

/-- The places of the next level that are not the parent's see no new child. -/
theorem treeNew.elsewhere (h : treeNew g arrived p n i) (j : Nat) (hj : j ≠ i / 2) :
    treeReady g (p :: arrived) (n + 1) j ↔ treeReady g arrived (n + 1) j := by
  obtain ⟨-, -, hrest⟩ := h
  rw [treeReady, treeReady, hrest _ (by omega), hrest _ (by omega)]

/-- A new value whose sibling is known or does not exist makes its parent new. -/
theorem treeNew.parent (h : treeNew g arrived p n i) (hi : i < levelWidth g n)
    (hs : siblingIndex i < levelWidth g n → treeReady g arrived n (siblingIndex i)) : treeNew g arrived p (n + 1) (i / 2) := by
  obtain ⟨hnew, hold, hrest⟩ := id h
  refine ⟨(treeReady_parent hi _).2 ⟨hnew, fun hw => ?_⟩, fun hp => hold ((treeReady_parent hi _).1 hp).1, h.elsewhere⟩
  exact (hrest _ (siblingIndex_ne i)).2 (hs hw)

/-- A new value whose sibling is missing makes nothing above it known. -/
theorem treeNew.above (h : treeNew g arrived p n i) (hi : i < levelWidth g n) (hs : siblingIndex i < levelWidth g n)
    (hr : ¬ treeReady g arrived n (siblingIndex i)) (m j : Nat) :
    treeReady g (p :: arrived) (n + 1 + m) j ↔ treeReady g arrived (n + 1 + m) j := by
  induction m generalizing j with
  | zero =>
    by_cases hj : j = i / 2
    · subst hj
      have hr' := (h.2.2 _ (siblingIndex_ne i)).not.2 hr
      exact iff_of_false (fun hp => hr' (((treeReady_parent hi _).1 hp).2 hs)) (fun hp => hr (((treeReady_parent hi _).1 hp).2 hs))
    · exact h.elsewhere j hj
  | succ m ih => rw [show n + 1 + (m + 1) = (n + 1 + m) + 1 by omega, treeReady, treeReady, ih, ih]

/-- Which values of the level wait once the new one is known: the new one where its sibling is missing, and the others but its sibling. -/
theorem treeWaits_new (h : treeNew g arrived p n i) (hi : i < levelWidth g n) (j : Nat) :
    treeWaits g (p :: arrived) n j ↔
      (j = i ∧ siblingIndex i < levelWidth g n ∧ ¬ treeReady g arrived n (siblingIndex i)) ∨
        (j ≠ siblingIndex i ∧ treeWaits g arrived n j) := by
  obtain ⟨hnew, hold, hrest⟩ := h
  have hne := siblingIndex_ne i
  unfold treeWaits
  by_cases hj : j = i
  · subst hj
    rw [hrest _ hne]
    simp [hnew, hi, hold]
  · by_cases hjs : j = siblingIndex i
    · subst hjs
      rw [siblingIndex_siblingIndex]
      simp [hne, hnew]
    · have hsj : siblingIndex j ≠ i := fun hh => hjs (by rw [← hh, siblingIndex_siblingIndex])
      rw [hrest _ hj, hrest _ hsj]
      simp [hj, hjs]

theorem not_treeReady_nil (g n i : Nat) : ¬ treeReady g [] n i := by
  induction n generalizing i with
  | zero => exact List.not_mem_nil
  | succ n ih => exact fun h => ih _ h.1

/-- With every leaf arrived, every place is ready. -/
theorem treeReady_of_all (h : ∀ i, i < g → i ∈ arrived) (hi : i < levelWidth g n) : treeReady g arrived n i := by
  induction n generalizing i with
  | zero => exact h i hi
  | succ n ih =>
    rw [levelWidth] at hi
    exact ⟨ih (by omega), fun h1 => ih h1⟩

end

/-! ### The fold -/

/-- The tree of a fold: a node is the elementwise sum of its children (R367). -/
abbrev foldLevel (leaves : List (List (Nat × Bool))) (n : Nat) : List (List (Nat × Bool)) :=
  treeLevel (fun a b => (sumElems a b).1) leaves n

/-- The fold's nodes are, each once, the tree's values at the places where p holds. -/
def Fold.lists (leaves : List (List (Nat × Bool))) (p : Nat → Nat → Prop) (f : Fold) : Prop :=
  f.nodes.Nodup ∧ ∀ d : FoldNode, d ∈ f.nodes ↔
    p d.level d.index ∧ (foldLevel leaves d.level)[d.index]? = some d.elems

/-- The places whose values wait while a new value is on its way at level n: below it as with the leaf p, from it on as without. -/
def treeWaitsAt (g : Nat) (arrived : List Nat) (p n l i : Nat) : Prop :=
  if l < n then treeWaits g (p :: arrived) l i else treeWaits g arrived l i

/-- Where the one place of a top level is ready, the fold has the tree's root. -/
def Fold.rooted (leaves : List (List (Nat × Bool))) (arrived : List Nat) (f : Fold) : Prop :=
  ∀ n, levelWidth leaves.length n ≤ 1 → treeReady leaves.length arrived n 0 →
    f.root = treeRoot (fun a b => (sumElems a b).1) leaves.length leaves

section
variable {leaves : List (List (Nat × Bool))} {arrived : List Nat} {p n i : Nat}

theorem Fold.lists.congr {q r : Nat → Nat → Prop} {f : Fold} (hf : f.lists leaves q) (h : ∀ l j, r l j ↔ q l j) : f.lists leaves r :=
  ⟨hf.1, fun d => by rw [h]; exact hf.2 d⟩

/-- What waits when the new value has gone up from its level: the same below and above, and at the level what treeWaits_new says. -/
theorem treeWaitsAt_succ (g : Nat) (arrived : List Nat) (p n l j : Nat) :
    treeWaitsAt g arrived p (n + 1) l j ↔ if l = n then treeWaits g (p :: arrived) l j else treeWaitsAt g arrived p n l j := by
  unfold treeWaitsAt
  by_cases hl : l = n
  · simp [hl]
  · have : l < n + 1 ↔ l < n := by omega
    simp only [hl, this, if_false]

theorem treeWaitsAt_self (g : Nat) (arrived : List Nat) (p n j : Nat) : treeWaitsAt g arrived p n n j ↔ treeWaits g arrived n j := by
  simp [treeWaitsAt]

/-- A level with one place has nothing that waits. -/
theorem not_treeWaits_of_narrow {g l j : Nat} (h : levelWidth g l ≤ 1) : ¬ treeWaits g arrived l j := by
  rintro ⟨-, hj, hs, -⟩
  exact siblingIndex_ne j (by omega)

/-- A known value whose sibling is missing stands among the fold's nodes. -/
theorem Fold.lists.mem_of_waits {f : Fold} (hf : f.lists leaves (treeWaitsAt leaves.length arrived p n))
    (h : treeWaits leaves.length arrived n i) : ∃ v, ⟨n, i, v⟩ ∈ f.nodes := by
  have hi : i < (foldLevel leaves n).length := by rw [length_treeLevel]; exact h.2.1
  exact ⟨_, (hf.2 ⟨n, i, _⟩).2 ⟨(treeWaitsAt_self _ _ _ _ _).2 h, List.getElem?_eq_getElem hi⟩⟩

/-- The values that wait after a new value that makes its parent known: those before but its sibling. -/
theorem treeWaitsAt_parent (hi : i < levelWidth leaves.length n) (hnew : treeNew leaves.length arrived p n i)
    (hs : siblingIndex i < levelWidth leaves.length n → treeReady leaves.length arrived n (siblingIndex i)) (l j : Nat) :
    treeWaitsAt leaves.length arrived p (n + 1) l j ↔ treeWaitsAt leaves.length arrived p n l j ∧ ¬ (l = n ∧ j = siblingIndex i) := by
  rw [treeWaitsAt_succ]
  split
  · rename_i hl
    subst hl
    rw [treeWaits_new hnew hi, treeWaitsAt_self]
    tauto
  · tauto

/-- The values that wait after a new value whose sibling is missing: those before and the new one. -/
theorem treeWaits_sibling_missing (hi : i < levelWidth leaves.length n) (hnew : treeNew leaves.length arrived p n i)
    (hs : siblingIndex i < levelWidth leaves.length n) (hr : ¬ treeReady leaves.length arrived n (siblingIndex i)) (l j : Nat) :
    treeWaits leaves.length (p :: arrived) l j ↔ treeWaitsAt leaves.length arrived p n l j ∨ (l = n ∧ j = i) := by
  have hself : ¬ treeWaits leaves.length arrived n (siblingIndex i) := fun h => hr h.1
  rcases lt_trichotomy l n with hl | rfl | hl
  · simp [treeWaitsAt, hl, hl.ne]
  · rw [treeWaits_new hnew hi, treeWaitsAt_self]
    by_cases hj : j = siblingIndex i
    · subst hj; simp [hself, siblingIndex_ne]
    · simp [hs, hr, hj, or_comm]
  · obtain ⟨m, rfl⟩ := Nat.exists_eq_add_of_lt hl
    have habove := hnew.above hi hs hr m
    rw [show n + 1 + m = n + m + 1 by omega] at habove
    simp [treeWaitsAt, treeWaits, habove, show ¬ n + m + 1 < n by omega, show n + m + 1 ≠ n by omega]

/-! ### One value joins -/

section
variable {g fuel fl : Nat} {f : Fold} {v : List (Nat × Bool)} {d : FoldNode}

theorem Fold.join_top (h : levelWidth g n ≤ 1) : f.join g (fuel + 1) n i v fl = ({ f with root := some v }, fl) := by
  rw [Fold.join]; exact if_pos h

/-- An odd last value is carried up. -/
theorem Fold.join_last (h : ¬ levelWidth g n ≤ 1) (hi : i < levelWidth g n) (hs : ¬ siblingIndex i < levelWidth g n) :
    f.join g (fuel + 1) n i v fl = f.join g fuel (n + 1) (i / 2) v fl := by
  have hlast : (i % 2 == 0 && i + 1 == levelWidth g n) = true := by
    obtain ⟨k, rfl | rfl⟩ := i.even_or_odd'
    · rw [siblingIndex_even] at hs; simp; omega
    · rw [siblingIndex_odd] at hs; omega
  rw [Fold.join]
  simp only [if_neg h, hlast, if_true]

theorem not_last_of_sibling (hs : siblingIndex i < levelWidth g n) : (i % 2 == 0 && i + 1 == levelWidth g n) = false := by
  obtain ⟨k, rfl | rfl⟩ := i.even_or_odd'
  · rw [siblingIndex_even] at hs; simp; omega
  · simp [Nat.add_mod]

/-- A value whose sibling is missing waits. -/
theorem Fold.join_waits (h : ¬ levelWidth g n ≤ 1) (hs : siblingIndex i < levelWidth g n)
    (hd : (f.nodes.find? fun d => d.level == n && d.index == siblingIndex i) = none) :
    f.join g (fuel + 1) n i v fl = ({ f with nodes := f.nodes ++ [⟨n, i, v⟩] }, fl) := by
  unfold siblingIndex at hd
  rw [Fold.join]
  simp only [if_neg h, not_last_of_sibling hs, hd]
  rfl

/-- The sum of a value and its sibling's, in the order of their positions. -/
def siblingSum (i : Nat) (v w : List (Nat × Bool)) : List (Nat × Bool) × Nat := if i % 2 == 0 then sumElems v w else sumElems w v

/-- A value whose sibling waits makes their parent with it. -/
theorem Fold.join_pair (h : ¬ levelWidth g n ≤ 1) (hs : siblingIndex i < levelWidth g n)
    (hd : (f.nodes.find? fun d => d.level == n && d.index == siblingIndex i) = some d) :
    f.join g (fuel + 1) n i v fl = ({ f with nodes := f.nodes.erase d } : Fold).join g fuel (n + 1) (i / 2)
      (siblingSum i v d.elems).1 (fl ||| (siblingSum i v d.elems).2) := by
  unfold siblingIndex at hd
  rw [Fold.join]
  simp only [if_neg h, not_last_of_sibling hs, hd, siblingSum]
  rfl

end

/-- The sum of two siblings is their parent's value. -/
theorem getElem?_treeLevel_siblingSum {v w : List (Nat × Bool)} (hv : (foldLevel leaves n)[i]? = some v)
    (hw : (foldLevel leaves n)[siblingIndex i]? = some w) :
    (foldLevel leaves (n + 1))[i / 2]? = some (siblingSum i v w).1 := by
  obtain ⟨k, rfl | rfl⟩ := i.even_or_odd'
  · rw [siblingIndex_even] at hw
    rw [show 2 * k / 2 = k by omega]
    simpa [siblingSum, treeLevel] using getElem?_pairUp_of_pair _ _ k v w hv hw
  · rw [siblingIndex_odd] at hw
    rw [show (2 * k + 1) / 2 = k by omega]
    simpa [siblingSum, treeLevel, Nat.add_mod] using getElem?_pairUp_of_pair _ _ k w v hw hv

/-- The carried value is its parent's value. -/
theorem getElem?_treeLevel_last {v : List (Nat × Bool)} (hv : (foldLevel leaves n)[i]? = some v)
    (hi : i < levelWidth leaves.length n) (hs : ¬ siblingIndex i < levelWidth leaves.length n) :
    (foldLevel leaves (n + 1))[i / 2]? = some v := by
  obtain ⟨k, rfl | rfl⟩ := i.even_or_odd'
  · rw [siblingIndex_even] at hs
    rw [show 2 * k / 2 = k by omega]
    exact getElem?_pairUp_of_last _ _ k v hv (by rw [length_treeLevel]; omega)
  · rw [siblingIndex_odd] at hs; omega

/-- The value at a level of one place is the root (R367). -/
theorem treeRoot_of_top {v : List (Nat × Bool)} (h : levelWidth leaves.length n ≤ 1) (hi : i < levelWidth leaves.length n)
    (hv : (foldLevel leaves n)[i]? = some v) :
    treeRoot (fun a b => (sumElems a b).1) leaves.length leaves = some v := by
  obtain rfl : i = 0 := by omega
  rw [treeRoot_eq_head?_treeLevel _ _ n _ le_rfl (by rw [length_treeLevel]; exact h), List.head?_eq_getElem?, hv]

/-- Without a sibling above it, the value becomes the root, and nothing waits at its level or above. -/
theorem Fold.join_spec_top (f : Fold) (v : List (Nat × Bool)) (fl fuel : Nat) (h : levelWidth leaves.length n ≤ 1)
    (hi : i < levelWidth leaves.length n) (hv : (foldLevel leaves n)[i]? = some v)
    (hf : f.lists leaves (treeWaitsAt leaves.length arrived p n)) :
    (f.join leaves.length (fuel + 1) n i v fl).1.lists leaves (treeWaits leaves.length (p :: arrived)) ∧
      (f.join leaves.length (fuel + 1) n i v fl).1.rooted leaves (p :: arrived) := by
  rw [Fold.join_top h]
  refine ⟨Fold.lists.congr (f := { f with root := some v }) hf fun l j => ?_, fun _ _ _ => (treeRoot_of_top h hi hv).symm⟩
  unfold treeWaitsAt
  split
  · rfl
  · have hl : levelWidth leaves.length l ≤ 1 := (levelWidth_antitone _ (by omega)).trans h
    exact iff_of_false (not_treeWaits_of_narrow hl) (not_treeWaits_of_narrow hl)

/-- A value whose sibling is missing joins those that wait; nothing above it becomes known. -/
theorem Fold.lists.join_waits {f : Fold} {v : List (Nat × Bool)} (hf : f.lists leaves (treeWaitsAt leaves.length arrived p n))
    (htop : ¬ levelWidth leaves.length n ≤ 1) (hi : i < levelWidth leaves.length n) (hs : siblingIndex i < levelWidth leaves.length n)
    (hv : (foldLevel leaves n)[i]? = some v) (hnew : treeNew leaves.length arrived p n i)
    (hd : (f.nodes.find? fun d => d.level == n && d.index == siblingIndex i) = none) (hr : f.rooted leaves arrived) :
    ({ f with nodes := f.nodes ++ [⟨n, i, v⟩] } : Fold).lists leaves (treeWaits leaves.length (p :: arrived)) ∧
      ({ f with nodes := f.nodes ++ [⟨n, i, v⟩] } : Fold).rooted leaves (p :: arrived) := by
  have hmissing : ¬ treeReady leaves.length arrived n (siblingIndex i) := fun h => by
    obtain ⟨w, hw⟩ := hf.mem_of_waits ⟨h, hs, by rwa [siblingIndex_siblingIndex], by rw [siblingIndex_siblingIndex]; exact hnew.2.1⟩
    simpa using List.find?_eq_none.1 hd _ hw
  have hwaits := treeWaits_sibling_missing hi hnew hs hmissing
  refine ⟨⟨?_, fun d => ?_⟩, fun m hm hready => ?_⟩
  · refine List.nodup_append.2 ⟨hf.1, List.nodup_singleton _, ?_⟩
    rintro d hd' e he rfl
    obtain rfl := List.mem_singleton.1 he
    exact hnew.2.1 ((treeWaitsAt_self _ _ _ _ _).1 ((hf.2 _).1 hd').1).1
  · rw [List.mem_append, hf.2, hwaits, List.mem_singleton, or_and_right]
    refine or_congr_right ⟨?_, ?_⟩
    · rintro rfl; exact ⟨⟨rfl, rfl⟩, hv⟩
    · obtain ⟨l, j, e⟩ := d
      rintro ⟨⟨rfl, rfl⟩, he⟩
      rw [hv] at he
      rw [Option.some.inj he]
  · obtain ⟨k, rfl⟩ : ∃ k, m = n + 1 + k := by
      refine Nat.exists_eq_add_of_le ?_
      by_contra hmn
      exact htop ((levelWidth_antitone _ (by omega)).trans hm)
    exact hr _ hm ((hnew.above hi hs hmissing k 0).1 hready)

/-- The sibling that waits is known, has the tree's value, and leaves the fold with its parent's children gone. -/
theorem Fold.lists.erase_sibling {f : Fold} {d : FoldNode} (hf : f.lists leaves (treeWaitsAt leaves.length arrived p n))
    (hi : i < levelWidth leaves.length n) (hnew : treeNew leaves.length arrived p n i)
    (hd : (f.nodes.find? fun d => d.level == n && d.index == siblingIndex i) = some d) :
    treeReady leaves.length arrived n (siblingIndex i) ∧
      (foldLevel leaves n)[siblingIndex i]? = some d.elems ∧
      ({ f with nodes := f.nodes.erase d } : Fold).lists leaves (treeWaitsAt leaves.length arrived p (n + 1)) := by
  obtain ⟨l, j, w⟩ := d
  obtain ⟨rfl, rfl⟩ : l = n ∧ j = siblingIndex i := by simpa using List.find?_some hd
  obtain ⟨hwait, hval⟩ := (hf.2 _).1 (List.mem_of_find?_eq_some hd)
  have hready := ((treeWaitsAt_self _ _ _ _ _).1 hwait).1
  refine ⟨hready, hval, hf.1.erase _, fun e => ?_⟩
  rw [hf.1.mem_erase_iff, hf.2, treeWaitsAt_parent hi hnew fun _ => hready]
  obtain ⟨m, k, x⟩ := e
  constructor
  · rintro ⟨hne, h, hx⟩
    refine ⟨⟨h, ?_⟩, hx⟩
    rintro ⟨rfl, rfl⟩
    rw [hval] at hx
    exact hne (by cases hx; rfl)
  · rintro ⟨⟨h, hne⟩, hx⟩
    exact ⟨fun he => hne (by cases he; exact ⟨rfl, rfl⟩), h, hx⟩

/-- One value joining the fold leaves it with the values that wait once the leaf has arrived, and with the root where all have. -/
theorem Fold.join_spec (fuel : Nat) (f : Fold) (v : List (Nat × Bool)) (fl : Nat)
    (hw : levelWidth leaves.length (n + fuel) ≤ 1) (hi : i < levelWidth leaves.length n)
    (hv : (foldLevel leaves n)[i]? = some v) (hnew : treeNew leaves.length arrived p n i)
    (hf : f.lists leaves (treeWaitsAt leaves.length arrived p n)) (hr : f.rooted leaves arrived) :
    (f.join leaves.length (fuel + 1) n i v fl).1.lists leaves (treeWaits leaves.length (p :: arrived)) ∧
      (f.join leaves.length (fuel + 1) n i v fl).1.rooted leaves (p :: arrived) := by
  induction fuel generalizing n i f v fl with
  | zero => exact Fold.join_spec_top f v fl 0 hw hi hv hf
  | succ fuel ih =>
    by_cases htop : levelWidth leaves.length n ≤ 1
    · exact Fold.join_spec_top f v fl (fuel + 1) htop hi hv hf
    have hw' : levelWidth leaves.length (n + 1 + fuel) ≤ 1 := by rwa [show n + 1 + fuel = n + (fuel + 1) by omega]
    have hi' : i / 2 < levelWidth leaves.length (n + 1) := by rw [levelWidth]; omega
    by_cases hs : siblingIndex i < levelWidth leaves.length n
    · cases hd : f.nodes.find? fun d => d.level == n && d.index == siblingIndex i with
      | none =>
        rw [Fold.join_waits htop hs hd]
        exact hf.join_waits htop hi hs hv hnew hd hr
      | some d =>
        rw [Fold.join_pair htop hs hd]
        obtain ⟨hready, hval, hlists⟩ := hf.erase_sibling hi hnew hd
        exact ih _ _ _ hw' hi' (getElem?_treeLevel_siblingSum hv hval) (hnew.parent hi fun _ => hready) hlists hr
    · rw [Fold.join_last htop hi hs]
      refine ih f v fl hw' hi' (getElem?_treeLevel_last hv hi hs) (hnew.parent hi (absurd · hs)) (hf.congr fun l j => ?_) hr
      rw [treeWaitsAt_parent hi hnew (absurd · hs)]
      refine and_iff_left_of_imp ?_
      rintro h ⟨rfl, rfl⟩
      exact hs ((treeWaitsAt_self _ _ _ _ _).1 h).2.1

end

/-- After any arrivals the fold lists the values that wait and has the root where all leaves have come. -/
theorem Fold.foldl_join_spec (leaves : List (List (Nat × Bool))) (h40 : leaves.length ≤ 2 ^ 39) (order arrived : List Nat) (f : Fold)
    (hnd : (arrived.reverse ++ order).Nodup) (hlt : ∀ i ∈ order, i < leaves.length)
    (hf : f.lists leaves (treeWaits leaves.length arrived)) (hr : f.rooted leaves arrived) :
    (order.foldl (fun f i => (f.join leaves.length 40 0 i (leaves.getD i []) 0).1) f).rooted leaves (order.reverse ++ arrived) := by
  induction order generalizing arrived f with
  | nil => exact hr
  | cons i order ih =>
    have hi : i < leaves.length := hlt i List.mem_cons_self
    have hv : (foldLevel leaves 0)[i]? = some (leaves.getD i []) := by
      simp [treeLevel, hi]
    have hnew : i ∉ arrived := fun h => by
      have := (List.nodup_append.1 hnd).2.2 i (List.mem_reverse.2 h) i List.mem_cons_self
      exact this rfl
    obtain ⟨hf', hr'⟩ := Fold.join_spec 39 f (leaves.getD i []) 0 (levelWidth_le_one (by simpa using h40)) hi hv (treeNew_leaf hnew)
      (hf.congr fun l j => by simp [treeWaitsAt]) hr
    simpa using ih (i :: arrived) _ (by simpa using hnd) (fun j hj => hlt j (List.mem_cons_of_mem _ hj)) hf' hr'

/-- Settles O60: after every leaf the root is the tree's, by the values that wait in the fold along the way. -/
theorem foldIsOrderFree : Obligations.FoldIsOrderFree := by
  intro leaves order tag step hne h40 hperm
  have hmem (i : Nat) : i ∈ order ↔ i < leaves.length := by rw [hperm.mem_iff, List.mem_range]
  refine Fold.foldl_join_spec leaves h40 order [] _ (by simpa using hperm.nodup_iff.2 List.nodup_range) (fun i hi => (hmem i).1 hi)
    ⟨List.nodup_nil, fun d => ?_⟩ (fun n _ h => absurd h (not_treeReady_nil _ _ _)) 39 (levelWidth_le_one h40)
    (treeReady_of_all (fun i hi => ?_) ?_)
  · simp [treeWaits, not_treeReady_nil]
  · simpa using (hmem i).2 hi
  · have : 0 < levelWidth leaves.length 39 := levelWidth_pos (List.length_pos_iff.2 hne)
    exact this

end Sys2Proof.Machine
end

section
/-! PROOFS. A core instruction that issues (R178, R218, R221, R226), and the memories after reset (R153, R182, R493). -/

namespace Sys2Proof.Machine

/-- Settles O7: what a submitted word comes to, on the states that take it. -/
theorem coreInstructionsPerform : Obligations.CoreInstructionsPerform := fun o c w s hw hm ht hu hc =>
  exec_row_performs o c w s hw hm ht hu hc

/-- Settles O3: both memories list nothing. -/
theorem resetIsCanonical : Obligations.ResetIsCanonical := by
  have hempty : Memory.wf {} = true := Memory.wf_empty []
  exact Bool.and_eq_true_iff.2 ⟨hempty, hempty⟩

end Sys2Proof.Machine
end

section
/-! PROOFS. Every step keeps the memories in canonical form (R154, R493, R494, R495), in the parts that follow: a lemma for each function that
changes the state, after those of the functions that it calls. -/

-- The lemmas follow the call graph, so most of them wait for the one before: begun all at once, the waiting proofs would each hold a thread,
-- which is more memory than the check has. They are elaborated one after another.
set_option Elab.async false

section
/-! PROOFS. The canonical form of the memories (R154, R493, R494, R495): the predicate, and the named operations that every command's meaning
is built from. Here and below, a lemma Canon.f says that f keeps the form; a proof runs through f's own composition, from the state that f is
given. -/

namespace Sys2Proof.Machine

/-- Device memory and the tile buffers are in canonical form. -/
structure Canon (s : State) : Prop where
  mem : s.mem.wf = true
  tiles : s.tiles.wf = true

theorem canonical_iff_canon (s : State) : s.canonical = true ↔ Canon s := by
  rw [State.canonical, Bool.and_eq_true]
  exact ⟨fun h => ⟨h.1, h.2⟩, fun h => ⟨h.mem, h.tiles⟩⟩

/-! ### Composition -/

section
variable {s t : State}

/-- A state with the same memories. -/
theorem Canon.upd (h : Canon s) (hm : t.mem = s.mem := by rfl) (ht : t.tiles = s.tiles := by rfl) : Canon t :=
  ⟨hm ▸ h.mem, ht ▸ h.tiles⟩

theorem Canon.ite {c : Prop} [Decidable c] (hs : Canon s) (ht : Canon t) : Canon (if c then s else t) := by
  split
  · exact hs
  · exact ht

theorem Canon.foldl {β : Type} {f : State → β → State} {l : List β} (h : Canon s) (hf : ∀ (s : State) (x : β), Canon s → Canon (f s x)) :
    Canon (l.foldl f s) := by
  induction l generalizing s with
  | nil => exact h
  | cons x l ih => exact ih (hf s x h)

/-- A fold that carries a result beside the state. -/
theorem Canon.foldl_fst {β γ : Type} {f : State × γ → β → State × γ} {l : List β} {p : State × γ} (h : Canon p.1)
    (hf : ∀ (p : State × γ) (x : β), Canon p.1 → Canon (f p x).1) : Canon (l.foldl f p).1 := by
  induction l generalizing p with
  | nil => exact h
  | cons x l ih => exact ih (hf p x h)

/-- The state of a pair that a function answers. -/
theorem Canon.of_pair {γ : Type} {p : State × γ} {x : γ} (h : Canon p.1) (hp : p = (t, x)) : Canon t := by
  rw [hp] at h; exact h

theorem Canon.records (h : Canon s) (hr : s.records t) : Canon t := h.upd hr.mem hr.tiles

theorem Canon.counts (h : Canon s) (hr : s.counts t) : Canon t := h.upd hr.mem hr.tiles

theorem Canon.coreRecords (h : Canon s) (hr : s.coreRecords t) : Canon t := by rw [hr]; exact h.upd

theorem Canon.marks (h : Canon s) (hr : s.marks t) : Canon t := by rw [hr]; exact h.upd

end

variable {s : State}

/-! ### One core, one M-die, one ring, one port -/

/-- Another fabric. For a state that is a long term this says what Canon.upd would find only by evaluating that term. -/
theorem Canon.withFabric {f : Fabric} (h : Canon s) : Canon { s with fabric := f } := h.upd

/-- Another crest, likewise. -/
theorem Canon.withCrest {c : CrestState} (h : Canon s) : Canon { s with crest := c } := h.upd

theorem Canon.setCore {c : Nat} {k : CoreState} (h : Canon s) : Canon (s.setCore c k) := h.upd

theorem Canon.onCore {c : Nat} {f : CoreState → CoreState} (h : Canon s) : Canon (s.onCore c f) := h.upd

theorem Canon.setMdie {m : Nat} {k : MDie} (h : Canon s) : Canon (s.setMdie m k) := h.upd

theorem Canon.setRing {i : Nat} {r : Ring} (h : Canon s) : Canon (s.setRing i r) := h.upd

theorem Canon.setPort {p : Nat} {k : Port} (h : Canon s) : Canon (s.setPort p k) := h.upd

/-! ### Records and events -/

theorem Canon.hostWrite {a : Nat} {bs : List Byte} (h : Canon s) : Canon (s.hostWrite a bs) := h.records (s.hostWrite_records a bs)

theorem Canon.putRecord {i body : Nat} (h : Canon s) : Canon (s.putRecord i body) := h.records (s.putRecord_records i body)

theorem Canon.putEvent {body : Nat} (h : Canon s) : Canon (s.putEvent body) := h.records (s.putEvent_records body)

theorem Canon.reportLost (h : Canon s) : Canon s.reportLost := h.records s.reportLost_records

theorem Canon.event {code cls src step detail : Nat} (h : Canon s) : Canon (s.event code cls src step detail) :=
  h.records (s.event_records code cls src step detail)

theorem Canon.linkError {cls src step a : Nat} (h : Canon s) : Canon (s.linkError cls src step a) :=
  h.records (s.linkError_records cls src step a)

theorem Canon.illegalWrite {doorbell : Bool} {offset cause : Nat} (h : Canon s) : Canon (s.illegalWrite doorbell offset cause) :=
  h.records (s.illegalWrite_records doorbell offset cause)

theorem Canon.flushHeld (h : Canon s) : Canon s.flushHeld := .ite h (h.reportLost.foldl fun _ _ h => h.putEvent).upd

theorem Canon.completeWith {d : DescRef} {status extra detail : Nat} (h : Canon s) : Canon (s.completeWith d status extra detail) := by
  unfold State.completeWith
  extract_lets
  exact .ite h.upd.putRecord h.upd

theorem Canon.complete {d : DescRef} {status : Nat} (h : Canon s) : Canon (s.complete d status) := h.completeWith

/-! ### Marks on a step's contribution -/

theorem Canon.updStep {n : Nat} {f : StepRec → StepRec} (h : Canon s) : Canon (s.updStep n f) := h.upd

theorem Canon.markStain {n : Nat} (h : Canon s) : Canon (s.markStain n) := h.marks (s.markStain_frame n)

theorem Canon.markOldest (h : Canon s) : Canon s.markOldest := h.marks s.markOldest_frame

theorem Canon.markNonfinite {n : Nat} (h : Canon s) : Canon (s.markNonfinite n) := h.updStep

theorem Canon.raiseStep {n f : Nat} (h : Canon s) : Canon (s.raiseStep n f) := h.updStep

/-! ### Counted reads -/

theorem Canon.tellReads (h : Canon s) : Canon s.tellReads := ((h.foldl fun _ _ h => h.event).foldl fun _ _ h => h.event).upd

theorem Canon.countRead {die k cls src addr : Nat} {mark : Mark} (h : Canon s) : Canon (s.countRead die k cls src addr mark) :=
  h.records (s.countRead_records die k cls src addr mark)

theorem Canon.retireEntry {e : MergeEntry} (h : Canon s) : Canon (s.retireEntry e) := h.counts (s.retireEntry_counts e)

theorem Canon.retireOwned {key : Nat} (h : Canon s) : Canon (s.retireOwned key) := h.counts (s.retireOwned_counts key)

theorem Canon.noteRead {a n : Nat} (h : Canon s) : Canon (s.noteRead a n) := h.counts (s.noteRead_counts a n)

theorem Canon.noteWrite {owner a n : Nat} (h : Canon s) : Canon (s.noteWrite owner a n) := h.counts (s.noteWrite_counts owner a n)

/-- A counted read of a tile buffer changes records only. The function is unfolded by itself: beside its arguments the kernel would
evaluate the address that instanceOf is asked about. -/
theorem State.noteTile_records (s : State) (c t o n : Nat) : s.records (s.noteTile c t o n) := by
  obtain ⟨f, hf⟩ : ∃ f, f = State.noteTile := ⟨_, rfl⟩
  rw [← hf]
  delta State.noteTile at hf
  subst hf
  beta_reduce
  obtain ⟨die, _, cls, src, _⟩ := instanceOf s (storeAddr c 0)
  refine State.records_foldl _ (fun t g => ?_) _ s
  split
  · rfl
  · rfl
  · exact t.countRead_records _ _ _ _ _ _

theorem Canon.noteTile {c t o n : Nat} (h : Canon s) : Canon (s.noteTile c t o n) := h.records (s.noteTile_records c t o n)

theorem Canon.noteFetch {c i : Nat} (h : Canon s) : Canon (s.noteFetch c i) := h.records (s.noteFetch_records c i)

theorem Canon.noteTables {ws : List TableWord} (h : Canon s) : Canon (s.noteTables ws) := h.counts (s.noteTables_counts ws)

/-- An operation that uses table words keeps the form where its effect does. -/
theorem Canon.useTables {ws : List TableWord} {f : State → State} (h : Canon s) (hf : ∀ {t : State}, Canon t → Canon (f t)) :
    Canon (s.useTables ws f) := .ite h.noteTables.markOldest (hf h.noteTables)

theorem Canon.rewriteTables {p : TableWord → Bool} (h : Canon s) : Canon (s.rewriteTables p) := h.upd

theorem Canon.appendLog {type version tag extra digest : Nat} (h : Canon s) : Canon (s.appendLog type version tag extra digest) := h.upd

/-! ### Writes -/

theorem Canon.save {a : Nat} {bs : List (Byte × Bool)} (h : Canon s) : Canon (s.save a bs) := ⟨s.save_wf a bs h.mem, h.tiles⟩

theorem Canon.saveNum {a n x : Nat} {stain : Bool} (h : Canon s) : Canon (s.saveNum a n x stain) := h.save

theorem Canon.tileSave {c t o : Nat} {bs : List (Byte × Bool)} (h : Canon s) : Canon (s.tileSave c t o bs) :=
  ⟨h.mem, s.tileSave_wf c t o bs h.tiles⟩

theorem Canon.fillRange {a n : Nat} {pat : Word} (h : Canon s) : Canon (s.fillRange a n pat) :=
  ⟨s.fillRange_wf a n pat h.mem, by rw [(s.fillRange_stores a n pat).tiles]; exact h.tiles⟩

theorem Canon.put {owner a : Nat} {bs : List (Byte × Bool)} (h : Canon s) : Canon (s.put owner a bs) :=
  .ite h.noteWrite.save.retireOwned h.noteWrite.save

theorem Canon.putNum {owner a n x : Nat} {stain : Bool} (h : Canon s) : Canon (s.putNum owner a n x stain) := h.put

theorem Canon.putTile {c t o : Nat} {bs : List (Byte × Bool)} (h : Canon s) : Canon (s.putTile c t o bs) :=
  (h.foldl fun _ _ h => h.noteTile).tileSave

/-! ### Instructions at issue -/

theorem Canon.refuseIssue {x : Issue} {r : IssueRefusal} (h : Canon s) : Canon (s.refuseIssue x r) :=
  (Canon.ite h.event h.event.upd).markStain

theorem Canon.raise {x : Issue} {f : Nat} (h : Canon s) : Canon (s.raise x f) := .ite h h.onCore

theorem Canon.addToken {c k n : Nat} (h : Canon s) : Canon (s.addToken c k n) := h.onCore.records (s.addToken_records c k n)

theorem Canon.signal {w : Nat} (h : Canon s) : Canon (s.signal w) := h.coreRecords (s.signal_coreRecords w)

theorem Canon.amax {entry mag : Nat} {stain : Bool} (h : Canon s) : Canon (s.amax entry mag stain) := h.upd

end Sys2Proof.Machine
end

section
/-! PROOFS. The canonical form of the memories: cell arrays, accumulator memory and the gradient fold. -/

namespace Sys2Proof.Machine

variable {s : State}

theorem Canon.noteRows {c addr pitch rows fmt n : Nat} {scales : Option Nat} {stride : Nat} (h : Canon s) :
    Canon (s.noteRows c addr pitch rows fmt n scales stride) := by
  unfold State.noteRows
  refine h.foldl fun _ _ h => ?_
  extract_lets
  split
  · exact h.noteRead.noteRead
  · exact h.noteRead

theorem Canon.addRow {c step row mode : Nat} {start : Bool} {index : Nat} {bs : List (Rounded × Bool)} (h : Canon s) :
    Canon (s.addRow c step row mode start index bs) := by
  unfold State.addRow
  extract_lets s1 s2 _ _ s3
  have h1 : Canon s1 := .ite h h.noteRead
  have h2 : Canon s2 := .ite h1 h1.noteRead
  have h3 : Canon s3 := .ite h2.put.put h2.put
  exact .ite h3 h3.onCore

theorem Canon.streamVector {c step part : Nat} {q : Int} {fmt : Nat} {set : StatSet} {v : List Elem}
    {row second mode : Nat} {start : Bool} {index : Nat} (h : Canon s) :
    Canon (s.streamVector c step part q fmt set v row second mode start index) :=
  .ite h.addRow h.addRow.addRow

theorem Canon.noteStream {c addr : Nat} {scales : Option Nat} {fmt orient pitch m k : Nat} (h : Canon s) :
    Canon (s.noteStream c addr scales fmt orient pitch m k) :=
  .ite h.noteRows h.noteRows

theorem Canon.tellParity {c : Nat} {set : StatSet} (h : Canon s) : Canon (s.tellParity c set) := h.foldl fun _ _ h => h.event

theorem Canon.streamEntry {c : Nat} {set : StatSet} {e : BatchEntry} (h : Canon s) : Canon (s.streamEntry c set e) :=
  h.noteStream.foldl fun _ _ h => h.streamVector

theorem Canon.issueBatch {c : Nat} (h : Canon s) : Canon (s.issueBatch c) := by
  unfold State.issueBatch
  refine .ite h ?_
  split
  extract_lets
  split
  · exact h.setCore.tellParity.foldl fun _ _ h => h.streamEntry
  · exact h.setCore

theorem Canon.applyLoadset {x : Issue} (h : Canon s) : Canon (applyLoadset x s) := by
  unfold Machine.applyLoadset
  extract_lets _ _ _ _ _ s1
  have h1 : Canon s1 := .ite h.issueBatch h
  exact h1.noteRows.onCore

theorem Canon.applyPass {x : Issue} (h : Canon s) : Canon (applyPass x s) := by
  unfold Machine.applyPass
  extract_lets
  split
  · exact h.issueBatch
  · extract_lets s1
    have h1 : Canon s1 := .ite h.issueBatch.setCore h.issueBatch
    exact h1.noteStream.tellParity.foldl fun _ _ h => h.streamVector

theorem Canon.applyEnq {x : Issue} (h : Canon s) : Canon (applyEnq x s) := by
  unfold Machine.applyEnq
  extract_lets _ _ s1
  have h1 : Canon s1 := .ite h.issueBatch h
  exact .ite h1.onCore.issueBatch h1.onCore

theorem Canon.applyFlush {x : Issue} (h : Canon s) : Canon (applyFlush x s) := h.issueBatch

theorem Canon.matvecBlock {x : Issue} {q : Int} {ws : List (List Elem)} {v : List Elem} {p0 b : Nat} (h : Canon s) :
    Canon (s.matvecBlock x q ws v p0 b) :=
  h.foldl fun _ _ h => h.addRow

theorem Canon.applyMatvec {x : Issue} (h : Canon s) : Canon (applyMatvec x s) :=
  h.issueBatch.noteRows.noteRows.foldl fun _ _ h => h.matvecBlock

theorem Canon.applyTclr {x : Issue} (h : Canon s) : Canon (applyTclr x s) := h.fillRange

theorem Canon.applyCombine {x : Issue} (h : Canon s) : Canon (applyCombine x s) := by
  unfold Machine.applyCombine
  extract_lets _ _ _ _ s1 _ _ _ _ s2
  have h1 : Canon s1 := h.noteRead.foldl fun _ _ h => h.noteRead
  have h2 : Canon s2 := .ite h1.put.put h1.put
  exact h2.raise

theorem Canon.setFold {f : Fold} (h : Canon s) : Canon (s.setFold f) := h.upd

theorem Canon.markRoot {step : Nat} {root : Option (List (Nat × Bool))} (h : Canon s) : Canon (s.markRoot step root) := by
  unfold State.markRoot
  split
  · exact h
  · extract_lets s1
    have h1 : Canon s1 := .ite h.markStain h
    exact .ite h1.markNonfinite h1

theorem Canon.deliver {b : Bucket} {step pos off flushes : Nat} {es : List (Nat × Bool)} {t : State} (h : Canon s)
    (ht : s.deliver b step pos off flushes es = some t) : Canon t := by
  unfold State.deliver at ht
  extract_lets at ht
  split at ht
  · cases ht
  · cases ht
    exact h.setFold.raiseStep.markRoot

theorem Canon.dropFolds {steps : List Nat} (h : Canon s) : Canon (s.dropFolds steps) := h.upd

end Sys2Proof.Machine
end

section
/-! PROOFS. The canonical form of the memories: packets, the vector engine, the movers, the codec, the kernels and the update engine. -/

namespace Sys2Proof.Machine

variable {s : State}

theorem Canon.lEvent {code l step detail : Nat} (h : Canon s) : Canon (s.lEvent code l step detail) := h.event

theorem Canon.crcEvent {p detail : Nat} (h : Canon s) : Canon (s.crcEvent p detail) := h.upd.lEvent

theorem Canon.dropCorrupt {p : Nat} {k : Packet} (h : Canon s) : Canon (s.dropCorrupt p k) := h.lEvent.markOldest

theorem Canon.inspect {p : Nat} {k : Packet} (h : Canon s) : Canon (s.inspect p k).1 := by
  unfold State.inspect
  split
  · exact h.crcEvent.markOldest
  · split
    · exact h.dropCorrupt
    · split
      · split
        · exact h.crcEvent
        · exact h.crcEvent
      · split
        · exact h.dropCorrupt
        · exact h

theorem Canon.land {k : Packet} (h : Canon s) : Canon (s.land k) := .ite h.upd (Canon.ite h.upd.retireOwned.addToken h.upd.retireOwned)

theorem Canon.refuseWrite {l : Nat} {k : Packet} (h : Canon s) : Canon (s.refuseWrite l k) := h.lEvent.markStain

theorem Canon.block {l : Nat} {k : Packet} {all : Bool} (h : Canon s) : Canon (s.block l k all) := h.upd

theorem Canon.fabricWrite {l : Nat} {k : Packet} {all : Bool} {a : Nat} {bs : List (Byte × Bool)} (h : Canon s) :
    Canon (s.fabricWrite l k all a bs) :=
  .ite h.refuseWrite (Canon.ite h.block h.put.land)

theorem Canon.receiveWrite {l : Nat} {k : Packet} {all : Bool} (h : Canon s) : Canon (s.receiveWrite l k all) := by
  unfold State.receiveWrite
  split
  · exact h
  · exact h.useTables fun h => h.fabricWrite

theorem Canon.corruptFold {l : Nat} {k : Packet} (h : Canon s) : Canon (s.corruptFold l k) := .ite h.lEvent.markStain h.lEvent.markOldest

theorem Canon.hold {l : Nat} {k : Packet} (h : Canon s) : Canon (s.hold l k) := .ite h.upd (Canon.ite h.upd h.upd.lEvent.markOldest)

theorem Canon.countStale (h : Canon s) : Canon s.countStale := h.upd

theorem Canon.receiveBucket {l : Nat} {k : Packet} {all : Bool} (h : Canon s) : Canon (s.receiveBucket l k all) := by
  unfold State.receiveBucket
  extract_lets
  split
  · exact h.countStale
  · exact h.hold
  · refine h.useTables fun h => ?_
    split
    · rename_i ht; exact h.deliver ht
    · exact h.corruptFold
  · exact h.corruptFold

theorem Canon.receiveOstage {l : Nat} {k : Packet} {all : Bool} (h : Canon s) : Canon (s.receiveOstage l k all) := by
  unfold State.receiveOstage
  split
  · exact h.countStale
  · exact h.hold
  · exact h.receiveWrite
  · exact h.corruptFold

theorem Canon.carry {x : Sending} (h : Canon s) : Canon (s.carry x) := by
  unfold State.carry
  extract_lets
  split
  · exact h.upd
  · exact .ite h.upd h.setPort

theorem Canon.pump (h : Canon s) : Canon s.pump := h.upd.foldl fun _ _ h => h.carry

theorem Canon.emit {k : Packet} {l : Nat} (h : Canon s) : Canon (s.emit k l) := .ite h h.upd.carry

theorem Canon.reroute {p : Nat} {q : Port} (h : Canon s) : Canon (s.reroute p q) := h.upd.pump

theorem Canon.sendData {l : Nat} {k : Packet} (h : Canon s) : Canon (s.sendData l k) := by
  unfold State.sendData
  refine .ite ?_ ?_
  · split
    · exact h.receiveBucket
    · exact h.receiveOstage
    · exact h.receiveWrite
  · exact h.emit

theorem Canon.sendTransfer {l : Nat} {o : Outgoing} {bs : List (Byte × Bool)} (h : Canon s) : Canon (s.sendTransfer l o bs) :=
  h.upd.foldl fun _ _ h => h.sendData

theorem Canon.putLanes {x : Issue} {v : Nat} {rs : List LaneOut} (h : Canon s) : Canon (s.putLanes x v rs) := h.onCore.raise

theorem Canon.applyVop {x : Issue} (h : Canon s) : Canon (applyVop x s) := h.putLanes

theorem Canon.applyVcvt {x : Issue} (h : Canon s) : Canon (applyVcvt x s) := by
  unfold Machine.applyVcvt
  extract_lets _ _ entry _ _ after
  have ha : Canon after := by
    unfold after
    clear_value entry
    split
    · exact h.amax
    · exact h
  exact .ite ha.putLanes.onCore.raise ha.putLanes

theorem Canon.applyVsplit {x : Issue} (h : Canon s) : Canon (applyVsplit x s) := h.putLanes.putLanes

theorem Canon.applyVperm {x : Issue} (h : Canon s) : Canon (applyVperm x s) := h.putLanes

theorem Canon.applyVsetvl {x : Issue} (h : Canon s) : Canon (applyVsetvl x s) := h.onCore

theorem Canon.applyVmovs {x : Issue} (h : Canon s) : Canon (applyVmovs x s) := h.putLanes

theorem Canon.vldNote {x : Issue} {n : Nat} (h : Canon s) : Canon (vldNote x s n) := by
  unfold Machine.vldNote
  extract_lets
  split
  · exact h.noteTile
  · exact .ite h.noteRead.noteRead h.noteRead
  · exact h.noteRead

theorem Canon.applyVld {x : Issue} (h : Canon s) : Canon (applyVld x s) := h.vldNote.putLanes

theorem Canon.applyVst {x : Issue} (h : Canon s) : Canon (applyVst x s) := by
  unfold Machine.applyVst
  extract_lets
  split
  · exact h.putTile
  · exact h.put
  · exact h.put

theorem Canon.placeNote {c step : Nat} {p : Place} {a n : Nat} (h : Canon s) : Canon (s.placeNote c step p a n) := by
  unfold State.placeNote
  split
  · exact h.noteTile
  · exact .ite (Canon.ite h.linkError h) (Canon.ite (Canon.ite h.noteRead h.upd) h.noteRead)

theorem Canon.remoteStore {step a : Nat} {bs : List (Byte × Bool)} (h : Canon s) : Canon (s.remoteStore step a bs) := by
  unfold State.remoteStore
  split
  · exact h
  · exact .ite h h.sendTransfer

theorem Canon.hostStore {c step a : Nat} {bs : List (Byte × Bool)} (h : Canon s) : Canon (s.hostStore c step a bs) :=
  h.foldl fun _ _ h => Canon.ite h.event h.hostWrite

theorem Canon.placeSave {c step : Nat} {p : Place} {a : Nat} {bs : List (Byte × Bool)} (h : Canon s) :
    Canon (s.placeSave c step p a bs) := by
  unfold State.placeSave
  split
  · exact h.putTile
  · exact .ite h.hostStore (Canon.ite h.remoteStore h.put)

theorem Canon.closePieces {c : Nat} {p : Place} {ps : List (Nat × List (Byte × Bool))} (h : Canon s) : Canon (s.closePieces c p ps) := by
  unfold State.closePieces
  split
  · exact ⟨h.mem, Memory.wf_closeLanes _ _ h.tiles⟩
  · exact ⟨Memory.wf_closeLanes _ _ h.mem, h.tiles⟩

theorem Canon.applyCopy {x : Issue} (h : Canon s) : Canon (applyCopy x s) := by
  unfold Machine.applyCopy
  extract_lets _ _ _ _ _ r
  have hr : Canon r.1 := Canon.foldl_fst h fun _ _ h => h.placeNote.placeSave
  exact hr.closePieces

theorem Canon.applyFill {x : Issue} (h : Canon s) : Canon (applyFill x s) := h.foldl fun _ _ h => Canon.ite h.fillRange h.placeSave

theorem Canon.applyDsplit {x : Issue} (h : Canon s) : Canon (applyDsplit x s) := by
  unfold Machine.applyDsplit
  extract_lets
  exact h.placeNote.placeSave.placeSave.closePieces

theorem Canon.setActRun {a : ActRun} (h : Canon s) : Canon (s.setActRun a) := h.upd

theorem Canon.mEvent {code m step detail : Nat} (h : Canon s) : Canon (s.mEvent code m step detail) := h.event

theorem Canon.countFetch {entry step : Nat} (h : Canon s) : Canon (s.countFetch entry step) := h.setActRun

theorem Canon.makeUnavailable {entry step : Nat} (h : Canon s) : Canon (s.makeUnavailable entry step) := h.setActRun

theorem Canon.talusPacket {type step target id len : Nat} {bs : List (Byte × Bool)} (h : Canon s) :
    Canon (s.talusPacket type step target id len bs) := by
  unfold State.talusPacket
  split
  · exact h.sendData
  · exact h

theorem Canon.putPayload {e : ActEntry} {m entry step off : Nat} {c : Coded} (h : Canon s) : Canon (s.putPayload e m entry step off c) :=
  .ite h.put (Canon.ite (Canon.ite h.mEvent h.hostWrite) (Canon.ite h h.upd.talusPacket))

theorem Canon.packBlock {e : ActEntry} {m entry step b : Nat} (h : Canon s) : Canon (s.packBlock e m entry step b) := by
  unfold State.packBlock
  extract_lets _ _ _ _ _ _ _ s1 _ s2
  have h1 : Canon s1 := .ite h.noteRead.noteRead h.noteRead
  have h2 : Canon s2 := .ite h1.raiseStep.setMdie h1.raiseStep
  exact .ite h (.ite h2.mEvent.makeUnavailable h2.putPayload.putNum.setActRun)

theorem Canon.packRange {e : ActEntry} {m entry step first count : Nat} (h : Canon s) : Canon (s.packRange e m entry step first count) :=
  h.foldl fun _ _ h => h.packBlock

theorem Canon.refuseCodec {m entry step : Nat} {r : Nat × Bool} (h : Canon s) : Canon (s.refuseCodec m entry step r) := h.mEvent.markStain

theorem Canon.deliverBlock {e : ActEntry} {pay : Nat → List (Byte × Bool)} {b : Nat} (h : Canon s) : Canon (s.deliverBlock e pay b) :=
  .ite h.put.put h.put

theorem Canon.noteHostReads {e : ActEntry} {m step : Nat} {bs : List Nat} (h : Canon s) : Canon (s.noteHostReads e m step bs) :=
  h.foldl fun _ _ h => Canon.ite h.linkError h

theorem Canon.noteIndex {e : ActEntry} {first count : Nat} (h : Canon s) : Canon (s.noteIndex e first count) := h.noteRead

theorem Canon.deliverRange {e : ActEntry} {pay : Nat → List (Byte × Bool)} {first count : Nat} (h : Canon s) :
    Canon (s.deliverRange e pay first count) :=
  (h.foldl fun _ _ h => h.deliverBlock).upd

theorem Canon.unpackRange {e : ActEntry} {m entry step first count : Nat} (h : Canon s) :
    Canon (s.unpackRange e m entry step first count) := by
  unfold State.unpackRange
  refine .ite h ?_
  split
  · exact h.noteIndex.refuseCodec
  · exact (h.noteIndex.foldl fun _ _ h => h.noteRead).deliverRange

theorem Canon.talusReads {e : ActEntry} {m entry step : Nat} {bs : List Nat} (h : Canon s) : Canon (s.talusReads e m entry step bs) :=
  h.foldl fun _ _ h => Canon.ite h h.upd.talusPacket

theorem Canon.deliverTalus {e : ActEntry} {m entry step first count : Nat} (h : Canon s) :
    Canon (s.deliverTalus e m entry step first count) :=
  (Canon.ite h h.deliverRange).upd

theorem Canon.fetchRange {e : ActEntry} {m entry step first count : Nat} (h : Canon s) :
    Canon (s.fetchRange e m entry step first count) := by
  unfold State.fetchRange
  refine .ite h ?_
  split
  · exact h.noteIndex.refuseCodec
  · exact .ite h.noteIndex.noteHostReads.deliverRange (Canon.ite h.noteIndex.talusReads h.noteIndex.talusReads.deliverTalus)

theorem Canon.applyKload {x : Issue} (h : Canon s) : Canon (applyKload x s) := by
  unfold Machine.applyKload
  extract_lets
  exact h.noteRead.onCore

theorem Canon.putOutput {x : Issue} {g : TileRegion} {out : Nat} {rows : List (List LaneOut)} (h : Canon s) :
    Canon (s.putOutput x g out rows) :=
  h.foldl fun _ _ h => Canon.ite h.put h.putTile

theorem Canon.noteTileInput {c f : Nat} {g : TileRegion} (h : Canon s) : Canon (s.noteTileInput c f g) := by
  unfold State.noteTileInput
  extract_lets
  refine h.foldl fun _ _ h => ?_
  split
  · exact h.noteTile
  · exact h.noteRead
  · exact h.noteRead.noteRead
  · exact h

theorem Canon.kapplyAmax {x : Issue} {temps : List (List (List (Nat × Bool)))} {h : Nat} {after : State} (hs' : Canon after) :
    Canon (kapplyAmax x s temps h after) := by
  unfold Machine.kapplyAmax
  split
  · exact hs'
  · exact .ite hs' hs'.amax

theorem Canon.applyKapply {x : Issue} (h : Canon s) : Canon (applyKapply x s) := by
  unfold Machine.applyKapply
  extract_lets _ _ _ _ _ s1 s2
  have h1 : Canon s1 := h.foldl fun _ _ h => h.noteTileInput
  have h2 : Canon s2 := h1.foldl fun _ _ h => h.putOutput
  exact h2.kapplyAmax.raise

theorem Canon.setPowers {bank g p1 p2 : Nat} (h : Canon s) : Canon (s.setPowers bank g p1 p2) := h.upd

theorem Canon.beginPowers {p : Plan} {step : Nat} (h : Canon s) : Canon (s.beginPowers p step) :=
  h.foldl fun _ _ h => h.useTables fun h => Canon.ite h.setPowers.markNonfinite h.setPowers

theorem Canon.markRound {step round : Nat} {stain nonfinite : Bool} (h : Canon s) : Canon (s.markRound step round stain nonfinite) := by
  unfold State.markRound
  refine .ite ?_ ?_
  · extract_lets s1
    have h1 : Canon s1 := .ite h.markStain h
    exact .ite h1.markNonfinite h1
  · exact h.updStep

theorem Canon.updateBucket {p : Plan} {b : Bucket} {g : Group} {step factor round : Nat} (h : Canon s) :
    Canon (s.updateBucket p b g step factor round) := by
  unfold State.updateBucket
  extract_lets _ _ _ _ _ _ _ _ _ s1 s2
  have h1 : Canon s1 := h.foldl fun _ _ h => h.noteRead
  have h2 : Canon s2 := by
    refine .ite h1 ?_
    split
    · exact h1.event
    · exact h1
  split
  extract_lets _ _ s3
  have h3 : Canon s3 := h2.put.put.put
  exact (Canon.ite h3.put h3).setPowers.markRound.raiseStep

end Sys2Proof.Machine
end

section
/-! PROOFS. The canonical form of the memories: verdicts, collectives, host rings, resets, registers, Cairn and the fabric's instructions. -/

namespace Sys2Proof.Machine

variable {s : State}

theorem Canon.sendPlain {type address : Nat} {old : Bool} {body : List Byte} (h : Canon s) : Canon (s.sendPlain type address old body) :=
  h.emit

theorem Canon.sendAcked {type address : Nat} {old : Bool} {body : List Byte} (h : Canon s) : Canon (s.sendAcked type address old body) :=
  .ite h h.upd.emit

theorem Canon.mapRank {r : Nat} {f : Nat → Nat} (h : Canon s) : Canon (s.mapRank r f) := h.upd

theorem Canon.loseRank {r : Nat} (h : Canon s) : Canon (s.loseRank r) := .ite h h.mapRank.lEvent.upd

theorem Canon.loseTalus (h : Canon s) : Canon s.loseTalus := by
  unfold State.loseTalus
  split
  · exact h
  · exact (Canon.ite h.upd h.upd.lEvent).foldl fun _ _ h => h.makeUnavailable

theorem Canon.withdrawEntries (h : Canon s) : Canon s.withdrawEntries := by
  unfold State.withdrawEntries
  split
  · exact h
  · exact h.foldl fun _ _ h => h.foldl fun _ _ h => h.makeUnavailable

theorem Canon.dropMove {m : RankMoveRun} (h : Canon s) : Canon (s.dropMove m) := h.upd.complete

theorem Canon.loseAddress {a : Nat} (h : Canon s) : Canon (s.loseAddress a) := by
  unfold State.loseAddress
  extract_lets _ s1 s2
  have h1 : Canon s1 := h.foldl fun _ _ h => h.loseRank
  have h2 : Canon s2 := .ite h1.loseTalus.withdrawEntries h1
  exact h2.foldl fun _ _ h => h.dropMove

theorem Canon.broadcast {type : Nat} {body : List Byte} (h : Canon s) : Canon (s.broadcast type body) :=
  h.foldl fun _ _ h => Canon.ite h (h.useTables fun h => h.sendAcked)

theorem Canon.takeVerdict {step : Nat} {v : Verdict} {k : Option Packet} (h : Canon s) : Canon (s.takeVerdict step v k) := by
  unfold State.takeVerdict
  refine .ite ?_ (.ite h.countStale (.ite h h.updStep))
  split
  · exact h.upd
  · exact h

theorem Canon.joinBallot {step epoch round n fuel level i : Nat} {own : Bool} {b : Ballot} (h : Canon s) :
    Canon (State.joinBallot step epoch round n fuel s level i own b) := by
  induction fuel generalizing s level i own b with
  | zero => exact h
  | succ fuel ih =>
    unfold State.joinBallot
    extract_lets
    refine .ite h.broadcast.takeVerdict (.ite (ih h) (.ite ?_ ?_))
    · split
      · exact .ite h (h.useTables fun h => h.sendAcked)
      · exact h
    · split
      · exact h.upd
      · exact ih h.upd

theorem Canon.contribute {step round : Nat} {b : Ballot} (h : Canon s) : Canon (s.contribute step round b) := h.joinBallot

theorem Canon.handOver {step round : Nat} (h : Canon s) : Canon (s.handOver step round) :=
  .ite h.noteTables.raiseStep.updStep.contribute h.updStep.contribute

theorem Canon.vcontrib {m step : Nat} (h : Canon s) : Canon (s.vcontrib m step) := by
  unfold State.vcontrib
  split
  · exact h
  · exact .ite h (Canon.ite h.updStep.handOver h.updStep)

theorem Canon.finishCollective {number step : Nat} (h : Canon s) : Canon (s.finishCollective number step) := by
  unfold State.finishCollective
  split
  · exact .ite ((Canon.ite h.upd h.upd).addToken) (Canon.ite h.upd h.upd)
  · exact h

theorem Canon.setBarrier {b : BarrierWait} (h : Canon s) : Canon (s.setBarrier b) := h.upd

theorem Canon.finishMove {number : Nat} (h : Canon s) : Canon (s.finishMove number) := by
  unfold State.finishMove
  split
  · exact h.upd.completeWith
  · exact h

theorem Canon.releaseBarrier {number step : Nat} (h : Canon s) : Canon (s.releaseBarrier number step) :=
  .ite h.upd.finishMove (Canon.ite h.upd h.upd.finishCollective)

theorem Canon.countArrivals {number step n flags : Nat} (h : Canon s) : Canon (s.countArrivals number step n flags) :=
  .ite h.releaseBarrier h.setBarrier

theorem Canon.arrive {number step : Nat} (h : Canon s) : Canon (s.arrive number step) := h.setBarrier.emit.countArrivals

theorem Canon.tryCollective {number step : Nat} (h : Canon s) : Canon (s.tryCollective number step) := by
  unfold State.tryCollective
  split
  · exact .ite h (Canon.ite h (Canon.ite h (Canon.ite h.put.raiseStep.finishCollective h.put.finishCollective)))
  · exact h

theorem Canon.keepPart {p : CollPart} (h : Canon s) : Canon (s.keepPart p) := h.upd

theorem Canon.sendPart {l : Nat} {c : Collective} {number step : Nat} (h : Canon s) : Canon (s.sendPart l c number step) := by
  unfold State.sendPart
  extract_lets _ _ _ _ _ _ s1 _ s2
  have h1 : Canon s1 := h.noteRead.foldl fun _ _ h => h.keepPart
  have h2 : Canon s2 := .ite h1 h1.sendTransfer
  exact .ite h2 (h2.foldl fun _ _ h => h.sendTransfer)

theorem Canon.beginCollective {o : OpenCollective} (h : Canon s) : Canon (s.beginCollective o) := by
  unfold State.beginCollective
  split
  · exact h
  · exact .ite h ((Canon.ite h.sendPart h).upd)

theorem Canon.startCollective {l number step : Nat} {c : Collective} (h : Canon s) : Canon (s.startCollective l number step c) :=
  .ite h (h.useTables fun h => .ite h.upd.arrive h.upd.beginCollective.tryCollective)

theorem Canon.retryCollectives (h : Canon s) : Canon s.retryCollectives := h.foldl fun _ _ h => h.beginCollective.tryCollective

theorem Canon.putFree {cring body : Nat} (h : Canon s) : Canon (s.putFree cring body) := .ite h (Canon.ite h.putRecord h.upd)

theorem Canon.placeWaits (h : Canon s) : Canon s.placeWaits := h.upd.foldl fun _ _ h => h.foldl fun _ _ h => h.putFree

theorem Canon.doorbell {i v : Nat} (h : Canon s) : Canon (s.doorbell i v) :=
  .ite h (Canon.ite h.illegalWrite (Canon.ite h.event.illegalWrite (Canon.ite h.setRing h.setRing.placeWaits)))

theorem Canon.haltRing {r reason : Nat} (h : Canon s) : Canon (s.haltRing r reason) := h.setRing.event

theorem Canon.refuseKind {r : Nat} (h : Canon s) : Canon (s.refuseKind r) := by
  unfold State.refuseKind
  split
  · exact .ite h h.complete
  · exact h

theorem Canon.fetch {r : Nat} (h : Canon s) : Canon (s.fetch r) := .ite h.upd.linkError.haltRing (Canon.ite h.upd.haltRing h.upd.refuseKind)

theorem Canon.alertFrom {old new : State} (h' : Canon new) : Canon (old.alertFrom new) := .ite h' h'.upd

theorem Canon.setHot {h : HotPlug} (hs : Canon s) : Canon (s.setHot h) :=
  .ite hs.upd.alertFrom ((Canon.ite hs.upd.alertFrom.flushHeld hs.upd.alertFrom).event)

theorem Canon.portsOff {ps : List Nat} (h : Canon s) : Canon (s.portsOff ps) := h.foldl fun _ _ h => h.setPort

theorem Canon.enterPort {p : Nat} {k : Port} {st : PortState} (h : Canon s) : Canon (s.enterPort p k st) := h.setPort.event

theorem Canon.cold (_ : Canon s) : Canon s.cold := ⟨Memory.wf_empty [], Memory.wf_empty []⟩

theorem Canon.powerOff {h : HotPlug} (hs : Canon s) : Canon (s.powerOff h) := hs.cold.upd.alertFrom

theorem Canon.deviceReset (h : Canon s) : Canon s.deviceReset := by
  unfold State.deviceReset
  extract_lets c
  have hc : Canon c := h.cold
  exact hc.upd.setHot.alertFrom

theorem Canon.freshCdie {c : Nat} (h : Canon s) : Canon (s.freshCdie c) := by
  refine ⟨?_, ?_⟩
  · exact Memory.wf_poison _ _ _ (Memory.wf_poison _ _ _ (Memory.wf_poison _ _ _ (Memory.wf_poison _ _ _ h.mem)))
  · exact Memory.wf_poison _ _ _ (Memory.wf_poison _ _ _ h.tiles)

theorem Canon.resetCdie {c : Nat} (h : Canon s) : Canon (s.resetCdie c) := h.freshCdie.upd

theorem Canon.resetMdie {m : Nat} (h : Canon s) : Canon (s.resetMdie m) :=
  ⟨Memory.wf_poison _ _ _ (Memory.wf_poison _ _ _ h.mem), h.tiles⟩

theorem Canon.resetLdie {l : Nat} (h : Canon s) : Canon (s.resetLdie l) := by
  unfold State.resetLdie
  extract_lets s1
  have h1 : Canon s1 := h.portsOff.rewriteTables
  exact h1.upd

theorem Canon.beginReset {dies : List Nat} (h : Canon s) : Canon (s.beginReset dies) := h.upd

/-! ### Registers -/

/-- The state after an accepted write of a register. -/
def CanonResult (r : RegResult) : Prop := ∀ t, r = .ok t → Canon t

/-- What a write of a register does, where an offset has one. -/
def CanonRegister (o : Option (State → RegResult)) : Prop := ∀ f, o = some f → ∀ {s : State}, Canon s → CanonResult (f s)

theorem CanonRegister.none : CanonRegister none := fun _ h => nomatch h

theorem CanonRegister.some {f : State → RegResult} (hf : ∀ {s : State}, Canon s → CanonResult (f s)) : CanonRegister (some f) := by
  rintro _ ⟨⟩; exact hf

theorem CanonRegister.ite {c : Prop} [Decidable c] {o o' : Option (State → RegResult)} (h : CanonRegister o) (h' : CanonRegister o') :
    CanonRegister (if c then o else o') := by
  split
  · exact h
  · exact h'

theorem Canon.ok (h : Canon s) : CanonResult (.ok s) := by
  rintro _ ⟨⟩; exact h

theorem Canon.refuseIf {checks : List (Bool × Nat)} (h : Canon s) : CanonResult (refuseIf checks s) := by
  unfold Machine.refuseIf
  split
  · exact fun _ h => nomatch h
  · exact h.ok

theorem Canon.regWrite {off : Nat} {f : State → RegResult} (h : Canon s) (hf : CanonResult (f s)) : Canon (s.regWrite off f) := by
  unfold State.regWrite
  refine .ite h (.ite h.illegalWrite ?_)
  split
  · rename_i ht; exact hf _ ht
  · exact h.illegalWrite

theorem Canon.resetNamed {v : Nat} (h : Canon s) : Canon (s.resetNamed v) :=
  (h.foldl fun _ _ h => Canon.ite h.resetCdie (Canon.ite h.resetMdie h.resetLdie)).beginReset

theorem Canon.writeLinkControl {v : Nat} (h : Canon s) : CanonResult (writeLinkControl v s) := Canon.refuseIf h.upd

theorem Canon.writeWindowOffset {v : Nat} (h : Canon s) : CanonResult (writeWindowOffset v s) := Canon.refuseIf h.upd

theorem Canon.writeCrestPeriod {v : Nat} (h : Canon s) : CanonResult (writeCrestPeriod v s) := Canon.refuseIf h.upd

theorem Canon.writeCrestControl {v : Nat} (h : Canon s) : CanonResult (writeCrestControl v s) := Canon.refuseIf h.upd

theorem Canon.writeArrayCurrent {v : Nat} (h : Canon s) : CanonResult (writeArrayCurrent v s) := Canon.refuseIf h.upd

theorem Canon.writeBatchWait {v : Nat} (h : Canon s) : CanonResult (writeBatchWait v s) := Canon.refuseIf h.upd

theorem Canon.writeThreshold {v : Nat} (h : Canon s) : CanonResult (writeThreshold v s) := Canon.refuseIf h.upd

theorem Canon.writeResetControl {v : Nat} (h : Canon s) : CanonResult (writeResetControl v s) :=
  Canon.refuseIf (.ite h.deviceReset h.resetNamed)

theorem Canon.writeCoreExchange {v : Nat} (h : Canon s) : CanonResult (writeCoreExchange v s) := by
  unfold Machine.writeCoreExchange
  extract_lets
  exact Canon.refuseIf h.upd

theorem Canon.writeCoreFailed {die v : Nat} (h : Canon s) : CanonResult (writeCoreFailed die v s) := Canon.refuseIf h.upd

theorem Canon.writeRingBase {i v : Nat} (h : Canon s) : CanonResult (writeRingBase i v s) := Canon.refuseIf h.setRing

theorem Canon.writeRingIrqAddr {i v : Nat} (h : Canon s) : CanonResult (writeRingIrqAddr i v s) := Canon.refuseIf h.setRing

theorem Canon.writeRingIrqData {i v : Nat} (h : Canon s) : CanonResult (writeRingIrqData i v s) := Canon.refuseIf h.setRing

theorem Canon.writeRingConfig {i v : Nat} (h : Canon s) : CanonResult (writeRingConfig i v s) := by
  unfold Machine.writeRingConfig
  extract_lets _ _ _ s1
  have h1 : Canon s1 := h.setRing
  exact Canon.refuseIf (.ite (.ite h1.upd.flushHeld h1) h.setRing)

theorem Canon.writeModuleEnable {v : Nat} (h : Canon s) : CanonResult (writeModuleEnable v s) := Canon.refuseIf (.ite h.upd.setHot h)

theorem Canon.writeSupply {v : Nat} (h : Canon s) : CanonResult (writeSupply v s) := by
  unfold Machine.writeSupply
  extract_lets
  exact Canon.refuseIf h.upd

theorem Canon.writeFabricAddress {v : Nat} (h : Canon s) : CanonResult (writeFabricAddress v s) := Canon.refuseIf h.upd

theorem Canon.writeResetAuthority {v : Nat} (h : Canon s) : CanonResult (writeResetAuthority v s) := Canon.refuseIf h.upd

theorem Canon.writePortControl {p v : Nat} (h : Canon s) : CanonResult (writePortControl p v s) :=
  Canon.refuseIf (.ite (.ite h.setPort h) h.setPort.reroute.retryCollectives)

theorem Canon.writeErrorStatus {v : Nat} (h : Canon s) : CanonResult (writeErrorStatus v s) := Canon.refuseIf h.upd

theorem Canon.writeMailboxArg {i v : Nat} (h : Canon s) : CanonResult (writeMailboxArg i v s) := Canon.refuseIf h.upd

theorem Canon.writeMailboxCommand {v : Nat} (h : Canon s) : CanonResult (writeMailboxCommand v s) := Canon.refuseIf h.upd

theorem Canon.ringRegister {off v : Nat} : CanonRegister (ringRegister off v) := by
  refine .ite .none ?_
  split
  · exact .some fun h => h.writeRingBase
  · exact .some fun h => h.writeRingConfig
  · exact .some fun h => h.writeRingIrqAddr
  · exact .some fun h => h.writeRingIrqData
  · exact .some Canon.ok
  · exact .some Canon.ok
  · exact .none

theorem Canon.errorRegister {off v : Nat} : CanonRegister (errorRegister off v) :=
  .ite (.some fun h => h.writeErrorStatus) <| .ite (.some Canon.ok) <| .ite (.some fun h => Canon.ok h.upd) <|
    .ite (.some fun h => Canon.ok h.upd) <| .ite (.some fun h => Canon.ok h.upd) <| .ite (.some fun h => Canon.ok h.upd) <|
    .ite (.some fun h => Canon.ok h.upd) <| .ite (.some fun h => Canon.ok h.upd) .none

theorem Canon.fixedRegister {off v : Nat} : CanonRegister (fixedRegister off v) :=
  .ite (.some Canon.ok) <| .ite (.some fun h => h.writeLinkControl) <| .ite (.some fun h => h.writeWindowOffset) <|
    .ite (.some fun h => h.writeCrestPeriod) <| .ite (.some fun h => h.writeCrestControl) <|
    .ite (.some fun h => h.writeArrayCurrent) <| .ite (.some fun h => h.writeBatchWait) <| .ite (.some fun h => h.writeThreshold) <|
    .ite (.some fun h => h.writeResetControl) <| .ite (.some fun h => h.writeCoreExchange) <|
    .ite (.some fun h => h.writeModuleEnable) <| .ite (.some fun h => h.writeSupply) <| .ite (.some fun h => h.writeFabricAddress) <|
    .ite (.some fun h => h.writeResetAuthority) <| .ite (.some fun h => h.writeMailboxCommand) .none

theorem Canon.registerAt {off v : Nat} : CanonRegister (registerAt off v) := by
  unfold Machine.registerAt
  split
  · rename_i hf; exact hf ▸ Canon.fixedRegister
  · refine .ite (.some fun h => h.writeCoreFailed) <| .ite (.some Canon.ok) <| .ite (.some Canon.ok) <|
      .ite (.ite (.some fun h => h.writePortControl) (.some Canon.ok)) <| .ite (.some fun h => h.writeMailboxArg) ?_
    split
    · rename_i hf; exact hf ▸ Canon.ringRegister
    · exact Canon.errorRegister

theorem Canon.writeRegister {off width v : Nat} (h : Canon s) : Canon (s.writeRegister off width v) := by
  unfold State.writeRegister
  refine .ite h (.ite h.illegalWrite ?_)
  split
  · exact h.illegalWrite
  · rename_i hf; exact h.regWrite (Canon.registerAt _ hf h)

theorem Canon.writeDoorbell {off width v : Nat} (h : Canon s) : Canon (s.writeDoorbell off width v) :=
  .ite h (Canon.ite h.illegalWrite (Canon.ite h.illegalWrite h.doorbell))

theorem Canon.stage {addr length : Nat} (h : Canon s) : Canon (s.stage addr length).1 := by
  unfold State.stage
  extract_lets _ s1
  have h1 : Canon s1 := .ite h.linkError h
  split
  · exact h1.upd
  · exact h1.upd

theorem Canon.mailRecord {addr : Nat} {short : Bool} {bs : List Byte} (h : Canon s) : Canon (s.mailRecord addr short bs).1 := by
  unfold State.mailRecord
  split
  · exact h
  · exact h.hostWrite

theorem Canon.mailCommit {v : Nat} (h : Canon s) : Canon (s.mailCommit v).1 := by
  unfold State.mailCommit
  extract_lets
  split
  · exact h
  · split
    · exact h
    · exact h.upd

theorem Canon.mailBootSlot {n : Nat} (h : Canon s) : Canon (s.mailBootSlot n).1 := by
  unfold State.mailBootSlot
  split
  · exact h
  · split
    · exact h
    · split
      · exact h.upd
      · exact h.upd

theorem Canon.mailRevoke {n : Nat} (h : Canon s) : Canon (s.mailRevoke n).1 := by
  unfold State.mailRevoke
  extract_lets
  split
  · exact h
  · split
    · exact h
    · exact h.upd

theorem Canon.mailStage {addr length : Nat} (h : Canon s) : Canon (s.mailStage addr length).1 := by
  unfold State.mailStage
  split
  · exact h
  · split
    · rename_i hs; exact h.stage.of_pair hs
    · rename_i hs; exact h.stage.of_pair hs

theorem Canon.mailCommand {code : Nat} {args : List Nat} (h : Canon s) : Canon (s.mailCommand code args).1 := by
  unfold State.mailCommand
  split
  · exact h.mailRecord
  · split
    · exact h.setHot
    · exact h
  · exact h.mailRecord
  · exact h.mailRecord
  · exact h.mailStage
  · exact h.mailCommit
  · exact h.mailBootSlot
  · exact h.mailRevoke
  · exact h

theorem Canon.applyFsend {x : Issue} (h : Canon s) : Canon (applyFsend x s) := by
  unfold Machine.applyFsend
  extract_lets
  split
  split
  · exact h
  · exact .ite h.noteRead h.noteRead.sendTransfer

theorem Canon.applyBsend {x : Issue} (h : Canon s) : Canon (applyBsend x s) := by
  unfold Machine.applyBsend
  extract_lets _ _ _ _ s1
  have h1 : Canon s1 := h.noteTileInput.raise
  clear_value s1
  split
  · exact h1
  · exact .ite h1 (h1.withFabric.foldl fun _ _ h => h.sendData)

end Sys2Proof.Machine
end

section
/-! PROOFS. The canonical form of the memories: tile operations, window operators, attention and the sequencer. -/

namespace Sys2Proof.Machine

variable {s : State}

theorem Canon.applyRreg {x : Issue} (h : Canon s) : Canon (applyRreg x s) := h.onCore.raise

theorem Canon.applyRtrow {x : Issue} (h : Canon s) : Canon (applyRtrow x s) :=
  (Canon.ite h.noteTileInput.onCore.onCore h.noteTileInput.onCore).raise

theorem Canon.windowPass {x : Issue} {v : Window} {q : Int} {set : StatSet} {vs : List (List (Option Elem))} {row : Nat} {start : Bool}
    {index : Nat} (h : Canon s) : Canon (s.windowPass x v q set vs row start index) := by
  unfold State.windowPass
  extract_lets s1
  have h1 : Canon s1 := h.foldl fun _ _ h => h.addRow
  exact h1.onCore

theorem Canon.noteWeights {core : Nat} {v : Window} (h : Canon s) : Canon (s.noteWeights core v) := by
  unfold State.noteWeights
  split
  extract_lets s1
  have h1 : Canon s1 := h.foldl fun _ _ h => h.noteRead
  exact .ite h1.noteRead h1

theorem Canon.noteElement {core : Nat} {v : Window} {p : List Nat} (h : Canon s) : Canon (s.noteElement core v p) :=
  .ite h.noteRead.noteRead h.noteRead

theorem Canon.noteWindow {x : Issue} {v : Window} (h : Canon s) : Canon (s.noteWindow x v) := by
  unfold State.noteWindow
  extract_lets _ s1 s2
  have h1 : Canon s1 := .ite h.noteRead.noteWeights h.noteRead
  have h2 : Canon s2 := .ite (h1.foldl fun _ _ h => h.noteRead) h1
  exact .ite h2 (h2.foldl fun _ _ h => h.noteElement)

theorem Canon.applyWrun {x : Issue} (h : Canon s) : Canon (applyWrun x s) := by
  unfold Machine.applyWrun
  extract_lets s1 _ _ _ _ s2
  have h1 : Canon s1 := h.issueBatch
  have h2 : Canon s2 := h1.noteWindow
  exact .ite h1.raise (.ite (h2.foldl fun _ _ h => h.windowPass) (h2.foldl fun _ _ h => h.windowPass))

theorem Canon.applyWpool {x : Issue} (h : Canon s) : Canon (applyWpool x s) := by
  unfold Machine.applyWpool
  extract_lets _ _ _ _ _ s1 s2 s3
  have h2 : Canon s2 := h.noteWindow.foldl fun _ _ h => h.put
  have h3 : Canon s3 := h2.foldl fun _ _ h => h.put
  exact .ite h.raise h3.raise

theorem Canon.kvMaskTile {x : Issue} {d : Nat} {rows : List (List Bool)} (h : Canon s) : Canon (s.kvMaskTile x d rows) :=
  ((h.foldl fun _ _ h => h.putTile).onCore).raise

theorem Canon.noteReads {l : List (Nat × Nat)} (h : Canon s) : Canon (s.noteReads l) := h.foldl fun _ _ h => h.noteRead

theorem Canon.kvNote {x : Issue} {d : Nat} {w : Walk} {empty : Bool} (h : Canon s) : Canon (s.kvNote x d w empty) :=
  .ite h.noteReads (h.noteReads.foldl fun _ _ h => h.noteRead)

theorem Canon.applyKvread {x : Issue} (h : Canon s) : Canon (applyKvread x s) := by
  unfold Machine.applyKvread
  extract_lets _ _ _ _ _ _ s1 s2
  have h1 : Canon s1 := .ite h.kvNote.put h.kvNote.put.kvMaskTile
  have h2 : Canon s2 := .ite h1 h1.onCore
  exact h2.upd

theorem Canon.lookAppended {core d seq len n : Nat} (h : Canon s) : Canon (s.lookAppended core d seq len n) := by
  unfold State.lookAppended
  extract_lets
  exact h.onCore

/-! An append run carries its state beside what it has found. -/

theorem Canon.appendingPart {a : Appending} {core d hd q : Nat} {p : PagePart} (h : Canon a.s) : Canon (a.part core d hd q p).s := by
  unfold Appending.part
  extract_lets _ _ s1 _ _ _ s2 s3
  have h1 : Canon s1 := h.foldl fun _ _ h => h.put
  have h2 : Canon s2 := h1.putNum
  exact .ite h2.put h2

theorem Canon.appendingParts {a : Appending} {core d hd q : Nat} {l : List (PagePart × Found)} (h : Canon a.s) :
    Canon (l.foldl (fun a (p, _) => a.part core d hd q p) a).s := by
  induction l generalizing a with
  | nil => exact h
  | cons p l ih => exact ih h.appendingPart

theorem Canon.appendingEntry {a : Appending} {core d hd rh e base : Nat} (h : Canon a.s) : Canon (a.entry core d hd rh e base).s := by
  unfold Appending.entry
  extract_lets
  split
  · exact h
  · split
    extract_lets
    split
    · exact h.noteRead
    · split
      · exact h.noteRead
      · split
        · exact h.noteRead
        · split
          · exact h.noteRead
          · exact (Canon.appendingParts h.noteRead.noteReads).putNum.putNum.lookAppended

theorem Canon.appendRun {core d hd rh : Nat} {es : List Nat} (h : Canon s) : Canon (appendRun core d hd rh es s).s := by
  suffices hrun : ∀ (st : Appending × Nat), Canon st.1.s →
      Canon (es.foldl (fun (st : Appending × Nat) e => (st.1.entry core d hd rh e st.2, st.2 + entryCount e)) st).1.s from hrun _ h
  induction es with
  | nil => exact fun _ h => h
  | cons e es ih => exact fun st h => ih _ h.appendingEntry

theorem Canon.applyKvappend {x : Issue} (h : Canon s) : Canon (applyKvappend x s) := by
  unfold Machine.applyKvappend
  extract_lets
  exact h.noteRead.noteRead.noteRead.noteRead.noteRead.noteRead.appendRun.put.raise

theorem Canon.applyKvflush {x : Issue} (h : Canon s) : Canon (applyKvflush x s) := h.onCore

theorem Canon.applySli {x : Issue} (h : Canon s) : Canon (applySli x s) := h.onCore

theorem Canon.applySalu {x : Issue} (h : Canon s) : Canon (applySalu x s) := by
  unfold Machine.applySalu
  extract_lets
  exact h.onCore

theorem Canon.applySld {x : Issue} (h : Canon s) : Canon (applySld x s) := by
  unfold Machine.applySld
  extract_lets
  exact h.noteRead.onCore

theorem Canon.applySst {x : Issue} (h : Canon s) : Canon (applySst x s) := h.saveNum

theorem Canon.applySid {x : Issue} (h : Canon s) : Canon (applySid x s) := h.onCore

theorem Canon.applySflag {x : Issue} (h : Canon s) : Canon (applySflag x s) := (Canon.ite h.markStain h).onCore

theorem Canon.applyTsig {x : Issue} (h : Canon s) : Canon (applyTsig x s) := h.addToken

theorem Canon.applyWait {x : Issue} (h : Canon s) : Canon (applyWait x s) := h.onCore

theorem Canon.applyCbegin {x : Issue} (h : Canon s) : Canon (applyCbegin x s) := h.onCore

theorem Canon.applyIssue {o : CoreOp} {x : Issue} (h : Canon s) : Canon (applyIssue o x s) := by
  unfold Machine.applyIssue
  split
  · exact h
  · exact h.applyCbegin
  · exact h
  · exact h
  · exact h.applyWait
  · exact h.applyTsig
  · exact h.applySli
  · exact h.applySalu
  · exact h.applySld
  · exact h.applySst
  · exact h.applySid
  · exact h.applySflag
  · exact h.applyLoadset
  · exact h.applyPass
  · exact h.applyEnq
  · exact h.applyFlush
  · exact h.applyMatvec
  · exact h.applyTclr
  · exact h.applyCombine
  · exact h.applyVop
  · exact h.applyVcvt
  · exact h.applyVsplit
  · exact h.applyVperm
  · exact h.applyVsetvl
  · exact h.applyVmovs
  · exact h.applyVld
  · exact h.applyVst
  · exact h.applyKload
  · exact h.applyKapply
  · exact h.applyRreg
  · exact h.applyRtrow
  · exact h.applyWrun
  · exact h.applyWpool
  · exact h.applyCopy
  · exact h.applyFill
  · exact h.applyDsplit
  · exact h.applyFsend
  · exact h.applyWait
  · exact h.applyBsend
  · exact h.applyKvread
  · exact h.applyKvappend
  · exact h.applyKvflush

theorem Canon.holdOn {c : Nat} {t : Waiting} {h : Hold} (hs : Canon s) : Canon (s.holdOn c t h) := hs.onCore

theorem Canon.retire {c : Nat} {t : Waiting} (h : Canon s) : Canon (s.retire c t) := .ite h.holdOn h.signal.onCore

theorem Canon.retireUnrun {c : Nat} {t : Waiting} (h : Canon s) : Canon (s.retireUnrun c t) := .ite h.holdOn h.signal.onCore

theorem Canon.endBlock {c : Nat} {t : Waiting} (h : Canon s) : Canon (s.endBlock c t) := h.issueBatch.onCore.holdOn

theorem Canon.refused {c : Nat} {t : Waiting} {x : Issue} {r : IssueRefusal} (h : Canon s) : Canon (s.refused c t x r) :=
  .ite h.refuseIssue.endBlock h.refuseIssue.upd.retireUnrun

theorem Canon.perform {c : Nat} {t : Waiting} {x : Issue} (h : Canon s) : Canon (s.perform c t x) := by
  unfold State.perform
  extract_lets _ s1
  have h1 : Canon s1 := h.useTables fun h => h.applyIssue
  exact .ite h.applyIssue.retire (.ite h.onCore h1.upd)

theorem Canon.issueFetched {c : Nat} {t : Waiting} (h : Canon s) : Canon (s.issueFetched c t) := by
  unfold State.issueFetched
  extract_lets
  refine .ite h.onCore ?_
  refine .ite h.retireUnrun ?_
  refine .ite h.holdOn ?_
  refine .ite h.refused ?_
  refine .ite h.holdOn ?_
  refine .ite h.holdOn ?_
  refine .ite h.holdOn ?_
  refine .ite h.endBlock ?_
  split
  · exact h.noteReads.refused
  · exact h.perform

theorem Canon.issue {c : Nat} {t : Waiting} (h : Canon s) : Canon (s.issue c t) :=
  .ite h.setCore.issueFetched (Canon.ite h.noteFetch.refused h.noteFetch.issueFetched)

theorem Canon.drain {n c : Nat} (h : Canon s) : Canon (State.drain n c s) := by
  induction n generalizing s with
  | zero => exact h
  | succ n ih =>
    unfold State.drain
    split
    · exact ih h.onCore.issue
    · exact h

theorem Canon.submit {c : Nat} {t : Waiting} (h : Canon s) : Canon (s.submit c t) := .ite h (Canon.ite h.onCore h.issue.drain)

theorem Canon.resume {c : Nat} (h : Canon s) : Canon (s.resume c) := h.onCore.drain

theorem Canon.afterComplete {c : Nat} (h : Canon s) : Canon (s.afterComplete c) := .ite h.resume h

end Sys2Proof.Machine
end

section
/-! PROOFS. The canonical form of the memories: M-die programs, snapshots and the crest boundary. -/

namespace Sys2Proof.Machine

variable {s : State}

theorem Canon.distribute {p : Plan} {b : Bucket} {bank type step : Nat} {ochre : Bool} (h : Canon s) :
    Canon (s.distribute p b bank type step ochre) :=
  .ite (h.noteRead.foldl fun _ _ h => Canon.ite h.sendTransfer (Canon.ite h.sendTransfer h)) (h.noteRead.foldl fun _ _ h => h.sendTransfer)

theorem Canon.ostageBucket {p : Plan} {b : Bucket} {step : Nat} (h : Canon s) : Canon (s.ostageBucket p b step) := by
  unfold State.ostageBucket
  extract_lets
  exact h.distribute

theorem Canon.mEffect {m : Nat} {t : MWord} (h : Canon s) : Canon (s.mEffect m t) := by
  unfold State.mEffect
  extract_lets
  split
  · split
    · exact h.packRange
    · exact h
  · split
    · exact h.packRange
    · exact h
  · split
    · exact h.unpackRange
    · exact h
  · split
    · exact h.fetchRange
    · exact h
  · exact h
  · exact h
  · exact h
  · split
    · exact .ite h.updateBucket.updStep h
    · exact h
  · split
    · exact .ite h.updateBucket h
    · exact h
  · split
    · exact h.ostageBucket
    · exact h
  · split
    · exact h.distribute
    · exact h

theorem Canon.mApply {m : Nat} {t : MWord} (h : Canon s) : Canon (s.mApply m t) := .ite h (h.useTables (fun h => h.mEffect))

theorem Canon.mRun {m : Nat} {t : MWord} (h : Canon s) : Canon (s.mRun m t) := .ite h.setMdie h.setMdie.mApply.setMdie

theorem Canon.countWord {m : Nat} {t : MWord} (h : Canon s) : Canon (s.countWord m t) := .ite h (Canon.ite h.upd h.setMdie)

theorem Canon.mBegin {m : Nat} {t : MWord} (h : Canon s) : Canon (s.mBegin m t) := .ite h.countWord (Canon.ite h.setMdie h.mRun)

theorem Canon.mDrain {n m : Nat} (h : Canon s) : Canon (State.mDrain n m s) := by
  induction n generalizing s with
  | zero => exact h
  | succ n ih =>
    unfold State.mDrain
    split
    · exact ih h.setMdie.mBegin
    · exact h

theorem Canon.mNext {m : Nat} (h : Canon s) : Canon (s.mNext m) := h.mDrain

theorem Canon.mSubmit {m : Nat} {t : MWord} (h : Canon s) : Canon (s.mSubmit m t) := .ite h (Canon.ite h.setMdie h.mBegin)

theorem Canon.captureFlags {n : Nat} (h : Canon s) : Canon (s.captureFlags n) := (Canon.ite h.markStain h).upd

theorem Canon.closeStep {n : Nat} (h : Canon s) : Canon (s.closeStep n) := h.captureFlags.updStep

theorem Canon.closeCarried {t : MWord} (h : Canon s) : Canon (s.closeCarried t) := by
  unfold State.closeCarried
  split
  · exact h
  · exact .ite h h.closeStep

theorem Canon.mFinish {m : Nat} {t : MWord} (h : Canon s) : Canon (s.mFinish m t) := by
  unfold State.mFinish
  extract_lets _ s1 s2
  have h1 : Canon s1 := h.setMdie.retireOwned
  have h2 : Canon s2 := .ite (h1.useTables fun h => h.vcontrib) (.ite h1.countFetch h1)
  exact h2.countWord.closeCarried.mNext

theorem Canon.copySnapshot {p : Plan} {r : SnapRun} {data : List (Byte × Bool)} (h : Canon s) : Canon (s.copySnapshot p r data) :=
  .ite (Canon.ite h.put.put.put h.lEvent.markStain) (Canon.ite h (h.useTables (fun h => h.sendTransfer.sendTransfer.sendTransfer)))

theorem Canon.sendSnapshots (h : Canon s) : Canon s.sendSnapshots := by
  unfold State.sendSnapshots
  split
  · exact h
  · refine h.foldl fun _ _ h => ?_
    split
    · exact .ite h h.upd.copySnapshot
    · exact h

theorem Canon.captureSnapshots {step : Nat} (h : Canon s) : Canon (s.captureSnapshots step) := by
  unfold State.captureSnapshots
  split
  · exact h
  · exact h.foldl fun _ _ h => ((h.foldl fun _ _ h => h.noteRead).noteTables).upd

theorem Canon.receiveSnapshot {l : Nat} {k : Packet} {all : Bool} (h : Canon s) : Canon (s.receiveSnapshot l k all) := by
  unfold State.receiveSnapshot
  extract_lets
  split
  · exact h.refuseWrite
  · refine .ite h.block ?_
    extract_lets _ _ _ _ _ _ s1
    have h1 : Canon s1 := .ite h h.put
    split
    · exact .ite h1.upd.put h1.upd
    · exact h1.upd

theorem Canon.applyRestore {p : Plan} {data : List (Byte × Bool)} (h : Canon s) : Canon (s.applyRestore p data) := by
  unfold State.applyRestore
  extract_lets _ _ put s1 _ s2 s3 _
  have h1 : Canon s1 := Canon.foldl_fst h fun _ _ h => by
    dsimp only [put]
    exact h.put
  have h2 : Canon s2 := h1.foldl fun _ _ h => h.setPowers
  have h3 : Canon s3 := h2.rewriteTables
  clear_value s3
  exact h3.upd

theorem Canon.markCrest {bits : Nat} (h : Canon s) : Canon (s.markCrest bits) := h.upd

theorem Canon.setCounter {n : Nat} (h : Canon s) : Canon (s.setCounter n) := h.upd

theorem Canon.overrunEvent {d : Deferred} {lateness : Nat} (h : Canon s) : Canon (s.overrunEvent d lateness) := h.event

theorem Canon.countOverrun (h : Canon s) : Canon s.countOverrun := by
  unfold State.countOverrun
  split
  · exact .ite ((Canon.ite h h.updStep).updStep) (Canon.ite h h.updStep)
  · exact h

theorem Canon.slip {d : Deferred} (h : Canon s) : Canon (s.slip d) := h.countOverrun.markCrest.withCrest

theorem Canon.countStreak {p : Plan} {step m t : Nat} (h : Canon s) : Canon (s.countStreak p step m t) :=
  .ite h (Canon.ite h.upd.mEvent h.upd)

theorem Canon.countStreaks {p : Plan} {step : Nat} (h : Canon s) : Canon (s.countStreaks p step) := h.foldl fun _ _ h => h.countStreak

theorem Canon.mapLedger {f : Nat → ScaleEntry → ScaleEntry} (h : Canon s) : Canon (s.mapLedger f) :=
  .ite h.upd.noteTables.markOldest h.upd.noteTables

theorem Canon.commitStep {p : Plan} {r : StepRec} (h : Canon s) : Canon (s.commitStep p r) := h.mapLedger.upd.countStreaks.dropFolds.updStep

theorem Canon.ledgerDrop {nonfinite : Bool} (h : Canon s) : Canon (s.ledgerDrop nonfinite) := h.mapLedger.foldl fun _ _ h => h.event

theorem Canon.endSteps {nums : List Nat} {status : Nat} {supersede : Bool} {because : Option Verdict} (h : Canon s) :
    Canon (s.endSteps nums status supersede because) :=
  ((h.foldl fun _ _ h => h.captureFlags).upd).dropFolds

theorem Canon.dropRunning {p : Plan} {nums : List Nat} (h : Canon s) : Canon (s.dropRunning p nums) := by
  unfold State.dropRunning
  split
  · exact h
  · exact .ite (Canon.ite h.upd h) (Canon.ite h h.upd)

theorem Canon.afterDrop {nonfinite : Bool} (h : Canon s) : Canon (s.afterDrop nonfinite) :=
  h.ledgerDrop.upd.foldl fun _ _ h => h.takeVerdict

theorem Canon.discardFrom {p : Plan} {n status : Nat} {supersede : Bool} (h : Canon s) : Canon (s.discardFrom p n status supersede) :=
  h.endSteps.dropRunning.afterDrop

theorem Canon.carryWords (h : Canon s) : Canon s.carryWords := h.upd

theorem Canon.verdictActions {p : Plan} (h : Canon s) : Canon (s.verdictActions p).1 := by
  unfold State.verdictActions
  split
  · exact h.carryWords.endSteps.dropRunning.afterDrop.withCrest.foldl fun _ _ h => h.complete
  · split
    · exact h
    · split
      · exact h.discardFrom
      · split
        · exact h
        · extract_lets _ s1 _
          have h1 : Canon s1 := h.commitStep
          split
          · split
            · exact h1.discardFrom
            · split
              · exact h1.discardFrom
              · exact h1
          · exact h1

theorem Canon.endCrest {p : Plan} {ran : Option Running} (h : Canon s) : Canon (s.endCrest p ran) := by
  unfold State.endCrest
  split
  · exact h
  · extract_lets
    refine .ite h ?_
    split
    · exact .ite h.closeStep h
    · exact h

theorem Canon.applySettings (h : Canon s) : Canon s.applySettings := h.upd

theorem Canon.unload (h : Canon s) : Canon s.unload := h.upd

theorem Canon.withdrawTalus (h : Canon s) : Canon s.withdrawTalus := h.withdrawEntries.upd

/-- A command that is carried out, with what it answers. -/
def CanonSome (o : Option State) : Prop := ∀ t, o = some t → Canon t

theorem CanonSome.none : CanonSome none := fun t ht => absurd ht.symm (Option.some_ne_none t)

theorem Canon.inSome (h : Canon s) : CanonSome (some s) := by
  rintro t ⟨⟩
  exact h

theorem CanonSome.ite {c : Prop} [Decidable c] {o p : Option State} (ho : CanonSome o) (hp : CanonSome p) : CanonSome (if c then o else p) := by
  split
  · exact ho
  · exact hp

theorem Canon.applyRankEntry {first : Option Nat} {rank entry a number : Nat} (h : Canon s) :
    CanonSome (s.applyCmd first (.rankEntry rank entry a number)) := by
  unfold State.applyCmd
  dsimp -zeta only
  extract_lets _ s1 _ _ s2
  have h1 : Canon s1 := h.mapRank
  clear_value s1
  have h2 : Canon s2 := h1.upd
  exact Canon.inSome (.ite h2.arrive h2)

theorem Canon.applyRestoreCmd {first : Option Nat} {d : DescRef} (h : Canon s) : CanonSome (s.applyCmd first (.restore d)) := by
  unfold State.applyCmd
  dsimp -zeta only
  refine .ite .none ?_
  extract_lets _ _ s1
  have h1 : Canon s1 := h.upd
  split
  · exact .ite h1.applyRestore.complete.inSome h1.complete.inSome
  · exact h1.complete.inSome

theorem Canon.applyPower {first : Option Nat} {target : Nat} {d : DescRef} (h : Canon s) : CanonSome (s.applyCmd first (.power target d)) := by
  unfold State.applyCmd
  dsimp -zeta only
  refine .ite .none ?_
  extract_lets
  exact .ite h.complete.inSome (.ite h.complete.inSome h.upd.inSome)

theorem Canon.applyCmd {first : Option Nat} {c : BoundaryCmd} (h : Canon s) : CanonSome (s.applyCmd first c) := by
  cases c with
  | realign target d => exact .ite .none h.upd.inSome
  | power target d => exact h.applyPower
  | unload d => exact .ite h.unload.complete.inSome h.complete.inSome
  | ringAdvance ring producer step d => exact .ite h.putNum.complete.inSome .none
  | talusBind lender d => exact .ite h.complete.inSome (Canon.inSome (h.upd.complete))
  | talusRevoke d => exact h.withdrawTalus.complete.inSome
  | talusLost => exact h.withdrawTalus.inSome
  | peerLost rank d => exact h.loseRank.complete.inSome
  | rankEntry rank entry a number => exact h.applyRankEntry
  | restore d => exact h.applyRestoreCmd

theorem Canon.hostCommands {first : Option Nat} (h : Canon s) : Canon (s.hostCommands first) := by
  unfold State.hostCommands
  extract_lets _ _ s1
  have h1 : Canon s1 := h.upd
  refine h1.foldl fun t c h => ?_
  split
  · next t hc => exact h.applyCmd t hc
  · exact h.upd

theorem Canon.sendBeacon (h : Canon s) : Canon s.sendBeacon := .ite h.upd.emit h

theorem Canon.resetPrograms (h : Canon s) : Canon s.resetPrograms := h.upd

theorem Canon.loadBlock {p : Plan} {w : Work} {half : Bool} (h : Canon s) : Canon (s.loadBlock p w half) := by
  unfold State.loadBlock
  extract_lets
  exact h.noteRead.onCore

theorem Canon.beginBlock {p : Plan} {crest : Option Nat} {w : Work} (h : Canon s) : Canon (s.beginBlock p crest w) := by
  unfold State.beginBlock
  extract_lets _ s1
  have h1 : Canon s1 := .ite h h.loadBlock
  exact h1.onCore

theorem Canon.fetchAhead {p : Plan} {crest : Nat} (h : Canon s) : Canon (s.fetchAhead p crest) := h.foldl fun _ _ h => h.loadBlock.onCore

theorem Canon.startSchedules {p : Plan} {step crest : Nat} {tail : Bool} (h : Canon s) : Canon (s.startSchedules p step crest tail) := by
  unfold State.startSchedules
  refine h.foldl fun _ _ h => ?_
  refine .ite h ?_
  extract_lets _ s1 s2 _
  have h1 : Canon s1 := h.upd
  have h2 : Canon s2 := h1.foldl fun _ _ h => .ite h h.startCollective
  exact .ite h2 h2.upd

theorem Canon.beginStep {p : Plan} {n : Nat} (h : Canon s) : Canon (s.beginStep p n) :=
  .ite h.upd.beginPowers (h.upd.beginPowers.foldl fun _ _ h => h.makeUnavailable)

theorem Canon.noteVoids (h : Canon s) : Canon s.noteVoids := by
  unfold State.noteVoids
  split
  · exact .ite ((Canon.ite h h.updStep).updStep) (Canon.ite h h.updStep)
  · exact h

theorem Canon.startCrest {p : Plan} {step crest : Nat} {tail : Bool} (h : Canon s) : Canon (s.startCrest p step crest tail) := by
  unfold State.startCrest
  extract_lets s1 s2
  have h1 : Canon s1 := .ite h.beginStep h
  have h2 : Canon s2 := h1.resetPrograms.foldl fun _ _ h => h.beginBlock
  exact h2.fetchAhead.upd.noteVoids.startSchedules

theorem Canon.startInserted {p : Plan} {step crest seg i : Nat} (h : Canon s) : Canon (s.startInserted p step crest seg i) :=
  ((h.resetPrograms.foldl fun _ _ h => h.beginBlock).fetchAhead).upd

theorem Canon.insertSegments {p : Plan} {step : Nat} {segs : List (Nat × Nat)} (h : Canon s) : Canon (s.insertSegments p step segs) :=
  (h.foldl fun _ _ h => h.event).upd

theorem Canon.nextInserted {p : Plan} {step crest : Nat} (h : Canon s) : Canon (s.nextInserted p step crest) := by
  unfold State.nextInserted
  split
  · exact h.upd.startInserted
  · exact h.startCrest

theorem Canon.dispatch (h : Canon s) : Canon s.dispatch := by
  unfold State.dispatch
  split
  · exact h.upd
  · refine .ite h.upd ?_
    extract_lets _ s1 inserted
    have h1 : Canon s1 := h.upd
    clear_value s1 inserted
    split
    · exact h1.nextInserted
    · split
      · exact h1.upd
      · exact h1.startCrest
      · split
        · exact h1.startCrest
        · exact h1.insertSegments.nextInserted

theorem Canon.beginCrest (h : Canon s) : Canon s.beginCrest := h.upd.sendBeacon.dispatch

theorem Canon.verdictOrders {ran : Option Running} (h : Canon s) : Canon (s.verdictOrders ran) := by
  unfold State.verdictOrders
  extract_lets s1
  have h1 : Canon s1 := h.tellReads
  clear_value s1
  split
  next s2 committed hp =>
    have h2 : Canon s2 := by
      split at hp
      · refine Canon.of_pair ?_ hp
        dsimp only
        exact h1.verdictActions.endCrest
      · exact h1.of_pair hp
    split
    · exact h2.captureSnapshots.sendSnapshots
    · exact h2.sendSnapshots

theorem Canon.boundary (h : Canon s) : Canon s.boundary := by
  unfold State.boundary
  extract_lets _ _ _ s1
  have h1 : Canon s1 := h.upd.verdictOrders.hostCommands.applySettings
  exact .ite h1.upd h1.beginCrest

theorem Canon.resumeCrest {target : Nat} (h : Canon s) : Canon (s.resumeCrest target) := by
  unfold State.resumeCrest
  split
  · exact h
  · extract_lets s1 d s2 _ s3 s4 s5
    have h1 : Canon s1 := h.verdictOrders
    have h2 : Canon s2 := h1.hostCommands.setCounter
    clear_value s2 d
    have h3 : Canon s3 := h2.upd
    have h4 : Canon s4 := h3.applySettings.event
    have h5 : Canon s5 := by
      unfold s5
      split
      · exact h4.completeWith
      · exact h4
    exact h5.sendBeacon.dispatch

theorem Canon.endDeferred {d : Deferred} {lateness : Nat} (h : Canon s) : Canon (s.endDeferred d lateness) := h.overrunEvent.withCrest.boundary

theorem Canon.completeStep {r : StepRec} (h : Canon s) : Canon (s.completeStep r) := by
  unfold State.completeStep
  extract_lets aborted s1 _ _ _ s2
  have h1 : Canon s1 := by
    unfold s1
    split
    · exact .ite h.hostWrite h
    · exact h
  have h2 : Canon s2 := h1.upd
  exact h2.completeWith

theorem Canon.putPartial {r : StepRec} {n g : Nat} (h : Canon s) : Canon (s.putPartial r n g) :=
  .ite h.updStep.raiseStep.event h.updStep.raiseStep.putFree

end Sys2Proof.Machine
end

section
/-! PROOFS. The canonical form of the memories: plan loads, descriptors, received packets, ports, power, the sideband and timed work. -/

namespace Sys2Proof.Machine

variable {s : State}

theorem Canon.exchangeCore {n : Nat} (h : Canon s) : Canon (s.exchangeCore n) :=
  have ⟨hmem, htiles⟩ := s.exchangeCore_wf n h.mem h.tiles
  ⟨hmem, htiles⟩

theorem Canon.takeCoreMap (h : Canon s) : Canon s.takeCoreMap := by
  unfold State.takeCoreMap
  extract_lets s1 _
  have h1 : Canon s1 := h.foldl fun _ _ h => h.exchangeCore
  exact h1.upd

theorem Canon.loadImage {a len : Nat} {im : PlanImage} (h : Canon s) : Canon (s.loadImage a len im) := by
  unfold State.loadImage
  extract_lets _ s1 _ _ s2 s3 s4 _ _
  have h1 : Canon s1 := h.takeCoreMap
  have h2 : Canon s2 := h1.foldl fun _ _ h => h.put
  have h3 : Canon s3 := h2.put.appendLog
  have h4 : Canon s4 := h3.rewriteTables
  clear_value s4
  exact h4.upd

theorem Canon.planLoad {a len seed : Nat} (h : Canon s) : Canon (s.planLoad a len seed).1 := by
  unfold State.planLoad
  split
  · exact h
  · exact h.loadImage

theorem Canon.accept {d : DescRef} (h : Canon s) : Canon (s.accept d) := h.upd

theorem Canon.noteImage {d : DescRef} (h : Canon s) : Canon (s.noteImage d) := .ite (Canon.ite h.noteRead h) (Canon.ite h.linkError h)

theorem Canon.atBoundary {d : DescRef} {c : BoundaryCmd} (h : Canon s) : Canon (s.atBoundary d c) := h.upd

theorem Canon.actPlanLoad {d : DescRef} (h : Canon s) : Canon (actPlanLoad s d) := by
  unfold Machine.actPlanLoad
  extract_lets s1
  have h1 : Canon s1 := .ite h.linkError h
  clear_value s1
  split
  next hs => exact (h1.planLoad.of_pair hs).completeWith

theorem Canon.actStep {d : DescRef} (h : Canon s) : Canon (actStep s d) := h.upd

theorem Canon.abortCore {c : Nat} (h : Canon s) : Canon (s.abortCore c) := by
  unfold State.abortCore
  extract_lets _ _ s1
  have h1 : Canon s1 := h.onCore
  exact .ite h1 h1.resume

theorem Canon.abortMdie {m : Nat} (h : Canon s) : Canon (s.abortMdie m) := by
  unfold State.abortMdie
  extract_lets _ _ _ s1 _ s2
  have h1 : Canon s1 := h.setMdie
  have h2 : Canon s2 := .ite h1.upd h1
  exact h2.mNext

theorem Canon.abortSteps {d : DescRef} (h : Canon s) : Canon (s.abortSteps d) := by
  unfold State.abortSteps
  extract_lets s1 s2 _
  have h1 : Canon s1 := h.foldl fun _ _ h => h.abortCore
  have h2 : Canon s2 := h1.foldl fun _ _ h => h.abortMdie
  clear_value s2
  exact h2.upd

theorem Canon.actAbort {d : DescRef} (h : Canon s) : Canon (actAbort s d) := by
  unfold Machine.actAbort
  extract_lets s1
  have h1 : Canon s1 := h.accept.abortSteps
  clear_value s1
  refine .ite h.complete ?_
  split
  · exact h1.upd.endDeferred
  · exact h1

theorem Canon.actClip {d : DescRef} (h : Canon s) : Canon (actClip s d) := h.updStep.complete

theorem Canon.actShardMap {d : DescRef} (h : Canon s) : Canon (actShardMap s d) := by
  unfold Machine.actShardMap
  extract_lets _ _ s1 _
  have h1 : Canon s1 := h.rewriteTables
  clear_value s1
  exact Canon.complete h1.upd

theorem Canon.actRankTable {d : DescRef} (h : Canon s) : Canon (actRankTable s d) := by
  unfold Machine.actRankTable
  extract_lets _ _ s1 _
  have h1 : Canon s1 := h.rewriteTables
  clear_value s1
  exact .ite (Canon.complete h1.upd) h.complete

theorem Canon.actRankMove {d : DescRef} (h : Canon s) : Canon (actRankMove s d) := by
  unfold Machine.actRankMove
  extract_lets _ s1
  have h1 : Canon s1 := h.accept
  clear_value s1
  exact Canon.sendAcked h1.upd

theorem Canon.paramWrite {d : DescRef} {u : Nat} {bs : List Byte} (h : Canon s) : Canon (s.paramWrite d u bs) := by
  unfold State.paramWrite
  extract_lets
  split
  · exact h.upd
  · split
    · exact h.setPowers
    · exact h
  · exact h.put

theorem Canon.paramUnits {d : DescRef} {a : Nat} {stop : Bool} {us : List (Nat × Nat)} {p : State × Nat} (h : Canon p.1) :
    Canon (us.foldl (fun (acc : State × Nat) (u, k) =>
      if stop then (acc.1, acc.2 + 1)
      else if acc.1.hostError (a + u) k then (acc.1.linkError 4 0 noStep (a + u), acc.2 + 1)
      else (acc.1.paramWrite d u (acc.1.hostBytes (a + u) k), acc.2)) p).1 := by
  refine Canon.foldl_fst h fun p x h => ?_
  dsimp only
  split
  · exact h
  · split
    · exact h.linkError
    · exact h.paramWrite

theorem Canon.actParamLoad {d : DescRef} (h : Canon s) : Canon (actParamLoad s d) := by
  unfold Machine.actParamLoad
  extract_lets _ _ _ s1
  have h1 : Canon s1 := .ite h.noteTables.markOldest h.noteTables
  split
  next hs => exact (Canon.of_pair (Canon.paramUnits h1) hs).completeWith

theorem Canon.actSnapshot {d : DescRef} (h : Canon s) : Canon (actSnapshot s d) := by
  unfold Machine.actSnapshot
  extract_lets _ _ _ _ _ s1
  have h1 : Canon s1 := h.upd
  exact .ite h1 h1.arrive

theorem Canon.actRestore {d : DescRef} (h : Canon s) : Canon (actRestore s d) := by
  unfold Machine.actRestore
  split
  · exact h.complete
  · extract_lets r s1 _ _ s2
    have h1 : Canon s1 := h.upd
    have h2 : Canon s2 := .ite h1.noteRead h1
    clear_value r s2
    split
    · exact h2.event.complete
    next data =>
      have h3 : Canon (s2.atBoundary d (.restore d)) := h2.atBoundary
      exact h3.upd

theorem Canon.actLend {d : DescRef} (h : Canon s) : Canon (actLend s d) := Canon.complete h.upd

theorem Canon.actEnd {d : DescRef} (h : Canon s) : Canon (actEnd s d) := Canon.complete h.upd

theorem Canon.actQuiesce {d : DescRef} (h : Canon s) : Canon (actQuiesce s d) := by
  unfold Machine.actQuiesce
  extract_lets s1 _
  have h1 : Canon s1 := h.accept.setHot
  clear_value s1
  exact h1.upd

theorem Canon.actFirmware {d : DescRef} (h : Canon s) : Canon (actFirmware s d) := h.upd

theorem Canon.actLater {check : State → DescRef → List (Bool × Nat)} {act : State → DescRef → State} {d : DescRef} (h : Canon s)
    (hact : ∀ {t : State}, Canon t → Canon (act t d)) : Canon (s.actLater check act d) := by
  unfold State.actLater
  extract_lets s1
  have h1 : Canon s1 := h.upd
  split
  · exact h.complete
  · exact hact h1

theorem Canon.heldWork {d : DescRef} (h : Canon s) : Canon (s.heldWork d) := by
  unfold State.heldWork
  split
  · exact h.actLater fun h => h.actPlanLoad
  · exact h.actLater fun h => h.actRankTable
  · exact h.actLater fun h => h.actParamLoad
  · exact h.actLater fun h => h.actRestore

theorem Canon.takeIn {p : Nat} {k : Packet} (h : Canon s) : Canon (s.takeIn p k) := .ite h h.setPort

theorem Canon.settle {old s : State} {p : Nat} {k : Packet} (h' : Canon s) : Canon (old.settle s p k) := .ite h'.takeIn h'.upd.setPort

theorem Canon.readBuffer {l : Nat} {marks : SMap Mark} {k : Packet} (h : Canon s) : Canon (s.readBuffer l marks k).1 := by
  unfold State.readBuffer
  extract_lets s1 _ _ _
  have h1 : Canon s1 := h.foldl fun _ _ h => h.countRead
  split
  · exact h1
  · split
    · exact h1
    · split
      · exact h1
      · exact h1

theorem Canon.arriving {p : Nat} {k : Packet} (h : Canon s) : Canon (s.arriving p k).1 := by
  unfold State.arriving
  split
  next hs => exact (h.readBuffer.of_pair hs).crcEvent.markOldest
  next hs =>
    split
    next ht => exact ((h.readBuffer.of_pair hs).inspect).of_pair ht

theorem Canon.onFirst {k : Packet} {act : State → State} (h : Canon s) (hact : ∀ {t : State}, Canon t → Canon (act t)) :
    Canon (s.onFirst k act) := by
  have hs : Canon (s.sendPlain 0x29 k.source (s.fromOld 0 k) (leBytes 4 (bodyNum k 0 4))) := h.sendPlain
  exact .ite hs (hact hs.withFabric)

theorem Canon.talusAnswer {l : Nat} {k : Packet} {type step : Nat} {bs : List (Byte × Bool)} (h : Canon s) :
    Canon (s.talusAnswer l k type step bs) :=
  h.emit

theorem Canon.refuseTalus {l : Nat} {k : Packet} {reason : Nat} (h : Canon s) : Canon (s.refuseTalus l k reason) := h.lEvent.talusAnswer

theorem Canon.serveRead {l : Nat} {k : Packet} {all : Bool} (h : Canon s) : Canon (s.serveRead l k all) := by
  unfold State.serveRead
  extract_lets
  split
  · exact h.refuseTalus
  · exact .ite h.refuseTalus (Canon.ite h.block h.noteRead.talusAnswer)

theorem Canon.serveWrite {l : Nat} {k : Packet} {all : Bool} (h : Canon s) : Canon (s.serveWrite l k all) := by
  unfold State.serveWrite
  split
  · exact h.refuseTalus
  · exact .ite h.block h.put.land

theorem Canon.takeReply {l : Nat} {k : Packet} {all : Bool} (h : Canon s) : Canon (s.takeReply l k all) := by
  unfold State.takeReply
  split
  · extract_lets _ _ s1
    have h1 : Canon s1 := h.upd
    clear_value s1
    refine .ite h1 ?_
    split
    · split
      · exact h1.deliverTalus
      · exact h1
    · exact h1
  · exact h

theorem Canon.takeRefusal {l : Nat} {k : Packet} {all : Bool} (h : Canon s) : Canon (s.takeRefusal l k all) := by
  unfold State.takeRefusal
  extract_lets
  exact .ite h (h.loseTalus.foldl fun _ _ h => h.makeUnavailable)

theorem Canon.takeCollective {l : Nat} {k : Packet} {all : Bool} (h : Canon s) : Canon (s.takeCollective l k all) := by
  unfold State.takeCollective
  refine .ite h.receiveWrite ?_
  split
  · exact .ite h h.keepPart.land.tryCollective
  · exact h

theorem Canon.takeBeacon {p : Nat} {k : Packet} (h : Canon s) : Canon (s.takeBeacon p k) := by
  unfold State.takeBeacon
  extract_lets
  exact .ite h h.upd

theorem Canon.takeArrivals {l : Nat} {k : Packet} {all : Bool} (h : Canon s) : Canon (s.takeArrivals l k all) := by
  unfold State.takeArrivals
  extract_lets
  exact .ite h.countArrivals h

theorem Canon.takeRelease {l : Nat} {k : Packet} {all : Bool} (h : Canon s) : Canon (s.takeRelease l k all) := by
  unfold State.takeRelease
  extract_lets
  exact .ite h.releaseBarrier h

theorem Canon.countBallot {k : Packet} (h : Canon s) : Canon (State.countBallot k s) := by
  unfold State.countBallot
  extract_lets
  exact .ite h.joinBallot h

theorem Canon.countVerdict {k : Packet} (h : Canon s) : Canon (State.countVerdict k s) := h.takeVerdict

theorem Canon.noteMove {k : Packet} (h : Canon s) : Canon (State.noteMove k s) := h.upd

theorem Canon.answerQuery {k : Packet} (h : Canon s) : Canon (State.answerQuery k s) := h.sendAcked

theorem Canon.broadcastMove {m : RankMoveRun} (h : Canon s) : Canon (s.broadcastMove m) := by
  unfold State.broadcastMove
  extract_lets _ _ _ _ _ _ _ _ _ s1 s2
  have h1 : Canon s1 := h.upd
  have h2 : Canon s2 := h1.broadcast
  exact .ite h2 h2.sendAcked

theorem Canon.noteIdentity {k : Packet} (h : Canon s) : Canon (State.noteIdentity k s) := by
  unfold State.noteIdentity
  split
  · exact .ite h.broadcastMove h.dropMove
  · exact h

theorem Canon.ackedAct {type : Nat} {k : Packet} (h : Canon s) : Canon (ackedAct type k s) := by
  unfold Machine.ackedAct
  split
  · exact h.countBallot
  · exact h.countVerdict
  · exact h.noteMove
  · exact h.answerQuery
  · exact h.noteIdentity
  · exact h.deviceReset

theorem Canon.takeAcked {type l : Nat} {k : Packet} {all : Bool} (h : Canon s) : Canon (State.takeAcked type s l k all) :=
  h.onFirst fun h => h.ackedAct

theorem Canon.takeReset {l : Nat} {k : Packet} {all : Bool} (h : Canon s) : Canon (s.takeReset l k all) :=
  .ite (h.onFirst fun h => h.ackedAct) h.lEvent

theorem Canon.takeAck {l : Nat} {k : Packet} {all : Bool} (h : Canon s) : Canon (s.takeAck l k all) := h.upd

theorem Canon.readHeld {h : Held} (hs : Canon s) : Canon (s.readHeld h).1 := hs.readBuffer

theorem Canon.faultPort {p : Nat} (h : Canon s) : Canon (s.faultPort p) := by
  unfold State.faultPort
  extract_lets
  exact h.enterPort.reroute.retryCollectives

theorem Canon.retryOps {l : Nat × Nat} (h : Canon s) : Canon (s.retryOps l) := h.upd

theorem Canon.hEvent {code src detail : Nat} (h : Canon s) : Canon (s.hEvent code src detail) := h.event

theorem Canon.tripEvent (h : Canon s) : Canon s.tripEvent := .ite h.hEvent h

theorem Canon.enterPowered (h : Canon s) : Canon s.enterPowered := by
  unfold State.enterPowered
  extract_lets s1 _ s2
  have h1 : Canon s1 := h.cold
  clear_value s1
  have h2 : Canon s2 := h1.upd
  exact h2.tripEvent.setHot

theorem Canon.fabricOff (h : Canon s) : Canon s.fabricOff := h.upd

theorem Canon.transitionLoss {p q : PowerState} (h : Canon s) : Canon (s.transitionLoss p q) := by
  unfold State.transitionLoss
  split
  · exact h.portsOff.fabricOff
  · exact h.foldl fun _ _ h => h.freshCdie
  · exact h.foldl fun _ _ h => h.resetMdie
  · exact h

theorem Canon.cancelTransition (h : Canon s) : Canon s.cancelTransition := by
  unfold State.cancelTransition
  extract_lets _ s1
  have h1 : Canon s1 := h.upd
  split
  · exact h1.complete
  · exact h1

theorem Canon.transition {t : PowerState} (h : Canon s) : Canon (s.transition t) := by
  unfold State.transition
  extract_lets _ _ s1 _ s2 s3 d _ s4
  have h1 : Canon s1 := h.transitionLoss
  clear_value s1
  have h2 : Canon s2 := h1.upd.alertFrom
  have h3 : Canon s3 := h2.hEvent
  clear_value s3 d
  have h4 : Canon s4 := h3.upd
  refine .ite h.cancelTransition (.ite ?_ h3)
  split
  · exact h4.complete
  · exact h4

theorem Canon.release {d : DescRef} (h : Canon s) : Canon (s.release d) := by
  unfold State.release
  extract_lets s1 s2 s3 _
  have h1 : Canon s1 := h.portsOff.tellReads
  have h2 : Canon s2 := (Canon.ite h1.flushHeld h1).reportLost
  have h3 : Canon s3 := h2.complete
  clear_value s3
  exact Canon.setHot h3.upd

theorem Canon.redo {b : Blocked} (h : Canon s) : Canon (s.redo b) := by
  unfold State.redo
  split
  next hs =>
    have h1 := (h.readBuffer.of_pair hs).crcEvent (p := b.port.getD (8 * b.ldie)) (detail := b.packet.source + 1 <<< 18)
    split
    · exact h1.markOldest.takeIn
    · exact h1.markOldest
  next k hs =>
    have h1 := h.readBuffer.of_pair hs
    extract_lets t
    have ht : Canon t := by
      unfold t
      split
      · exact h1.receiveSnapshot
      · exact h1.serveRead
      · exact h1.serveWrite
      · exact h1.receiveWrite
    split
    · exact ht.settle
    · exact ht

theorem Canon.unblock (h : Canon s) : Canon s.unblock := by
  unfold State.unblock
  extract_lets
  have h1 := Canon.foldl (l := s.fabric.blocked) (h.upd (t := { s with fabric := { s.fabric with blocked := [] } })) fun _ b h => h.redo (b := b)
  exact h1.retryCollectives

theorem Canon.markDip {d : Dip} (h : Canon s) : Canon (s.markDip d) := h.upd

theorem Canon.doTrip {temperature : Bool} {sensor value : Nat} (h : Canon s) : Canon (s.doTrip temperature sensor value) := by
  unfold State.doTrip
  extract_lets _ s1 _
  have h1 : Canon s1 := h.powerOff
  clear_value s1
  exact h1.upd.alertFrom

theorem Canon.watchJunction {n : Nat} {t : Int} (h : Canon s) : Canon (s.watchJunction n t) := by
  unfold State.watchJunction
  extract_lets _ _ s1 _
  have h1 : Canon s1 := .ite h.markCrest h
  clear_value s1
  exact .ite (.ite (Canon.hEvent h1.upd) h1) (.ite (Canon.hEvent h1.upd) h1.upd)

theorem Canon.watchStack {n : Nat} {t : Int} (h : Canon s) : Canon (s.watchStack n t) := by
  unfold State.watchStack
  extract_lets
  exact .ite (.ite (Canon.hEvent h.upd) h) (.ite (Canon.hEvent h.upd) h.upd)

theorem Canon.setReading {n v : Nat} (h : Canon s) : Canon (s.setReading n v) := h.upd

theorem Canon.watchTrip {n : Nat} {t : Int} (h : Canon s) : Canon (s.watchTrip n t) := .ite h.upd (Canon.ite h.doTrip h.upd)

theorem Canon.coolantOut {k v : Nat} (h : Canon s) : Canon (s.coolantOut k v) := by
  unfold State.coolantOut
  extract_lets _ _ s1
  have h1 : Canon s1 := h.upd
  exact (Canon.ite h1 h1.hEvent).markCrest

theorem Canon.coolantIn {inlet flow : Bool} {n v : Nat} (h : Canon s) : Canon (s.coolantIn inlet flow n v) := by
  unfold State.coolantIn
  extract_lets _ _ s1
  have h1 : Canon s1 := h.upd
  exact .ite h1.hEvent h1

theorem Canon.watchCoolant {n v : Nat} (h : Canon s) : Canon (s.watchCoolant n v) := by
  unfold State.watchCoolant
  extract_lets _ _ s1
  have h1 : Canon s1 := h.upd
  split
  · exact Canon.coolantIn h.upd
  · exact .ite h1.coolantOut h1

theorem Canon.watchPower {v : Nat} (h : Canon s) : Canon (s.watchPower v) := by
  unfold State.watchPower
  extract_lets _ _ s1
  have h1 : Canon s1 := h.upd
  exact .ite h1 (Canon.ite h1 h1.hEvent).markCrest

theorem Canon.sampleDie {n v : Nat} (h : Canon s) : Canon (s.sampleDie n v) := by
  unfold State.sampleDie
  extract_lets s1
  have h1 : Canon s1 := .ite h (Canon.ite h.setReading.watchJunction h.setReading.watchStack)
  exact .ite h1.watchTrip h1

theorem Canon.respond {bs : List Byte} (h : Canon s) : Canon (s.respond bs) := h.upd

theorem Canon.answerControl {msg : List Byte} {cc : Nat} {data : List Byte} (h : Canon s) : Canon (s.answerControl msg cc data) :=
  .ite h h.respond

theorem Canon.answerVendor {msg : List Byte} {cc : Nat} {data : List Byte} (h : Canon s) : Canon (s.answerVendor msg cc data) := h.respond

theorem Canon.transferDone {d : DescRef} {bad : Nat} (h : Canon s) : Canon (s.transferDone d bad) := h.completeWith

theorem Canon.unitToHost {acc : State × Nat} {host dev : Nat} {bs : List (Byte × Bool)} (h : Canon acc.1) :
    Canon (State.unitToHost acc host dev bs).1 := by
  unfold State.unitToHost
  split
  · dsimp only
    exact h.event
  · dsimp only
    exact h.hostWrite

theorem Canon.unitFromHost {acc : State × Nat} {host dev n : Nat} (h : Canon acc.1) : Canon (State.unitFromHost acc host dev n).1 := by
  unfold State.unitFromHost
  extract_lets _ s1
  have h1 : Canon s1 := .ite h.linkError h
  dsimp only
  exact h1.put

theorem Canon.workCopy {d : DescRef} (h : Canon s) : Canon (s.workCopy d) := by
  unfold State.workCopy
  extract_lets
  split
  next hs =>
    split at hs
    · exact (Canon.of_pair (Canon.foldl_fst h.noteRead fun _ _ h => h.unitToHost) hs).transferDone
    · exact (Canon.of_pair (Canon.foldl_fst h fun _ _ h => h.unitFromHost) hs).transferDone

theorem Canon.workFill {d : DescRef} (h : Canon s) : Canon (s.workFill d) := h.fillRange.complete

theorem Canon.workParamRead {d : DescRef} (h : Canon s) : Canon (s.workParamRead d) := by
  unfold State.workParamRead
  extract_lets _ _ _ s1 s2
  have h1 : Canon s1 := .ite h.noteTables.markOldest h.noteTables
  have h2 : Canon s2 := .ite h1.noteRead h1
  split
  next hs => exact (Canon.of_pair (Canon.foldl_fst h2 fun _ _ h => h.unitToHost) hs).transferDone

theorem Canon.workSnapshot {d : DescRef} (h : Canon s) : Canon (s.workSnapshot d) := by
  unfold State.workSnapshot
  split
  · exact h
  · extract_lets _ s1
    have h1 : Canon s1 := h.upd
    exact .ite h1.event.complete h1.complete

theorem Canon.workRepair {d : DescRef} (h : Canon s) : Canon (s.workRepair d) := by
  unfold State.workRepair
  extract_lets _ _ _ lo told
  have htold : ∀ {t : State} {r : Nat}, Canon t → Canon (told t r) := fun h => h.event.complete
  exact .ite (htold h) (.ite (htold h) (htold ⟨Memory.wf_poison _ _ _ h.mem, h.tiles⟩))

theorem Canon.workFirmware {d : DescRef} (h : Canon s) : Canon (s.workFirmware d) := by
  unfold State.workFirmware
  split
  · exact .ite h h.upd.stage.complete
  · exact h

theorem Canon.work {d : DescRef} (h : Canon s) : Canon (s.work d) := by
  unfold State.work
  split
  · exact h.workParamRead
  · exact h.workCopy
  · exact h.workFill
  · exact h.workSnapshot
  · exact h.workRepair
  · exact h.workFirmware
  · exact h.heldWork

end Sys2Proof.Machine
end

section
/-! PROOFS. The canonical form of the memories: what each row answers, and one step. -/

namespace Sys2Proof.Machine

/-- A next state, if there is one, is canonical. -/
def CanonOutcome (o : Host.Outcome State Fault Refusal) : Prop := ∀ t, o = .next t → Canon t

section
variable {c : Prop} [Decidable c] {o o' : Host.Outcome State Fault Refusal} {r : Refusal} {s : State}

theorem Canon.next (h : Canon s) : CanonOutcome (.next s) := by
  rintro _ ⟨⟩
  exact h

theorem CanonOutcome.refused : CanonOutcome (.refused r) := fun _ h => nomatch h

theorem CanonOutcome.ite (h : CanonOutcome o) (h' : CanonOutcome o') : CanonOutcome (if c then o else o') := by
  split
  · exact h
  · exact h'

/-- A row that answers one of two states. -/
theorem CanonOutcome.either {t : State} (h : Canon s) (h' : Canon t) : CanonOutcome (if c then .next s else .next t) := .ite h.next h'.next

end

section
variable {s : State}

/-! ### Families of rows -/

theorem Canon.issueWord {o : CoreOp} {c : BitVec 8} {w : IWord} (h : Canon s) : CanonOutcome (issueWord o c w s) := by
  unfold Machine.issueWord
  split
  · exact .refused
  · exact h.submit.next

theorem Canon.runMword {o : MOp} {m : BitVec 4} {w : IWord} (h : Canon s) : CanonOutcome (runMword o m w s) := by
  unfold Machine.runMword
  refine .ite .refused ?_
  split
  · exact .refused
  · exact h.mSubmit.next

theorem Canon.performDesc {kind : Nat} {check : State → DescRef → List (Bool × Nat)} {act : State → DescRef → State} {r : BitVec 4} {d : Desc}
    (h : Canon s) (hact : ∀ {t : State} (x : DescRef), Canon t → Canon (act t x)) : CanonOutcome (performDesc kind check act r d s) := by
  unfold Machine.performDesc
  refine .ite .refused ?_
  split
  · exact h.next
  · refine .ite h.next ?_
    split
    · exact h.noteImage.complete.next
    · exact (Canon.ite h.noteImage.accept (hact _ h.noteImage)).next

theorem Canon.receive {type : Nat} {act : State → Nat → Packet → Bool → State} {p : BitVec 5} {k : Packet} (h : Canon s)
    (hact : ∀ {t : State} {l : Nat} {k : Packet} {all : Bool}, Canon t → Canon (act t l k all)) : CanonOutcome (receive type act p k s) := by
  unfold Machine.receive
  refine .ite h.next ?_
  split
  next hs => exact (h.arriving.of_pair hs).takeIn.next
  next hs => exact .ite .refused (hact (h.arriving.of_pair hs)).settle.next

theorem Canon.mailboxWrite {code : Nat} {v : Word} (h : Canon s) : CanonOutcome (mailboxWrite code v s) :=
  .ite .refused (h.regWrite h.writeMailboxCommand).next

theorem Canon.controlRow {code : Nat} {act : State → State} {msg : List Byte} (h : Canon s) (hact : Canon (act s)) :
    CanonOutcome (controlRow code act msg s) := .ite .refused (.either hact h)

theorem Canon.vendorRow {code : Nat} {act : State → State} {msg : List Byte} (h : Canon s) (hact : Canon (act s)) :
    CanonOutcome (vendorRow code act msg s) := .ite .refused (.either hact h)

/-! ### Events at a core and at an M-die -/

theorem Canon.execInstructionComplete {c : BitVec 8} {unit : BitVec 4} (h : Canon s) : CanonOutcome (execInstructionComplete c unit s) := by
  unfold Machine.execInstructionComplete
  split
  · exact h.next
  · exact .either h h.retireOwned.onCore.signal.afterComplete

theorem Canon.execTokenWaitMet {c : BitVec 8} (h : Canon s) : CanonOutcome (execTokenWaitMet c s) := by
  unfold Machine.execTokenWaitMet
  split
  · exact .either h.resume h
  · exact h.next

theorem Canon.execBlockFinish {c : BitVec 8} (h : Canon s) : CanonOutcome (execBlockFinish c s) := by
  unfold Machine.execBlockFinish
  extract_lets
  split
  · refine .ite ?_ h.next
    extract_lets s1 _
    have h1 : Canon s1 := h.signal.onCore
    clear_value s1
    exact Canon.next h1.upd
  · exact h.next

theorem Canon.execMdieWaitMet {m : BitVec 4} (h : Canon s) : CanonOutcome (execMdieWaitMet m s) := by
  unfold Machine.execMdieWaitMet
  refine .ite .refused ?_
  split
  · exact .either h.mRun h
  · exact h.next

theorem Canon.execMdieWordFinish {m : BitVec 4} (h : Canon s) : CanonOutcome (execMdieWordFinish m s) := by
  unfold Machine.execMdieWordFinish
  refine .ite .refused ?_
  split
  · exact .either h h.mFinish
  · exact h.next

/-! ### Crests and steps -/

theorem Canon.execCrestBoundary (h : Canon s) : CanonOutcome (execCrestBoundary s) := by
  unfold Machine.execCrestBoundary
  split
  · exact h.next
  · exact h.resumeCrest.next
  · split
    · exact h.slip.next
    · exact h.boundary.next

theorem Canon.execLateWorkFinish {l : BitVec 32} (h : Canon s) : CanonOutcome (execLateWorkFinish l s) := by
  unfold Machine.execLateWorkFinish
  split
  · exact .either h h.endDeferred
  · exact h.next

theorem Canon.execOverrunRepeat {l : BitVec 32} (h : Canon s) : CanonOutcome (execOverrunRepeat l s) := by
  unfold Machine.execOverrunRepeat
  split
  · exact h.overrunEvent.next
  · exact h.next

theorem Canon.execStepCompletion {n : Word} (h : Canon s) : CanonOutcome (execStepCompletion n s) := by
  unfold Machine.execStepCompletion
  split
  · exact h.completeStep.next
  · exact h.next

theorem Canon.execNormPartial {n : Word} {g : BitVec 6} (h : Canon s) : CanonOutcome (execNormPartial n g s) := by
  unfold Machine.execNormPartial
  extract_lets
  split
  · exact .either h (h.useTables fun h => h.putPartial)
  · exact h.next

/-! ### Host, mailbox and timed work -/

theorem Canon.execHostReadCompletion {a : Word} {e : Bool} {data : List Byte} (h : Canon s) : CanonOutcome (execHostReadCompletion a e data s) :=
  .either h.upd h.upd

theorem Canon.execIrqHoldoffExpiry {ring : BitVec 5} (h : Canon s) : CanonOutcome (execIrqHoldoffExpiry ring s) :=
  .ite .refused (.ite h.next (.either h.setRing h.setRing.hostWrite))

theorem Canon.execMailboxResult (h : Canon s) : CanonOutcome (execMailboxResult s) := by
  unfold Machine.execMailboxResult
  split
  · split
    next hs => exact Canon.next (h.mailCommand.of_pair hs).upd
  · exact h.next

theorem Canon.execUnknownMailboxCommand {v : Word} (h : Canon s) : CanonOutcome (execUnknownMailboxCommand v s) :=
  .ite .refused (h.regWrite h.writeMailboxCommand).next

theorem Canon.execProcessorRestart {p : BitVec 2} (h : Canon s) : CanonOutcome (execProcessorRestart p s) := by
  unfold Machine.execProcessorRestart
  refine .ite ?_ h.next
  extract_lets s1 _
  have h1 : Canon s1 := h.appendLog
  clear_value s1
  exact Canon.next h1.upd

theorem Canon.execDescriptorWorkDone {r : BitVec 4} {kind : BitVec 8} (h : Canon s) : CanonOutcome (execDescriptorWorkDone r kind s) := by
  unfold Machine.execDescriptorWorkDone
  refine .ite .refused ?_
  split
  · exact h.next
  · exact .either h h.work

/-! ### Packets, ports and links -/

theorem Canon.execControlPacketResend {seq : BitVec 32} (h : Canon s) : CanonOutcome (execControlPacketResend seq s) := by
  unfold Machine.execControlPacketResend
  split
  · exact h.next
  · extract_lets _ _ drop
    have hdrop : Canon (drop s) := h.upd
    exact .ite hdrop.next (.ite (Canon.emit h.upd).next (.either (hdrop.foldl fun _ _ h => h.dropMove) hdrop.loseAddress))

theorem Canon.execHeldPacketRelease {l : BitVec 2} (h : Canon s) : CanonOutcome (execHeldPacketRelease l s) := by
  unfold Machine.execHeldPacketRelease
  split
  · exact h.next
  · extract_lets _ s1
    have h1 : Canon s1 := h.upd
    split
    next hs => exact (h1.readHeld.of_pair hs).crcEvent.markOldest.next
    next hs => exact .either (h1.readHeld.of_pair hs).receiveBucket (h1.readHeld.of_pair hs).receiveOstage

theorem Canon.execFrame {p : BitVec 5} {f : BitVec 2048} (h : Canon s) : CanonOutcome (execFrame p f s) := by
  unfold Machine.execFrame
  extract_lets _ _ _ _ _ _ s1
  have h1 : Canon s1 := h.upd
  exact .ite h.next (.ite (Canon.ite h1.faultPort h1).next (.either h h.setPort.pump.retryCollectives))

theorem Canon.execMeshLinkFailure {a b : BitVec 5} (h : Canon s) : CanonOutcome (execMeshLinkFailure a b s) := by
  unfold Machine.execMeshLinkFailure
  extract_lets _ _ s1
  have h1 : Canon s1 := (Canon.retryOps h.upd).event
  clear_value s1
  refine .ite .refused (.ite h.next ?_)
  split
  · exact .either h1 (Canon.event h1.upd)
  · exact h1.next

theorem Canon.execMergeEntryRetire {m : BitVec 4} (h : Canon s) : CanonOutcome (execMergeEntryRetire m s) := by
  unfold Machine.execMergeEntryRetire
  refine .ite .refused ?_
  split
  · exact h.retireEntry.next
  · exact h.next

/-! ### Power and sensors -/

theorem Canon.execLinkDown (h : Canon s) : CanonOutcome (execLinkDown s) := by
  unfold Machine.execLinkDown
  refine .ite h.next ?_
  extract_lets _ _ s1
  have h1 : Canon s1 := Canon.setHot h.upd
  split
  · exact h1.complete.next
  · exact h1.next

theorem Canon.execQuiesceDrained (h : Canon s) : CanonOutcome (execQuiesceDrained s) := by
  unfold Machine.execQuiesceDrained
  split
  · exact .either h.release h
  · exact h.next

theorem Canon.execPowerTransition (h : Canon s) : CanonOutcome (execPowerTransition s) := by
  unfold Machine.execPowerTransition
  split
  · exact h.transition.next
  · exact h.next

theorem Canon.execSupplyDipEnd {l : BitVec 16} {n : BitVec 32} (h : Canon s) : CanonOutcome (execSupplyDipEnd l n s) := by
  unfold Machine.execSupplyDipEnd
  split
  · exact h.next
  · extract_lets _ s1 _
    have h1 : Canon s1 := h.hEvent
    clear_value s1
    exact Canon.next (Canon.markDip h1.upd)

theorem Canon.execSupplyLow {l : BitVec 16} {n : BitVec 32} (h : Canon s) : CanonOutcome (execSupplyLow l n s) := by
  unfold Machine.execSupplyLow
  split
  · exact h.next
  · exact Canon.next (Canon.hEvent h.upd)

theorem Canon.execSensorSample {n : BitVec 7} {v : BitVec 16} (h : Canon s) : CanonOutcome (execSensorSample n v s) := by
  unfold Machine.execSensorSample
  extract_lets _ _ _ s1 s2 s3
  have h1 : Canon s1 := h.upd
  have h2 : Canon s2 := h.upd
  have h3 : Canon s3 := .ite h2.setReading h2
  exact .ite .refused (.ite (Canon.ite h1.watchPower h1).next (.ite (.ite h2.next (Canon.ite h3.watchCoolant h3).next) (.either h h.sampleDie)))

/-! ### The sideband -/

theorem Canon.execSetEndpointId {msg : List Byte} (h : Canon s) : CanonOutcome (execSetEndpointId msg s) :=
  h.controlRow (.ite h.answerControl (.ite h.answerControl (Canon.answerControl h.upd)))

theorem Canon.execGetMctpVersionSupport {msg : List Byte} (h : Canon s) : CanonOutcome (execGetMctpVersionSupport msg s) :=
  h.controlRow (.ite h.answerControl (.ite h.answerControl h.answerControl))

theorem Canon.execGetVendorDefinedMessageSupport {msg : List Byte} (h : Canon s) : CanonOutcome (execGetVendorDefinedMessageSupport msg s) :=
  h.controlRow (.ite h.answerControl (.ite h.answerControl h.answerControl))

theorem Canon.execUnsupportedControlCommand {msg : List Byte} (h : Canon s) : CanonOutcome (execUnsupportedControlCommand msg s) :=
  .ite .refused (.ite (h.controlRow h.answerControl) (h.vendorRow h.answerVendor))

theorem Canon.execPowerDisable {msg : List Byte} (h : Canon s) : CanonOutcome (execPowerDisable msg s) :=
  h.vendorRow (Canon.answerVendor (.ite h.upd h.powerOff))

theorem Canon.execClearTrip {msg : List Byte} (h : Canon s) : CanonOutcome (execClearTrip msg s) :=
  h.vendorRow (.ite h.answerVendor (Canon.answerVendor (Canon.alertFrom h.upd)))

/-! ### Every command -/

/-- A command keeps the form: rows of one family by what their common meaning does, the others by their own lemma or branches. -/
theorem exec_canon (i : Instr) (h : Canon s) : CanonOutcome (exec i s) := by
  cases i <;> dsimp only [exec]
  case nop | cbegin | cend | loop | twait | tsig | sli | salu | sld | sst | sid | sflag | loadset | pass | enq | flush | tclr | combine |
      vop | vcvt | vsplit | vperm | vsetvl | vmovs | vld | vst | kload | kapply | rreg | rtrow | wrun | wpool | copy | fill | dsplit |
      fsend | frecv | bsend | kvread | kvappend | kvflush => exact h.issueWord
  case matvec => exact .ite .refused h.issueWord
  case pack | unpack | ship | fetch | fwait | update | vcontrib | rerun | ostage | gather | cwait => exact h.runMword
  case planUnload | realign | ringAdvance | talusBind | talusRevoke | powerState | peerLost => exact h.performDesc fun _ h => h.atBoundary
  case paramRead | copyDescriptor | fillDescriptor | hbmRepair => exact h.performDesc fun _ h => h.accept
  case planLoad => exact h.performDesc fun _ h => h.actPlanLoad
  case step => exact h.performDesc fun _ h => h.actStep
  case abort => exact h.performDesc fun _ h => h.actAbort
  case clipFactor => exact h.performDesc fun _ h => h.actClip
  case shardMap => exact h.performDesc fun _ h => h.actShardMap
  case rankTable => exact h.performDesc fun _ h => h.actRankTable
  case rankMove => exact h.performDesc fun _ h => h.actRankMove
  case paramLoad => exact h.performDesc fun _ h => h.actParamLoad
  case snapshot => exact h.performDesc fun _ h => h.actSnapshot
  case restore => exact h.performDesc fun _ h => h.actRestore
  case talusLend => exact h.performDesc fun _ h => h.actLend
  case talusEnd => exact h.performDesc fun _ h => h.actEnd
  case quiesce => exact h.performDesc fun _ h => h.actQuiesce
  case firmware => exact h.performDesc fun _ h => h.actFirmware
  case bucketPacket => exact h.receive fun h => h.receiveBucket
  case fsendData | gatherData => exact h.receive fun h => h.receiveWrite
  case ostageData => exact h.receive fun h => h.receiveOstage
  case snapshotCopy => exact h.receive fun h => h.receiveSnapshot
  case talusReadRequest => exact h.receive fun h => h.serveRead
  case talusReadReply => exact h.receive fun h => h.takeReply
  case talusWrite => exact h.receive fun h => h.serveWrite
  case talusRefusal => exact h.receive fun h => h.takeRefusal
  case collectiveData => exact h.receive fun h => h.takeCollective
  case beacon => exact h.receive fun h => h.takeBeacon
  case barrierArrive => exact h.receive fun h => h.takeArrivals
  case barrierRelease => exact h.receive fun h => h.takeRelease
  case verdictContribution | verdict | rankMovePacket | identityQuery | identityReply => exact h.receive fun h => h.takeAcked
  case resetPacket => exact h.receive fun h => h.takeReset
  case acknowledgement => exact h.receive fun h => h.takeAck
  case unreachableNotice => exact h.receive fun h => h.loseAddress
  case getReport | accept | getCerts | getStatus | stageImage | commitVersion | setBootSlot | revokeKey => exact h.mailboxWrite
  case unknownMailboxCommand => exact h.execUnknownMailboxCommand
  case mailboxResult => exact h.execMailboxResult
  case instructionComplete => exact h.execInstructionComplete
  case tokenWaitMet => exact h.execTokenWaitMet
  case interlockRelease => exact .either h.resume h
  case batchWaitExpiry => exact .either h.issueBatch.onCore h
  case blockFinish => exact h.execBlockFinish
  case mdieWaitMet => exact h.execMdieWaitMet
  case mdieWordFinish => exact h.execMdieWordFinish
  case crestBoundary => exact h.execCrestBoundary
  case lateWorkFinish => exact h.execLateWorkFinish
  case overrunRepeat => exact h.execOverrunRepeat
  case stepCompletion => exact h.execStepCompletion
  case normPartial => exact h.execNormPartial
  case submissionDoorbell | completionDoorbell | eventDoorbell => exact h.doorbell.next
  case descriptorFetch => exact .either h.fetch h.refuseKind
  case hostReadCompletion => exact h.execHostReadCompletion
  case irqHoldoffExpiry => exact h.execIrqHoldoffExpiry
  case descriptorWorkDone => exact h.execDescriptorWorkDone
  case controlPacketResend => exact h.execControlPacketResend
  case heldPacketRelease => exact h.execHeldPacketRelease
  case frame => exact h.execFrame
  case frameRetryExhausted => exact .either h h.faultPort
  case meshLinkFailure => exact h.execMeshLinkFailure
  case mergeEntryRetire => exact h.execMergeEntryRetire
  case beaconLoss => exact .either h (Canon.event h.upd)
  case partnerDetected => exact .ite .refused (.either h h.setPort)
  case equaliseDone => exact .ite h.next (.either h.setPort h.enterPort)
  case measureDone => exact .either h h.enterPort.pump.retryCollectives
  case presenceClose => exact .either (Canon.setHot h.upd) h
  case presenceLoss => exact .either h.powerOff h
  case inputPowerLoss => exact .either h h.powerOff
  case enterPowered => exact .either h.enterPowered h
  case cairnBoot => exact .either h.upd h
  case stackPoisonDone => exact .ite .refused (Canon.unblock h.upd).next
  case linkTrained => exact .ite .refused (.either h (Canon.setHot h.upd))
  case linkDown => exact h.execLinkDown
  case quiesceDrained => exact h.execQuiesceDrained
  case powerTransition => exact h.execPowerTransition
  case resetDone => exact .ite .refused (Canon.next h.upd)
  case supplyDip => exact .either h.upd h
  case supplyDipEnd => exact h.execSupplyDipEnd
  case supplyLow => exact h.execSupplyLow
  case overVoltage => exact .either (Canon.hEvent h.upd) h
  case trip => exact .ite .refused (.either h.doTrip h)
  case sensorSample => exact h.execSensorSample
  case coolantEvent => exact .ite h.next (.ite h.coolantIn.next (.either h.coolantOut h))
  case powerWarning => exact .either h h.watchPower
  case stackFault => exact .ite .refused (.either h.event h)
  case processorRestart => exact h.execProcessorRestart
  case firewalledAccess => exact .either h.upd h
  case crestPeriod => exact (h.regWrite h.writeCrestPeriod).next
  case crestControl => exact (h.regWrite h.writeCrestControl).next
  case arrayCurrentControl => exact (h.regWrite h.writeArrayCurrent).next
  case batchingWait => exact (h.regWrite h.writeBatchWait).next
  case zeroStreakThreshold => exact (h.regWrite h.writeThreshold).next
  case cReset | mReset | lReset | deviceReset => exact (h.regWrite h.writeResetControl).next
  case coreExchange => exact (h.regWrite h.writeCoreExchange).next
  case coreFailed => exact (h.regWrite h.writeCoreFailed).next
  case ringEnable | ringDisable => exact .ite .refused (h.regWrite h.writeRingConfig).next
  case moduleEnable => exact (h.regWrite h.writeModuleEnable).next
  case supplyThermalControl => exact (h.regWrite h.writeSupply).next
  case fabricAddress => exact (h.regWrite h.writeFabricAddress).next
  case portEnable | portDisable => exact (h.regWrite h.writePortControl).next
  case errorStatusClear => exact (h.regWrite h.writeErrorStatus).next
  case countClear => exact h.writeRegister.next
  case registerWrite => exact (Canon.ite h.writeDoorbell h.writeRegister).next
  case setEndpointId => exact h.execSetEndpointId
  case getEndpointId | getMessageTypeSupport => exact h.controlRow h.answerControl
  case getMctpVersionSupport => exact h.execGetMctpVersionSupport
  case getVendorDefinedMessageSupport => exact h.execGetVendorDefinedMessageSupport
  case unsupportedControlCommand => exact h.execUnsupportedControlCommand
  case getState => exact h.vendorRow (Canon.answerVendor h.upd)
  case powerEnable => exact h.vendorRow (Canon.answerVendor (.ite h.upd h))
  case powerDisable => exact h.execPowerDisable
  case readFru | readSensors => exact h.vendorRow (.ite h.answerVendor h.answerVendor)
  case readInput | readTrip => exact h.vendorRow h.answerVendor
  case clearTrip => exact h.execClearTrip
  case sidebandControllerStart => exact .either h (Canon.alertFrom h.upd)
  case pchgBreak => exact Canon.next h.upd

end

/-- Settles O4: the front command by its row, on the state with the queue's rest; an idle module stays as it is. -/
theorem stepKeepsCanonicalForm : Obligations.StepKeepsCanonicalForm := by
  intro s t hs hstep
  have h : Canon s := (canonical_iff_canon s).1 hs
  refine (canonical_iff_canon t).2 ?_
  cases hp : s.pending with
  | nil => exact h.next t (step_of_pending_nil s hp ▸ hstep)
  | cons i rest => exact exec_canon i (h.upd (t := { s with pending := rest })) t (step_of_pending_cons s i rest hp ▸ hstep)

end Sys2Proof.Machine
end

end

section
/-! PROOFS. Results of the vector engine: lanes written, flags raised (R181, R185, R192, R225), and VOP (R188). -/

namespace Sys2Proof.Machine

/-! ### Lanes written (R181, R492) -/

/-- Lane j of vector register v as it is read: its bits and its stain. -/
def CoreState.cell (k : CoreState) (v j : Nat) : Nat × Bool := (k.lane v j, k.laneStain v j)

/-- k' differs from k at most in its vector registers, with their parity. -/
def CoreState.laned (k k' : CoreState) : Prop := k' = { k with vregs := k'.vregs, parity := k'.parity }

theorem CoreState.laned.trans {k k' k'' : CoreState} (h1 : k.laned k') (h2 : k'.laned k'') : k.laned k'' :=
  Eq.trans h2 (congrArg (fun x : CoreState => { x with vregs := k''.vregs, parity := k''.parity }) h1)

/-- A written register or counter has good parity, and no other's parity changes. -/
theorem CoreState.contains_mendParity (k : CoreState) (x y : ParityCell) :
    (k.mendParity x).parity.contains y = (k.parity.contains y && decide (y ≠ x)) := by
  rw [Bool.eq_iff_iff]
  simp [CoreState.mendParity]

section
variable {k : CoreState} {v : Nat}

theorem CoreState.contains_setLane_parity (j x : Nat) (t : Bool) (y : ParityCell) :
    (k.setLane v j x t).parity.contains y = (k.parity.contains y && decide (y ≠ .lane v j)) := CoreState.contains_mendParity k _ y

theorem CoreState.setLane_vregs_wf (j x : Nat) (t : Bool) (h : SMap.wf (0, true) k.vregs = true) :
    SMap.wf (0, true) (k.setLane v j x t).vregs = true := SMap.wf_set _ _ _ _ h

theorem CoreState.cell_setLane (j x : Nat) (t : Bool) (h : SMap.wf (0, true) k.vregs = true) :
    (k.setLane v j x t).cell v j = (x % 2 ^ 32, t) := by
  have hget : SMap.get (0, true) (k.setLane v j x t).vregs (128 * v + j) = (BitVec.ofNat 32 x, t) := SMap.get_set_eq _ _ _ _ h
  have hparity : (k.setLane v j x t).parity.contains (.lane v j) = false := by
    simp only [CoreState.contains_setLane_parity, ne_eq, not_true, decide_false, Bool.and_false]
  simp only [CoreState.cell, CoreState.lane, CoreState.laneStain, hget, hparity, BitVec.toNat_ofNat, Bool.or_false]

theorem CoreState.cell_setLane_ne {u i j : Nat} (x : Nat) (t : Bool) (h : SMap.wf (0, true) k.vregs = true) (hi : i < 128) (hj : j < 128)
    (hne : u ≠ v ∨ i ≠ j) : (k.setLane v j x t).cell u i = k.cell u i := by
  have hget : SMap.get (0, true) (k.setLane v j x t).vregs (128 * u + i) = SMap.get (0, true) k.vregs (128 * u + i) :=
    SMap.get_set_ne _ _ _ _ _ h (by omega)
  have hparity : (k.setLane v j x t).parity.contains (.lane u i) = k.parity.contains (.lane u i) := by
    have hcell : ParityCell.lane u i ≠ .lane v j := fun he => by cases he; omega
    rw [CoreState.contains_setLane_parity, decide_eq_true hcell, Bool.and_true]
  simp only [CoreState.cell, CoreState.lane, CoreState.laneStain, hget, hparity]

theorem CoreState.setLanes_laned (xs : List (Nat × Nat × Bool)) : k.laned (k.setLanes v xs) := by
  induction xs generalizing k with
  | nil => rfl
  | cons x xs ih => exact CoreState.laned.trans (k' := k.setLane v x.1 x.2.1 x.2.2) rfl ih

/-- Writing lanes 0 to n - 1 writes the last of them last. -/
theorem CoreState.setLanes_range_succ (f : Nat → Nat × Bool) (n : Nat) :
    k.setLanes v ((List.range (n + 1)).map fun j => (j, f j)) =
      (k.setLanes v ((List.range n).map fun j => (j, f j))).setLane v n (f n).1 (f n).2 := by
  simp [CoreState.setLanes, List.range_succ]

theorem CoreState.setLanes_range_wf (f : Nat → Nat × Bool) (n : Nat) (h : SMap.wf (0, true) k.vregs = true) :
    SMap.wf (0, true) (k.setLanes v ((List.range n).map fun j => (j, f j))).vregs = true := by
  induction n with
  | zero => exact h
  | succ n ih => rw [CoreState.setLanes_range_succ]; exact CoreState.setLane_vregs_wf _ _ _ ih

/-- After lanes 0 to n - 1 of v are written, they read what was written, and every other lane of the core as before. -/
theorem CoreState.cell_setLanes_range (f : Nat → Nat × Bool) {n u i : Nat} (h : SMap.wf (0, true) k.vregs = true) (hn : n ≤ 128)
    (hi : i < 128) : (k.setLanes v ((List.range n).map fun j => (j, f j))).cell u i =
      if u = v ∧ i < n then ((f i).1 % 2 ^ 32, (f i).2) else k.cell u i := by
  induction n with
  | zero => simp [CoreState.setLanes]
  | succ n ih =>
    have hwf := CoreState.setLanes_range_wf (v := v) f n h
    rw [CoreState.setLanes_range_succ]
    by_cases hlast : u = v ∧ i = n
    · obtain ⟨rfl, rfl⟩ := hlast
      rw [CoreState.cell_setLane _ _ _ hwf, if_pos ⟨rfl, Nat.lt_succ_self _⟩]
    · rw [CoreState.cell_setLane_ne _ _ hwf hi (by omega) (by omega), ih (by omega)]
      exact if_congr (by omega) rfl rfl

end

/-! ### Flags raised (R192, R225) -/

theorem CoreState.raise_zero (k : CoreState) (step : Nat) : k.raise step 0 = k := by
  simp [CoreState.raise]

theorem CoreState.bank_raise (k : CoreState) (step f : Nat) : (k.raise step f).bank step = k.bank step ||| f := by
  unfold CoreState.raise CoreState.bank
  split <;> rfl

/-- Flags raised for a step are in no other step's bank. -/
theorem CoreState.bank_raise_next (k : CoreState) (step f : Nat) : (k.raise step f).bank (step + 1) = k.bank (step + 1) := by
  simp only [CoreState.raise, CoreState.bank, beq_iff_eq]
  by_cases h : step % 2 = 0
  · rw [if_pos h, if_neg (by omega), if_neg (by omega)]
  · rw [if_neg h, if_pos (by omega), if_pos (by omega)]

section
variable {s : State} {x : Issue}

theorem State.raise_cores_wf (f : Nat) (h : SMap.wf CoreState.init s.cores = true) :
    SMap.wf CoreState.init (s.raise x f).cores = true := by
  unfold State.raise
  split
  · exact h
  · exact State.onCore_cores_wf h

theorem State.core_raise (f : Nat) (h : SMap.wf CoreState.init s.cores = true) :
    (s.raise x f).core x.core = (s.core x.core).raise x.step f := by
  unfold State.raise
  split
  · rename_i hf
    rw [hf, CoreState.raise_zero]
  · exact State.core_onCore h

theorem State.core_raise_ne {d : Nat} (f : Nat) (h : SMap.wf CoreState.init s.cores = true) (hd : d ≠ x.core) :
    (s.raise x f).core d = s.core d := by
  unfold State.raise
  split
  · rfl
  · exact State.core_onCore_ne h hd

theorem State.raise_coreRecords (f : Nat) : s.coreRecords (s.raise x f) := by
  unfold State.raise; split <;> rfl

/-! ### Results put into lanes (R185) -/

/-- The lanes and flags that results leave on a core: lanes 0 to n - 1 of v, and the flags of the unstained ones in the bank of step. -/
def CoreState.putLanes (k : CoreState) (step v n : Nat) (r : Nat → LaneOut) : CoreState :=
  (k.setLanes v ((List.range n).map fun j => (j, (r j).code, (r j).stain))).raise step
    (((List.range n).filter fun j => !(r j).stain).foldl (fun f j => f ||| (r j).flags) 0)

/-- Results are numbered by their lanes. -/
theorem zipIdx_lanes (r : Nat → LaneOut) (n : Nat) :
    ((List.range n).map r).zipIdx.map (fun (o, j) => (j, o.code, o.stain)) = (List.range n).map fun j => (j, (r j).code, (r j).stain) :=
  List.ext_getElem (by simp) fun i _ _ => by simp

/-- A stained result raises no flag (R89). -/
theorem flags_unstained (r : Nat → LaneOut) (n : Nat) :
    ((List.range n).map r).foldl (fun f o => if o.stain then f else f ||| o.flags) 0 =
      ((List.range n).filter fun j => !(r j).stain).foldl (fun f j => f ||| (r j).flags) 0 := by
  rw [List.foldl_map, List.foldl_filter]
  congr
  funext f j
  cases (r j).stain <;> rfl

theorem State.putLanes_eq (v n : Nat) (r : Nat → LaneOut) : s.putLanes x v ((List.range n).map r) =
    (s.onCore x.core fun k => k.setLanes v ((List.range n).map fun j => (j, (r j).code, (r j).stain))).raise x
      (((List.range n).filter fun j => !(r j).stain).foldl (fun f j => f ||| (r j).flags) 0) := by
  rw [State.putLanes, zipIdx_lanes, flags_unstained]

theorem State.putLanes_coreRecords (v : Nat) (rs : List LaneOut) : s.coreRecords (s.putLanes x v rs) :=
  State.coreRecords.trans (State.onCore_coreRecords s _ _) (State.raise_coreRecords _)

theorem State.putLanes_cores_wf (v : Nat) (rs : List LaneOut) (h : SMap.wf CoreState.init s.cores = true) :
    SMap.wf CoreState.init (s.putLanes x v rs).cores = true := State.raise_cores_wf _ (State.onCore_cores_wf h)

theorem State.core_putLanes (v n : Nat) (r : Nat → LaneOut) (h : SMap.wf CoreState.init s.cores = true) :
    (s.putLanes x v ((List.range n).map r)).core x.core = (s.core x.core).putLanes x.step v n r := by
  rw [State.putLanes_eq, State.core_raise _ (State.onCore_cores_wf h), State.core_onCore h]
  rfl

theorem State.core_putLanes_ne {d : Nat} (v : Nat) (rs : List LaneOut) (h : SMap.wf CoreState.init s.cores = true) (hd : d ≠ x.core) :
    (s.putLanes x v rs).core d = s.core d :=
  (State.core_raise_ne _ (State.onCore_cores_wf h) hd).trans (State.core_onCore_ne h hd)

end

section
variable {k : CoreState} {step v n : Nat} {r : Nat → LaneOut}

/-- Results change vector registers and flags only. -/
theorem CoreState.putLanes_frame : k.putLanes step v n r =
    { k with vregs := (k.putLanes step v n r).vregs, parity := (k.putLanes step v n r).parity,
             flags0 := (k.putLanes step v n r).flags0, flags1 := (k.putLanes step v n r).flags1 } := by
  unfold CoreState.putLanes CoreState.raise
  split <;> rw [CoreState.setLanes_laned]

theorem CoreState.cell_putLanes {u i : Nat} (h : SMap.wf (0, true) k.vregs = true) (hn : n ≤ 128) (hi : i < 128) :
    (k.putLanes step v n r).cell u i = if u = v ∧ i < n then ((r i).code % 2 ^ 32, (r i).stain) else k.cell u i := by
  rw [CoreState.putLanes, CoreState.raise_flagged]
  exact CoreState.cell_setLanes_range (fun j => ((r j).code, (r j).stain)) h hn hi

theorem CoreState.bank_putLanes : (k.putLanes step v n r).bank step =
    k.bank step ||| ((List.range n).filter fun j => !(r j).stain).foldl (fun f j => f ||| (r j).flags) 0 := by
  rw [CoreState.putLanes, CoreState.bank_raise, CoreState.setLanes_laned]
  rfl

theorem CoreState.bank_putLanes_next : (k.putLanes step v n r).bank (step + 1) = k.bank (step + 1) := by
  rw [CoreState.putLanes, CoreState.bank_raise_next, CoreState.setLanes_laned]
  rfl

end

/-! ### VOP -/

/-- The result of a VOP word in lane j, from the lanes of its operands on a core. -/
def CoreState.vopOut (k : CoreState) (w j : Nat) : LaneOut :=
  let r := vopLane (fld w 57 6) (bit w 63) (k.lane (Word.slot w 1) j) (k.lane (Word.slot w 2) j) (k.lane (Word.slot w 3) j)
  ⟨r.1, k.laneStain (Word.slot w 1) j || (decide (1 < vopArity (fld w 57 6)) && k.laneStain (Word.slot w 2) j) ||
    (decide (2 < vopArity (fld w 57 6)) && k.laneStain (Word.slot w 3) j), r.2⟩

theorem applyVop_eq (x : Issue) (s : State) : applyVop x s =
    s.putLanes x (Word.slot x.word 0) ((List.range (s.core x.core).vl).map ((s.core x.core).vopOut x.word)) := rfl

/-- What the issue of an operation changes of its core leaves: any function of the core that reads none of the four fields. -/
theorem CoreState.issued.same {k k' : CoreState} (h : k.issued k') {β : Type} (f : CoreState → β)
    (hf : ∀ o i l w, f { k with ops := o, index := i, loops := l, waiting := w } = f k) : f k' = f k := by
  rw [h]; exact hf _ _ _ _

/-- What a VOP's row comes to: its core holds the results, and no other core, memory or tile buffer changes. -/
theorem exec_vop (c : BitVec 8) (w : IWord) (s : State) (hw : wordStatus .vop w.toNat = none) (hwf : SMap.wf CoreState.init s.cores = true)
    (hmesh : s.heldUp .vop (s.issueOf c.toNat ⟨.vop, w.toNat⟩) = false) (htakes : s.takes c.toNat ⟨.vop, w.toNat⟩ = true)
    (hunheld : s.unheld c.toNat ⟨.vop, w.toNat⟩ = true) (hwait : (s.core c.toNat).waiting = []) (hloops : (s.core c.toNat).loops = []) :
    ∃ t, exec (.vop c w) s = .next t ∧ t.mem = s.mem ∧ t.tiles = s.tiles ∧
      ((s.core c.toNat).putLanes (s.issueOf c.toNat ⟨.vop, w.toNat⟩).step (Word.slot w.toNat 0) (s.core c.toNat).vl
        ((s.core c.toNat).vopOut w.toNat)).issued (t.core c.toNat) ∧
      ∀ d, d ≠ c.toNat → t.core d = s.core d := by
  obtain ⟨x, hx⟩ : ∃ x, s.issueOf c.toNat ⟨.vop, w.toNat⟩ = x := ⟨_, rfl⟩
  have hxc : x.core = c.toNat := hx ▸ rfl
  have hxw : x.word = w.toNat := hx ▸ rfl
  obtain ⟨e, he⟩ : ∃ e, applyVop x s = e := ⟨_, rfl⟩
  have heq := (applyVop_eq x s).symm.trans he
  have hrec : s.coreRecords e := heq ▸ State.putLanes_coreRecords _ _
  have hcore : e.core c.toNat = (s.core c.toNat).putLanes x.step (Word.slot w.toNat 0) (s.core c.toNat).vl
      ((s.core c.toNat).vopOut w.toNat) := by
    rw [← heq, ← hxc, ← hxw]; exact State.core_putLanes _ _ _ hwf
  obtain ⟨t, hrow, hmem, htiles, hown, hother⟩ := exec_row_unit .vop c w s e hw (fun h => nomatch h) htakes hunheld rfl (by decide) hmesh
    rfl (hx ▸ he) (heq ▸ State.putLanes_cores_wf _ _ hwf)
    (by rw [hcore, CoreState.putLanes_frame]; exact hloops)
    (by rw [hcore, CoreState.putLanes_frame]; exact hwait)
  rw [hx, ← hcore]
  refine ⟨t, hrow, hmem.trans (hrec.same _ fun _ _ _ _ _ => rfl), htiles.trans (hrec.same _ fun _ _ _ _ _ => rfl), hown, fun d hd => ?_⟩
  rw [hother d hd, ← heq]
  exact State.core_putLanes_ne _ _ hwf (hxc ▸ hd)

/-- Settles O16: the row leaves the results on its core, whose lanes and flag banks the lemmas above read. -/
theorem vectorLanes : Obligations.VectorLanes := by
  intro c w s hw hwf hvec hvl hmesh htakes hunheld hwait hloops
  obtain ⟨t, hrow, hmem, htiles, hown, hother⟩ := exec_vop c w s hw hwf hmesh htakes hunheld hwait hloops
  have hbank (n : Nat) := hown.same (·.bank n) fun _ _ _ _ => rfl
  have hcell (v j : Nat) (hj : j < 128) : (t.core c.toNat).cell v j =
      if v = Word.slot w.toNat 0 ∧ j < (s.core c.toNat).vl
      then (((s.core c.toNat).vopOut w.toNat j).code % 2 ^ 32, ((s.core c.toNat).vopOut w.toNat j).stain)
      else (s.core c.toNat).cell v j :=
    (hown.same (·.cell v j) fun _ _ _ _ => rfl).trans (CoreState.cell_putLanes hvec hvl hj)
  have hactive (j : Nat) (hj : j < (s.core c.toNat).vl) : (t.core c.toNat).cell (Word.slot w.toNat 0) j =
      (((s.core c.toNat).vopOut w.toNat j).code % 2 ^ 32, ((s.core c.toNat).vopOut w.toNat j).stain) :=
    (hcell _ j (Nat.lt_of_lt_of_le hj hvl)).trans (if_pos ⟨rfl, hj⟩)
  refine ⟨t, hrow, fun j hj => Prod.ext_iff.1 (hactive j hj), fun v j hj hv => Prod.ext_iff.1 ((hcell v j hj).trans (if_neg (by omega))),
    ?_, (hbank _).trans CoreState.bank_putLanes_next, fun d hd => by rw [hother d hd]; exact ⟨rfl, rfl, rfl⟩, fun d => ?_, hmem, htiles⟩
  · have hfilter : ((List.range (s.core c.toNat).vl).filter fun j => !(t.core c.toNat).laneStain (Word.slot w.toNat 0) j) =
        (List.range (s.core c.toNat).vl).filter fun j => !((s.core c.toNat).vopOut w.toNat j).stain :=
      List.filter_congr fun j hj => congrArg (!·.2) (hactive j (List.mem_range.1 hj))
    rw [hfilter]
    exact (hbank _).trans CoreState.bank_putLanes
  · by_cases hd : d = c.toNat
    · rw [hd]
      exact (hown.same (·.sregs) fun _ _ _ _ => rfl).trans (by rw [CoreState.putLanes_frame])
    · rw [hother d hd]

end Sys2Proof.Machine
end

section
/-! PROOFS. The functions of SALU (R232). -/

namespace Sys2Proof.Machine

/-- The integer of a word's pattern is the word's own. -/
theorem signed_toNat (a : Word) : signed 64 a.toNat = a.toInt := by
  have ha := a.isLt
  simp only [signed, BitVec.toInt_eq_toNat_cond, Nat.mod_eq_of_lt ha]
  split <;> split <;> omega

/-- The pattern of an integer is that of the word that stands for it. -/
theorem unsigned_eq_toNat (i : Int) : unsigned 64 i = (BitVec.ofInt 64 i).toNat := by
  rw [BitVec.toNat_ofInt]; rfl

/-- Function 8 divides the signed value by a power of 2, as an arithmetic shift does. -/
theorem salu_arithmetic_shift (a b : Word) : salu 8 a.toNat b.toNat = (a.sshiftRight (b.toNat % 64)).toNat := by
  show unsigned 64 (signed 64 a.toNat / (2 ^ (b.toNat % 64) : Nat)) = _
  rw [signed_toNat, unsigned_eq_toNat, ← Int.shiftRight_eq_div_pow]
  rfl

/-- Function 1 subtracts after it has borrowed 2^64. The code is a variable here, since the kernel, asked to compare the two sides at the
literal 1, counts 2^64 down. -/
theorem salu_difference (f a b : Nat) (h : f = 1) : salu f a b = (a + 2 ^ 64 - b) % 2 ^ 64 := by
  unfold salu
  split
  case h_2 => rfl
  all_goals simp_all

/-- Settles O11: sum, product and left shift are taken modulo 2^64 by both, a difference borrows 2^64, and the bitwise functions and the right
shift stay below it. -/
theorem saluFunctions : Obligations.SaluFunctions := by
  intro a b
  have hdiff : salu 1 a.toNat b.toNat = (a - b).toNat := by
    rw [salu_difference 1 _ _ rfl, BitVec.toNat_sub, Nat.add_comm a.toNat, Nat.sub_add_comm (Nat.le_of_lt b.isLt)]
  exact ⟨(BitVec.toNat_add a b).symm, hdiff, (BitVec.toNat_mul a b).symm, (BitVec.toNat_and a b).symm, (BitVec.toNat_or a b).symm,
    (BitVec.toNat_xor a b).symm, (BitVec.toNat_shiftLeft ..).symm, (BitVec.toNat_ushiftRight ..).symm, salu_arithmetic_shift a b⟩

end Sys2Proof.Machine
end

section
/-! PROOFS. The instructions that the sequencer performs itself: how they retire, and TSIG, TWAIT, FRECV and LOOP (R218, R226, R231, R233). -/

namespace Sys2Proof.Machine

/-! ### What an instruction of the sequencer itself comes to -/

/-- An instruction that is no LOOP retires after its effect as one without effect does. -/
theorem State.retire_eq_retireUnrun (s : State) (c : Nat) (t : Waiting) (h : t.op ≠ .loop) : s.retire c t = s.retireUnrun c t := by
  have hadv (k : CoreState) : k.advance t = k.step t := by simp [CoreState.advance, h]
  simp only [State.retire, State.retireUnrun, hadv]

/-- Without a sig a retirement only moves the position on. -/
theorem State.retire_silent (s : State) (c : Nat) (t : Waiting) (h : Word.sig t.word = false) :
    s.retire c t = s.onCore c fun k => k.advance t := by
  simp [State.retire, State.sigHeld, State.signal, h]

/-- An instruction of the sequencer itself retires at once. -/
theorem State.perform_own (s : State) (c : Nat) (t : Waiting) (x : Issue) (h : t.op.unit = 0) :
    s.perform c t x = (applyIssue t.op x s).retire c t := by
  simp [State.perform, h]

section
variable {o : CoreOp} {c : BitVec 8} {w : IWord} {s e : State}

/-- An instruction of the sequencer itself that nothing holds and no check refuses: its effect, then its retirement. -/
theorem exec_row_retires (hw : wordStatus o w.toNat = none) (ht : s.takes c.toNat ⟨o, w.toNat⟩ = true)
    (hu : s.unheld c.toNat ⟨o, w.toNat⟩ = true) (hc : checkIssue o (s.issueOf c.toNat ⟨o, w.toNat⟩) s = none) (hunit : o.unit = 0)
    (he : applyIssue o (s.issueOf c.toNat ⟨o, w.toNat⟩) s = e) :
    exec (o.row c w) s = .next (State.drain drainFuel c.toNat (e.retire c.toNat ⟨o, w.toNat⟩)) := by
  have hm : o = .matvec → 30 ≤ c.toNat % 32 := fun h => by rw [h] at hunit; exact absurd hunit (by decide)
  rw [exec_row_performs o c w s hw hm ht hu hc, State.perform_own _ _ _ _ hunit, he]

/-- Outside every loop and with nothing waiting behind it, an instruction of the sequencer itself is the last that issues. -/
theorem exec_row_own (hw : wordStatus o w.toNat = none) (ht : s.takes c.toNat ⟨o, w.toNat⟩ = true)
    (hu : s.unheld c.toNat ⟨o, w.toNat⟩ = true) (hc : checkIssue o (s.issueOf c.toNat ⟨o, w.toNat⟩) s = none) (hunit : o.unit = 0)
    (he : applyIssue o (s.issueOf c.toNat ⟨o, w.toNat⟩) s = e) (hloop : o ≠ .loop) (hwf : SMap.wf CoreState.init e.cores = true)
    (hl : (e.core c.toNat).loops = []) (hq : (e.core c.toNat).waiting = []) :
    exec (o.row c w) s = .next (e.retireUnrun c.toNat ⟨o, w.toNat⟩) := by
  rw [exec_row_retires hw ht hu hc hunit he, State.retire_eq_retireUnrun e _ _ hloop, State.drain_retireUnrun _ hwf hl hq]

/-- Without a sig it moves the position on by one beside its effect. -/
theorem exec_row_silent (hw : wordStatus o w.toNat = none) (ht : s.takes c.toNat ⟨o, w.toNat⟩ = true)
    (hu : s.unheld c.toNat ⟨o, w.toNat⟩ = true) (hc : checkIssue o (s.issueOf c.toNat ⟨o, w.toNat⟩) s = none) (hunit : o.unit = 0)
    (he : applyIssue o (s.issueOf c.toNat ⟨o, w.toNat⟩) s = e) (hs : Word.sig w.toNat = false)
    (hwf : SMap.wf CoreState.init e.cores = true) (hq : ((e.core c.toNat).advance ⟨o, w.toNat⟩).waiting = []) :
    ∃ t, exec (o.row c w) s = .next t ∧ e.coreRecords t ∧ t.core c.toNat = (e.core c.toNat).advance ⟨o, w.toNat⟩ ∧
      ∀ d, (e.core d).issued (t.core d) := by
  have hcore := State.core_onCore (s := e) (c := c.toNat) (f := fun k => k.advance ⟨o, w.toNat⟩) hwf
  have hrow := exec_row_retires hw ht hu hc hunit he
  rw [State.retire_silent e _ ⟨o, w.toNat⟩ hs, State.drain_empty _ _ _ (by rw [hcore]; exact hq)] at hrow
  refine ⟨_, hrow, State.onCore_coreRecords e c.toNat _, hcore, fun d => ?_⟩
  by_cases hd : d = c.toNat
  · rw [hd, hcore]; exact CoreState.advance_issued _ _
  · rw [State.core_onCore_ne hwf hd]; rfl

end

/-- An instruction that the mesh, a token, SFLAG's wait and CEND do not concern is held by interlocks only. -/
theorem State.unheld_of_interlocked {s : State} {c : Nat} {t : Waiting} (ho : t.op ≠ .tsig ∧ t.op ≠ .sflag ∧ t.op ≠ .cend)
    (hp : (s.core c).waitParity t = false)
    (ht : t.op = .twait ∨ t.op = .frecv → waitCount t.word ≤ (s.core c).token (waitToken t.word))
    (hi : s.interlocked t.op (s.issueOf c t) = false) : s.unheld c t = true := by
  obtain ⟨h1, h2, h3⟩ := ho
  simpa [State.unheld, h1, h2, h3, hp, hi] using imp_iff_not_or.1 ht

/-! ### TSIG (R226, R231) -/

/-- Each core after an increment of a token. -/
theorem State.core_addToken (s : State) (c k n d : Nat) (h : SMap.wf CoreState.init s.cores = true) :
    (s.addToken c k n).core d = if d = c then (s.core c).setToken k (min 65535 ((s.core c).token k + n)) else s.core d := by
  rw [State.core_congr (State.addToken_records s c k n).cores]
  split
  · rename_i hd; rw [hd, State.core_onCore h]
  · rename_i hd; rw [State.core_onCore_ne h hd]

theorem State.addToken_tokened (s : State) (c k n d : Nat) (h : SMap.wf CoreState.init s.cores = true) :
    (s.core d).tokened ((s.addToken c k n).core d) := by
  rw [State.core_addToken s c k n d h]
  split
  · rename_i hd; rw [hd]; exact CoreState.setToken_tokened _ _ _
  · exact CoreState.tokened.refl _

theorem State.addToken_cores_wf (s : State) (c k n : Nat) (h : SMap.wf CoreState.init s.cores = true) :
    SMap.wf CoreState.init (s.addToken c k n).cores = true := by
  rw [(State.addToken_records s c k n).cores]; exact State.onCore_cores_wf h

/-- Settles O13: the increment is `addToken`'s, and the retirement moves only the position on. -/
theorem tsigAddsAndSaturates : Obligations.TsigAddsAndSaturates := by
  intro c w s hw hsig hwf htok htakes hunheld hwait hloops
  generalize hd₀ : fld w.toNat 63 8 = d₀
  generalize hk₀ : fld w.toNat 57 6 = k₀
  generalize hn : fld w.toNat 71 16 = n
  have he : applyIssue .tsig (s.issueOf c.toNat ⟨.tsig, w.toNat⟩) s = s.addToken d₀ k₀ n := by rw [← hd₀, ← hk₀, ← hn]; rfl
  obtain ⟨-, hl, -, hq, -⟩ := (s.addToken_tokened d₀ k₀ n c.toNat hwf).sequencer
  rw [hloops] at hl
  rw [hwait] at hq
  obtain ⟨t, hrow, hrec, -, hissued⟩ := exec_row_silent hw htakes hunheld rfl rfl he hsig (s.addToken_cores_wf d₀ k₀ n hwf)
    (by rw [CoreState.advance_outside _ ⟨.tsig, w.toNat⟩ (fun h => nomatch h) hl]; exact hq)
  have htoken (d k : Nat) : (t.core d).token k = ((s.addToken d₀ k₀ n).core d).token k :=
    (hissued d).same (fun x => x.token k) fun _ _ _ _ => rfl
  refine ⟨t, hrow, ?_, fun d k hdk => ?_, ?_, ?_⟩
  · rw [htoken, State.core_addToken s _ _ _ _ hwf, if_pos rfl, CoreState.token_setToken _ _ _ (htok _)]
  · rw [htoken, State.core_addToken s _ _ _ _ hwf]
    split
    · rename_i hd
      rw [CoreState.token_setToken_ne _ _ _ _ (htok _) (hdk.resolve_left (not_not_intro hd)), hd]
    · rfl
  · exact (hrec.same (·.mem) fun _ _ _ _ _ => rfl).trans (State.addToken_mem s _ _ _)
  · exact (hrec.same (·.tiles) fun _ _ _ _ _ => rfl).trans (State.addToken_tiles s _ _ _)

/-! ### TWAIT and FRECV (R226, R517) -/

section
variable {o : CoreOp} {c : BitVec 8} {w : IWord} {s : State}

/-- A wait whose token has reached its threshold subtracts it. -/
theorem exec_wait_met (ho : o = .twait ∨ o = .frecv) (hw : wordStatus o w.toNat = none) (hwf : SMap.wf CoreState.init s.cores = true)
    (htok : SMap.wf 0 (s.core c.toNat).tokens = true) (ht : s.takes c.toNat ⟨o, w.toNat⟩ = true)
    (hu : s.unheld c.toNat ⟨o, w.toNat⟩ = true) (hs : Word.sig w.toNat = false) (hq : (s.core c.toNat).waiting = [])
    (hl : (s.core c.toNat).loops = []) :
    ∃ t, exec (o.row c w) s = .next t ∧
      (t.core c.toNat).token (waitToken w.toNat) = (s.core c.toNat).token (waitToken w.toNat) - waitCount w.toNat ∧
      (t.core c.toNat).hold = (s.core c.toNat).hold ∧ t.mem = s.mem ∧ t.tiles = s.tiles := by
  obtain ⟨e, he⟩ : ∃ e, applyWait (s.issueOf c.toNat ⟨o, w.toNat⟩) s = e := ⟨_, rfl⟩
  have hcore : e.core c.toNat = (s.core c.toNat).setToken (waitToken w.toNat)
      ((s.core c.toNat).token (waitToken w.toNat) - waitCount w.toNat) := he ▸ State.core_onCore hwf
  have hrec : s.coreRecords e := he ▸ State.onCore_coreRecords _ _ _
  have hkeep := CoreState.setToken_tokened (s.core c.toNat) (waitToken w.toNat)
    ((s.core c.toNat).token (waitToken w.toNat) - waitCount w.toNat)
  rw [← hcore] at hkeep
  obtain ⟨-, hel, heh, heq, -⟩ := hkeep.sequencer
  have happly : applyIssue o (s.issueOf c.toNat ⟨o, w.toNat⟩) s = e := by rcases ho with rfl | rfl <;> exact he
  have hcheck : checkIssue o (s.issueOf c.toNat ⟨o, w.toNat⟩) s = none := by rcases ho with rfl | rfl <;> rfl
  have hunit : o.unit = 0 := by rcases ho with rfl | rfl <;> rfl
  have hloop : o ≠ .loop := by rcases ho with rfl | rfl <;> exact fun h => nomatch h
  obtain ⟨t, hrow, hrec', -, hissued⟩ := exec_row_silent hw ht hu hcheck hunit happly hs (he ▸ State.onCore_cores_wf hwf)
    (by rw [CoreState.advance_outside _ _ hloop (hel.trans hl)]; exact heq.trans hq)
  refine ⟨t, hrow, ?_, ?_, ?_, ?_⟩
  · rw [(hissued c.toNat).same (fun x => x.token (waitToken w.toNat)) fun _ _ _ _ => rfl, hcore, CoreState.token_setToken _ _ _ htok]
  · exact ((hissued c.toNat).same (·.hold) fun _ _ _ _ => rfl).trans heh
  · exact (hrec.trans hrec').same (·.mem) fun _ _ _ _ _ => rfl
  · exact (hrec.trans hrec').same (·.tiles) fun _ _ _ _ _ => rfl

/-- A hold puts the instruction first among those that wait. -/
theorem State.core_holdOn (s : State) (c : Nat) (t : Waiting) (h : Hold) (hw : SMap.wf CoreState.init s.cores = true) :
    (s.holdOn c t h).core c = { s.core c with hold := some h, waiting := t :: (s.core c).waiting, fetched := true } :=
  State.core_onCore hw

/-- A wait whose token is below its threshold holds the sequencer. -/
theorem State.issueFetched_waits {t : Waiting} {c : Nat} (ho : t.op = .twait ∨ t.op = .frecv) (ht : s.takes c t = true)
    (hp : (s.core c).waitParity t = false) (hn : (s.core c).token (waitToken t.word) < waitCount t.word) :
    s.issueFetched c t = s.holdOn c t (.token (waitToken t.word) (waitCount t.word)) := by
  obtain ⟨hstop, hret⟩ := State.takes_runs ht
  have htsig : (t.op == .tsig) = false := by rcases ho with ho | ho <;> rw [ho] <;> rfl
  have hwait : (t.op == .twait || t.op == .frecv) = true := by simpa using ho
  simp only [State.issueFetched, hstop, hret, hp, htsig, hwait, decide_eq_true hn, Bool.false_and, Bool.and_self, Bool.false_eq_true, if_false,
    if_true]

/-- So does its row. -/
theorem exec_wait_holds (ho : o = .twait ∨ o = .frecv) (hw : wordStatus o w.toNat = none) (hwf : SMap.wf CoreState.init s.cores = true)
    (ht : s.takes c.toNat ⟨o, w.toNat⟩ = true) (hp : (s.core c.toNat).waitParity ⟨o, w.toNat⟩ = false)
    (hn : (s.core c.toNat).token (waitToken w.toNat) < waitCount w.toNat) :
    exec (o.row c w) s = .next (s.holdOn c.toNat ⟨o, w.toNat⟩ (.token (waitToken w.toNat) (waitCount w.toNat))) := by
  have hm : o = .matvec → 30 ≤ c.toNat % 32 := fun h => by rcases ho with rfl | rfl <;> exact nomatch h
  rw [exec_row_submit o c w s hw hm, State.submit_takes ht, State.issueFetched_waits ho ht hp hn,
    State.drain_held _ _ _ (by rw [State.holdOn_held _ _ _ _ hwf]; exact fun h => nomatch h)]

/-- TOKEN_WAIT_MET of a token below its threshold, or without clock, changes nothing. -/
theorem exec_tokenWaitMet_below {k n : Nat} (hh : (s.core c.toNat).hold = some (.token k n))
    (h : (s.core c.toNat).token k < n ∨ s.clocked = false) : exec (.tokenWaitMet c) s = .next s := by
  have hcond : (s.clocked && decide (n ≤ (s.core c.toNat).token k)) = false := by
    rcases h with h | h <;> simp [h]
  show execTokenWaitMet c s = _
  simp [execTokenWaitMet, hh, hcond]

/-- TOKEN_WAIT_MET of a token that has reached its threshold lets issue resume. -/
theorem exec_tokenWaitMet_met {k n : Nat} (hh : (s.core c.toNat).hold = some (.token k n)) (hc : s.clocked = true)
    (h : n ≤ (s.core c.toNat).token k) : exec (.tokenWaitMet c) s = .next (s.resume c.toNat) := by
  show execTokenWaitMet c s = _
  simp [execTokenWaitMet, hh, hc, h]

end

/-- Settles O14: a wait that is met is unheld, one that is not holds its core, and the event asks the same of the token again. -/
theorem tokenWaits : Obligations.TokenWaits := by
  refine ⟨fun o c w s ho hw hwf htok ht hp hi => ⟨fun hn hs hq hl => ?_, fun hn => ?_⟩, fun c s k n hh =>
    ⟨exec_tokenWaitMet_below hh, exec_tokenWaitMet_met hh⟩⟩
  · have hu : s.unheld c.toNat ⟨o, w.toNat⟩ = true :=
      State.unheld_of_interlocked (by rcases ho with rfl | rfl <;> exact ⟨nofun, nofun, nofun⟩) hp (fun _ => hn) hi
    obtain ⟨⟨-, -, hhold, -⟩, -⟩ := State.takes_iff.1 ht
    have hmet := exec_wait_met ho hw hwf htok ht hu hs hq hl
    rwa [hhold] at hmet
  · have hcore := s.core_holdOn c.toNat ⟨o, w.toNat⟩ (.token (waitToken w.toNat) (waitCount w.toNat)) hwf
    exact ⟨_, exec_wait_holds ho hw hwf ht hp hn, by rw [hcore], by rw [hcore], by rw [hcore], rfl, rfl⟩

/-! ### LOOP (R233) -/

/-- A LOOP outside every loop opens one over the body behind it. -/
theorem CoreState.advance_loop (k : CoreState) (t : Waiting) (ht : t.op = .loop) (h : k.loops = []) :
    k.advance t = { k with loops := [⟨k.index + 1, k.index + fld t.word 73 13, fld t.word 57 16, []⟩], index := k.index + 1 } := by
  simp [CoreState.advance, loopFits, ht, h]

/-- Past the last instruction of a body with more than one iteration left, the body runs again. -/
theorem closeLoops_again (f : LoopFrame) (fs : List LoopFrame) (h : 1 < f.left) :
    closeLoops f.last (f :: fs) = ({ f with left := f.left - 1 } :: fs, f.body, f.first) := by
  simp [closeLoops, h]

/-- With the last iteration done, the loop closes. -/
theorem closeLoops_done (f : LoopFrame) (fs : List LoopFrame) (h : f.left ≤ 1) : closeLoops f.last (f :: fs) = closeLoops f.last fs := by
  simp [closeLoops, Nat.not_lt.2 h]

/-- Inside a body the next index follows. -/
theorem closeLoops_inside (f : LoopFrame) (fs : List LoopFrame) (i : Nat) (h : i ≠ f.last) :
    closeLoops i (f :: fs) = (f :: fs, [], i + 1) := by
  simp [closeLoops, h]

/-- Settles O15: LOOP's retirement opens the frame, and the position rule has the three cases of `closeLoops`. -/
theorem loopsRunTheirBody : Obligations.LoopsRunTheirBody := by
  refine ⟨fun c w s hw hsig hwf htakes hwait hloops hi => ?_, fun f fs =>
    ⟨closeLoops_again f fs, closeLoops_done f fs, closeLoops_inside f fs⟩⟩
  have hunheld : s.unheld c.toNat ⟨.loop, w.toNat⟩ = true :=
    State.unheld_of_interlocked ⟨nofun, nofun, nofun⟩ rfl (fun h => by rcases h with h | h <;> exact nomatch h) hi
  have hadv := CoreState.advance_loop (s.core c.toNat) ⟨.loop, w.toNat⟩ rfl hloops
  obtain ⟨t, hrow, hrec, hown, -⟩ := exec_row_silent (e := s) hw htakes hunheld rfl rfl rfl hsig hwf (by rw [hadv]; exact hwait)
  rw [hadv] at hown
  exact ⟨t, hrow, by rw [hown], by rw [hown], hrec.same (·.mem) fun _ _ _ _ _ => rfl, hrec.same (·.tiles) fun _ _ _ _ _ => rfl⟩

end Sys2Proof.Machine
end

section
/-! PROOFS. The instructions that write one scalar register (R224, R225, R228, R231, R232). -/

namespace Sys2Proof.Machine

/-! ### A scalar register written (R228, R492) -/

section
variable {k : CoreState} {r q : Nat}

theorem CoreState.sval_setS (v : Nat) (b : Bool) (h : SMap.wf (0, true) k.sregs = true) : (k.setS r v b).sval r = v % 2 ^ 64 := by
  have hget : SMap.get (0, true) (k.setS r v b).sregs r = (BitVec.ofNat 64 v, b) := SMap.get_set_eq _ _ _ _ h
  rw [CoreState.sval, hget]
  exact BitVec.toNat_ofNat v 64

theorem CoreState.contains_setS_parity (v : Nat) (b : Bool) (y : ParityCell) :
    (k.setS r v b).parity.contains y = (k.parity.contains y && decide (y ≠ .scalar r)) := CoreState.contains_mendParity k _ y

theorem CoreState.sstain_setS (v : Nat) (b : Bool) (h : SMap.wf (0, true) k.sregs = true) : (k.setS r v b).sstain r = b := by
  have hget : SMap.get (0, true) (k.setS r v b).sregs r = (BitVec.ofNat 64 v, b) := SMap.get_set_eq _ _ _ _ h
  simp only [CoreState.sstain, hget, CoreState.contains_setS_parity, ne_eq, not_true, decide_false, Bool.and_false, Bool.or_false]

/-- The other scalar registers read as before. -/
theorem CoreState.reads_setS_ne (v : Nat) (b : Bool) (h : SMap.wf (0, true) k.sregs = true) (hq : q ≠ r) :
    (k.setS r v b).sval q = k.sval q ∧ (k.setS r v b).sstain q = k.sstain q := by
  have hget : SMap.get (0, true) (k.setS r v b).sregs q = SMap.get (0, true) k.sregs q := SMap.get_set_ne _ _ _ _ _ h hq
  have hcell : ParityCell.scalar q ≠ .scalar r := fun he => hq (ParityCell.scalar.inj he)
  simp only [CoreState.sval, CoreState.sstain, hget, CoreState.contains_setS_parity, decide_eq_true hcell, Bool.and_true, and_self]

end

/-! ### Registers after a retirement -/

/-- A sig's token has no part in the scalar registers. -/
theorem CoreState.reads_signalled (k : CoreState) (w d r : Nat) :
    (k.signalled w d).sval r = k.sval r ∧ (k.signalled w d).sstain r = k.sstain r := by
  refine ⟨by rw [k.signalled_tokened w d]; rfl, ?_⟩
  unfold CoreState.signalled
  split
  · have hparity := CoreState.contains_mendParity k (.token (Word.sigToken w)) (.scalar r)
    rw [CoreState.sstain, CoreState.setToken, hparity, decide_eq_true (fun h => nomatch h), Bool.and_true]
    rfl
  · rfl

section
variable {s : State} {c : Nat} {t : Waiting}

/-- A retirement leaves what the scalar registers of every core read as. -/
theorem State.reads_retireUnrun (h : SMap.wf CoreState.init s.cores = true) (hl : (s.core c).loops = []) (d r : Nat) :
    ((s.retireUnrun c t).core d).sval r = (s.core d).sval r ∧ ((s.retireUnrun c t).core d).sstain r = (s.core d).sstain r := by
  rw [State.core_retireUnrun h hl d]
  split
  · split
    · rename_i hd; rw [hd]; exact ⟨rfl, rfl⟩
    · exact ⟨rfl, rfl⟩
  · split
    · rename_i hd; rw [hd]; exact (s.core c).reads_signalled t.word c r
    · exact (s.core d).reads_signalled t.word d r

/-- It changes each core at most in its sequencer and tokens. -/
theorem State.retireUnrun_frame (h : SMap.wf CoreState.init s.cores = true) (hl : (s.core c).loops = []) (d : Nat) :
    (s.core d).sequenced ((s.retireUnrun c t).core d) := by
  rw [State.core_retireUnrun h hl d]
  split
  · split
    · rename_i hd; rw [hd]; rfl
    · rfl
  · split
    · rename_i hd
      rw [hd]
      exact ((s.core c).signalled_tokened t.word c).sequenced.trans rfl
    · exact ((s.core d).signalled_tokened t.word d).sequenced

end

/-! ### SLI, SALU, SLD, SID and SFLAG -/

/-- The value and the stain that an instruction which writes a scalar register gives it; none for every other instruction. -/
def scalarOut (o : CoreOp) (x : Issue) (s : State) : Option (Nat × Bool) :=
  match o with
  | .sli => some (fld x.word 64 64, false)
  | .salu => some (salu (fld x.word 57 4) (x.reg s 1) (saluSecond x s).1, x.regStain s 1 || (saluSecond x s).2)
  | .sld => some (s.num (storeAddr x.core (sldOffset x s)) 8, s.stainedAt (storeAddr x.core (sldOffset x s)) 8)
  | .sid => some (sidValue x s, false)
  | .sflag => some ((s.core x.core).bank x.step, false)
  | _ => none

/-- t has the cores, the memory and the tile buffers of s. -/
structure State.sameStore (s t : State) : Prop where
  cores : t.cores = s.cores
  mem : t.mem = s.mem
  tiles : t.tiles = s.tiles

theorem State.sameStore.refl (s : State) : s.sameStore s := ⟨rfl, rfl, rfl⟩

theorem State.marks.sameStore {s t : State} (h : s.marks t) : s.sameStore t := by rw [h]; exact ⟨rfl, rfl, rfl⟩

/-- A read that is counted touches no core and no memory; so does a stain mark. -/
theorem State.counts.sameStore {s t : State} (h : s.counts t) : s.sameStore t := ⟨h.cores, h.mem, h.tiles⟩

section
variable {o : CoreOp} {x : Issue} {s : State} {r : Nat × Bool}

/-- Such an instruction is the sequencer's own, and no LOOP. -/
theorem scalarOut_own (h : scalarOut o x s = some r) : o.unit = 0 ∧ o ≠ .loop := by
  unfold scalarOut at h
  split at h
  case h_6 => exact nomatch h
  all_goals exact ⟨rfl, nofun⟩

/-- Its effect is the write of that register. -/
theorem applyIssue_scalarOut (h : scalarOut o x s = some r) :
    ∃ s', s.sameStore s' ∧ applyIssue o x s = s'.onCore x.core fun k => k.setS (Word.slot x.word 0) r.1 r.2 := by
  unfold scalarOut at h
  split at h
  case h_1 | h_2 | h_4 => exact ⟨s, State.sameStore.refl s, by rw [← Option.some.inj h]; rfl⟩
  case h_3 =>
    exact ⟨_, (s.noteRead_counts (storeAddr x.core (sldOffset x s)) 8).sameStore, by rw [← Option.some.inj h]; rfl⟩
  case h_5 =>
    rw [← Option.some.inj h]
    obtain ⟨s', hs', hsame⟩ : ∃ s', (if (s.core x.core).bankParity x.step then s.markStain x.step else s) = s' ∧ s.sameStore s' := by
      refine ⟨_, rfl, ?_⟩
      split
      · exact (s.markStain_frame x.step).sameStore
      · exact State.sameStore.refl s
    refine ⟨s', hsame, ?_⟩
    show State.onCore (if (s.core x.core).bankParity x.step then s.markStain x.step else s) x.core
      (fun k => k.setS (Word.slot x.word 0) (k.bank x.step) false) = _
    rw [hs', State.onCore, State.onCore, State.core_congr hsame.cores]
  case h_6 => exact nomatch h

end

/-- What the row of an instruction that writes a scalar register comes to. -/
theorem exec_row_scalar {o : CoreOp} {c : BitVec 8} {w : IWord} {s : State} {r : Nat × Bool} (hw : wordStatus o w.toNat = none)
    (hwf : SMap.wf CoreState.init s.cores = true) (ht : s.takes c.toNat ⟨o, w.toNat⟩ = true) (hu : s.unheld c.toNat ⟨o, w.toNat⟩ = true)
    (hq : (s.core c.toNat).waiting = []) (hl : (s.core c.toNat).loops = [])
    (hc : checkIssue o (s.issueOf c.toNat ⟨o, w.toNat⟩) s = none) (hr : scalarOut o (s.issueOf c.toNat ⟨o, w.toNat⟩) s = some r) :
    ∃ t, exec (o.row c w) s = .next t ∧ t.mem = s.mem ∧ t.tiles = s.tiles ∧
      (∀ q, (t.core c.toNat).sval q = ((s.core c.toNat).setS (Word.slot w.toNat 0) r.1 r.2).sval q ∧
        (t.core c.toNat).sstain q = ((s.core c.toNat).setS (Word.slot w.toNat 0) r.1 r.2).sstain q) ∧
      ((s.core c.toNat).setS (Word.slot w.toNat 0) r.1 r.2).sequenced (t.core c.toNat) ∧
      ∀ d, d ≠ c.toNat → (s.core d).sequenced (t.core d) := by
  obtain ⟨s', hsame, he⟩ := applyIssue_scalarOut hr
  obtain ⟨hunit, hloop⟩ := scalarOut_own hr
  have hwf' : SMap.wf CoreState.init s'.cores = true := by rw [hsame.cores]; exact hwf
  obtain ⟨e, hdef⟩ : ∃ e, s'.onCore c.toNat (fun k => k.setS (Word.slot w.toNat 0) r.1 r.2) = e := ⟨_, rfl⟩
  have hewf : SMap.wf CoreState.init e.cores = true := hdef ▸ State.onCore_cores_wf hwf'
  have hcore : e.core c.toNat = (s.core c.toNat).setS (Word.slot w.toNat 0) r.1 r.2 := by
    rw [← hdef, State.core_onCore hwf', State.core_congr hsame.cores]
  have hother (d : Nat) (hd : d ≠ c.toNat) : e.core d = s.core d := by
    rw [← hdef, State.core_onCore_ne hwf' hd, State.core_congr hsame.cores]
  have hel : (e.core c.toNat).loops = [] := by rw [hcore]; exact hl
  have hrow := exec_row_own hw ht hu hc hunit (he.trans hdef) hloop hewf hel (by rw [hcore]; exact hq)
  have hrec := State.retireUnrun_coreRecords (s := e) (c := c.toNat) (t := ⟨o, w.toNat⟩)
  refine ⟨_, hrow, ?_, ?_, fun q => ?_, ?_, fun d hd => ?_⟩
  · rw [hrec, ← hdef]; exact hsame.mem
  · rw [hrec, ← hdef]; exact hsame.tiles
  · rw [← hcore]; exact State.reads_retireUnrun hewf hel _ q
  · rw [← hcore]; exact State.retireUnrun_frame hewf hel _
  · rw [← hother d hd]; exact State.retireUnrun_frame hewf hel d

/-- Settles O10: each of the five gives its register what `scalarOut` says, and the retirement leaves every register. -/
theorem scalarInstructionsWriteTheirRegister : Obligations.ScalarInstructionsWriteTheirRegister := by
  intro o c w s v b hw hwf hsregs htakes hunheld hwait hloops hcheck hcase
  have hout : scalarOut o (s.issueOf c.toNat ⟨o, w.toNat⟩) s = some (v, b) := by
    rcases hcase with ⟨rfl, hv, hb⟩ | ⟨rfl, hv, hb⟩ | ⟨rfl, hv, hb⟩ | ⟨rfl, hv, hb⟩ | ⟨rfl, hv, hb⟩ <;> rw [hv, hb] <;> rfl
  obtain ⟨t, hrow, hmem, htiles, hreads, hown, hother⟩ := exec_row_scalar hw hwf htakes hunheld hwait hloops hcheck hout
  obtain ⟨-, hvregs, -, hkslots, -, -, -, -, -, hflags0, hflags1, hops, -⟩ := hown.frame
  refine ⟨t, hrow, (hreads _).1.trans (CoreState.sval_setS v b hsregs), (hreads _).2.trans (CoreState.sstain_setS v b hsregs),
    fun q hq => ?_, fun d hd => (hother d hd).frame.1, fun d => ?_, hmem, htiles⟩
  · obtain ⟨hval, hstain⟩ := CoreState.reads_setS_ne v b hsregs hq
    exact ⟨(hreads q).1.trans hval, (hreads q).2.trans hstain⟩
  · by_cases hd : d = c.toNat
    · rw [hd]; exact ⟨hvregs, hkslots, hflags0, hflags1, hops⟩
    · obtain ⟨-, h1, -, h2, -, -, -, -, -, h3, h4, h5, -⟩ := (hother d hd).frame
      exact ⟨h1, h2, h3, h4, h5⟩

end Sys2Proof.Machine
end

section
/-! PROOFS. One 64-bit word of device memory written (R489, R495), and SST (R231, R232). -/

namespace Sys2Proof.Machine

/-! ### A written word of memory -/

/-- Byte i of a number's little-endian bytes (R10). -/
theorem leBytes_getElem? (n x i : Nat) (h : i < n) : (leBytes n x)[i]? = some (BitVec.ofNat 8 (x >>> (8 * i))) := by
  induction n generalizing x i with
  | zero => omega
  | succ n ih =>
    cases i with
    | zero => simp [leBytes]
    | succ i =>
      have hshift : (x / 256) >>> (8 * i) = x >>> (8 * (i + 1)) := by
        rw [show 8 * (i + 1) = 8 + 8 * i by omega, Nat.shiftRight_add, Nat.shiftRight_eq_div_pow x 8]
      rw [leBytes, List.getElem?_cons_succ, ih (x / 256) i (by omega), hshift]

theorem leBytes_length (n x : Nat) : (leBytes n x).length = n := by
  induction n generalizing x with
  | zero => rfl
  | succ n ih => simp [leBytes, ih]

/-- A filter that drops an address leaves nothing listed for it. -/
theorem find?_filter_gone {β : Type} (l : List (Nat × β)) (q : Nat × β → Bool) (x : Nat) (hq : ∀ c : Nat × β, c.1 = x → q c = false) :
    (l.filter q).find? (fun c => c.1 == x) = none :=
  List.find?_eq_none.2 fun c hc hx => by
    obtain ⟨-, hkept⟩ := List.mem_filter.1 hc
    rw [hq c (beq_iff_eq.1 hx)] at hkept
    exact Bool.false_ne_true hkept

/-- A filter that keeps an address leaves what is listed for it. -/
theorem find?_filter_kept {β : Type} (l : List (Nat × β)) (q : Nat × β → Bool) (x : Nat) (hq : ∀ c : Nat × β, c.1 = x → q c = true) :
    (l.filter q).find? (fun c => c.1 == x) = l.find? fun c => c.1 == x := by
  rw [List.find?_filter]
  congr 1; funext c
  by_cases hc : c.1 = x
  · simp [hc, hq c hc]
  · simp [hc]

/-- The listed cells of written bytes: byte i, unless it equals what its address reads as unlisted. -/
theorem Memory.newCells_find (m : Memory) (a i : Nat) (bs : List Byte) (b : Byte) (h : bs[i]? = some b) :
    (m.newCells a bs).find? (fun c => c.1 == a + i) = if b = m.baseByte (a + i) then none else some (a + i, b) := by
  induction bs generalizing a i with
  | nil => exact nomatch h
  | cons b' bs ih =>
    cases i with
    | zero =>
      cases h
      have hrest : (m.newCells (a + 1) bs).find? (fun c => c.1 == a) = none :=
        List.find?_eq_none.2 fun c hc => by
          have := (m.newCells_spec (a + 1) bs).2 c hc
          simp; omega
      rw [Memory.newCells]
      split
      · rename_i hb; exact hrest.trans (if_pos hb).symm
      · rename_i hb; rw [List.find?_cons_of_pos (by simp)]; exact (if_neg hb).symm
    | succ i =>
      have hrest := ih (a + 1) i h
      rw [show a + 1 + i = a + (i + 1) by omega] at hrest
      rw [Memory.newCells]
      split
      · exact hrest
      · rw [List.find?_cons_of_neg (by simp), hrest]

/-- Written bytes read back. -/
theorem Memory.byte_setBytes_in (m : Memory) (a i : Nat) (bs : List Byte) (b : Byte) (h : bs[i]? = some b) :
    (m.setBytes a bs).byte (a + i) = b := by
  have hi : i < bs.length := (List.getElem?_eq_some_iff.1 h).1
  have hlow := find?_filter_gone m.cells (fun c => decide (c.1 < a)) (a + i) fun c hc => decide_eq_false (by omega)
  have hhigh := find?_filter_gone m.cells (fun c => decide (a + bs.length ≤ c.1)) (a + i) fun c hc => decide_eq_false (by omega)
  have hbase : (m.setBytes a bs).baseByte (a + i) = m.baseByte (a + i) := rfl
  have hfind : (m.setBytes a bs).cells.find? (fun c => c.1 == a + i) = if b = m.baseByte (a + i) then none else some (a + i, b) := by
    simp only [Memory.setBytes, List.find?_append, hlow, hhigh, m.newCells_find a i bs b h, Option.none_or, Option.or_none]
  rw [Memory.byte, hfind, hbase]
  split
  · rename_i hb
    split at hb
    · cases hb
    · cases hb; rfl
  · rename_i hb
    split at hb
    · rename_i heq; exact heq.symm
    · cases hb

theorem Memory.markAt_setBytes (m : Memory) (a x : Nat) (bs : List Byte) : (m.setBytes a bs).markAt x = m.markAt x := rfl

/-- A replaced mark reads back. -/
theorem Memory.markAt_setMark (m : Memory) (a : Nat) (k : Mark) : (m.setMark a k).markAt a = k := by
  have hlow := find?_filter_gone m.marks (fun c => decide (c.1 < a)) a fun c hc => decide_eq_false (by omega)
  have hhigh := find?_filter_gone m.marks (fun c => decide (a < c.1)) a fun c hc => decide_eq_false (by omega)
  have hbase : (m.setMark a k).baseMark a = m.baseMark a := rfl
  simp only [Memory.markAt, hbase]
  by_cases hk : k = m.baseMark a
  · simp [Memory.setMark, hlow, hhigh, ← hk]
  · simp [Memory.setMark, hlow, hk]

/-- The other marks are as they were. -/
theorem Memory.markAt_setMark_ne (m : Memory) (a x : Nat) (k : Mark) (h : x ≠ a) : (m.setMark a k).markAt x = m.markAt x := by
  have hnew : (if k = m.baseMark a then [] else [(a, k)]).find? (fun c => c.1 == x) = none := by
    split
    · rfl
    · simp [Ne.symm h]
  have hfind : (m.setMark a k).marks.find? (fun c => c.1 == x) = m.marks.find? fun c => c.1 == x := by
    rcases Nat.lt_or_gt_of_ne h with h | h
    · have hlow := find?_filter_kept m.marks (fun c => decide (c.1 < a)) x fun c hc => decide_eq_true (by omega)
      have hhigh := find?_filter_gone m.marks (fun c => decide (a < c.1)) x fun c hc => decide_eq_false (by omega)
      simp only [Memory.setMark, List.find?_append, hnew, hlow, hhigh, Option.or_none]
    · have hlow := find?_filter_gone m.marks (fun c => decide (c.1 < a)) x fun c hc => decide_eq_false (by omega)
      have hhigh := find?_filter_kept m.marks (fun c => decide (a < c.1)) x fun c hc => decide_eq_true (by omega)
      simp only [Memory.setMark, List.find?_append, hnew, hlow, hhigh, Option.none_or]
  have hbase : (m.setMark a k).baseMark x = m.baseMark x := rfl
  simp only [Memory.markAt, hfind, hbase]

/-- A word written whole outside accumulator memory: its bytes, and one mark for their stain (R495). -/
theorem Memory.write_word (m : Memory) (a : Nat) (xs : List Byte) (b : Bool) (ha : a % 8 = 0) (hx : xs.length = 8) :
    m.write 8 a (xs.map fun x => (x, b)) = (m.setBytes a xs).setMark a (if b then .carried else .clean) := by
  have hbytes : (xs.map fun x => (x, b)).map Prod.fst = xs := by simp [Function.comp_def]
  have hone : granules 8 a 8 = [a] := by
    have hlast : (a + 8 - 1) / 8 - a / 8 = 0 := by omega
    have hfirst : a / 8 * 8 = a := by omega
    simp only [granules, hlast, hfirst, List.range_one, List.map_cons, List.map_nil, Nat.add_zero, Nat.zero_add, if_neg (by decide : ¬ 8 = 0)]
  have hmark : m.writtenMark 8 a a (xs.map fun x => (x, b)) = if b then .carried else .clean := by
    have hcell (i : Nat) (hi : i < 8) : (xs.map fun x => (x, b))[a + i - a]? = some (xs[i], b) := by simp [hx, hi]
    have hwhole : (decide (a ≤ a) && decide (a + 8 ≤ a + (xs.map fun x => (x, b)).length)) = true := by simp [hx]
    have hany (f : Nat → Bool) (hf : ∀ i, i < 8 → f i = b) : (List.range 8).any f = b := by
      cases b with
      | false => exact List.any_eq_false.2 fun i hi => by simp [hf i (List.mem_range.1 hi)]
      | true => exact List.any_eq_true.2 ⟨0, by simp, hf 0 (by decide)⟩
    rw [Memory.writtenMark, hwhole, hany _ fun i hi => by rw [hcell i hi, decide_eq_true (Nat.le_add_right a i), Bool.true_and]]
    simp
  simp [Memory.write, hbytes, hone, hx, hmark]

/-- A byte of a word written whole outside accumulator memory reads as written, with the word's stain. -/
theorem Memory.readAt_write_word_in (m : Memory) (a i : Nat) (xs : List Byte) (b : Bool) (x : Byte) (ha : a % 8 = 0) (hx : xs.length = 8)
    (hg : granuleAt (a + i) = 8) (h : xs[i]? = some x) : (m.write 8 a (xs.map fun x => (x, b))).readAt (a + i) = (x, b) := by
  have hi : i < 8 := hx ▸ (List.getElem?_eq_some_iff.1 h).1
  have hstart : a + i - (a + i) % 8 = a := by omega
  have hbyte := m.byte_setBytes_in a i xs x h
  rw [Memory.write_word m a xs b ha hx]
  simp only [Memory.readAt, Memory.byte_setMark, hbyte, hg, hstart, Memory.seen, Memory.markAt_setMark]
  cases b <;> rfl

/-- Every byte outside it reads as before. -/
theorem Memory.readAt_write_word_out (m : Memory) (a c : Nat) (xs : List Byte) (b : Bool) (ha : a % 8 = 0) (hx : xs.length = 8)
    (h : c < a ∨ a + 8 ≤ c) : (m.write 8 a (xs.map fun x => (x, b))).readAt c = m.readAt c := by
  have hside (y : Nat) (h1 : y < a ↔ c < a) (h2 : y < a + 8 ↔ c < a + 8) : y ≠ a := by omega
  have ha' : (a + 8) % 8 = 0 := by omega
  have hmark (y : Nat) (hy : y ≠ a) (k : Mark) : ((m.setBytes a xs).setMark a k).markAt y = m.markAt y :=
    Memory.markAt_setMark_ne _ _ _ _ hy
  have hgranule := hside _ (granuleStart_lt_iff c a ha) (granuleStart_lt_iff c (a + 8) ha')
  have hother := hside (otherLane (c - c % granuleAt c)) ((otherLane_lt_iff _ a ha).trans (granuleStart_lt_iff c a ha))
    ((otherLane_lt_iff _ _ ha').trans (granuleStart_lt_iff c _ ha'))
  rw [Memory.write_word m a xs b ha hx]
  simp only [Memory.readAt, Memory.byte_setMark, Memory.byte_setBytes_out m a c xs (by rw [hx]; exact h), Memory.seen, hmark _ hgranule,
    hmark _ hother]

/-! ### SST -/

/-- Below accumulator memory the unit of stain is a 64-bit word (R489). -/
theorem granuleAt_of_lt {a : Nat} (h : a < accBase) : granuleAt a = 8 := by
  simp [granuleAt, Nat.not_le.2 h]

/-- The word at an aligned offset of a core store lies between the staging SRAMs and accumulator memory (R40). -/
theorem storeAddr_word {c o : Nat} (hc : c < 256) (ho : o ≤ 0x7FFFF8) (ha : o % 8 = 0) :
    stagingBase ≤ storeAddr c o ∧ storeAddr c o % 8 = 0 ∧ storeAddr c o + 8 ≤ accBase := by
  unfold storeAddr stagingBase storeBase accBase; omega

/-- SST's write of memory. -/
theorem State.saveNum_word_mem (s : State) (a v : Nat) (b : Bool) (ha : stackView ≤ a) (hg : granuleAt a = 8) :
    (s.saveNum a 8 v b).mem = s.mem.write 8 a ((leBytes 8 v).map fun x => (x, b)) := by
  simp only [State.saveNum, State.save, if_neg (Nat.not_lt.2 ha), List.foldl_cons, List.foldl_nil, hg]

/-- No check holds where none gives its value. -/
theorem firstOf_none {α : Type} (l : List (Bool × α)) (h : firstOf l = none) : ∀ p ∈ l, p.1 = false := by
  induction l with
  | nil => exact fun _ hp => absurd hp List.not_mem_nil
  | cons p l ih =>
    obtain ⟨b, x⟩ := p
    cases b with
    | true => exact nomatch h
    | false => exact List.forall_mem_cons.2 ⟨rfl, ih h⟩

/-- What the checks of SLD and SST leave of an offset: a multiple of 8 within the store (R222, R232). -/
theorem checkSld_none {x : Issue} {s : State} (h : checkSld x s = none) : sldOffset x s ≤ 0x7FFFF8 ∧ sldOffset x s % 8 = 0 := by
  have hall := firstOf_none _ h
  simp only [List.forall_mem_cons, decide_eq_false_iff_not, bne_eq_false_iff_eq] at hall
  obtain ⟨-, hoff, haligned, -⟩ := hall
  exact ⟨Nat.not_lt.1 hoff, haligned⟩

/-- What SST's row comes to: the word saved, and no register of any core written. -/
theorem exec_sst {c : BitVec 8} {w : IWord} {s : State} {a : Nat} (hw : wordStatus .sst w.toNat = none)
    (hwf : SMap.wf CoreState.init s.cores = true) (ht : s.takes c.toNat ⟨.sst, w.toNat⟩ = true)
    (hu : s.unheld c.toNat ⟨.sst, w.toNat⟩ = true) (hq : (s.core c.toNat).waiting = []) (hl : (s.core c.toNat).loops = [])
    (hc : checkIssue .sst (s.issueOf c.toNat ⟨.sst, w.toNat⟩) s = none)
    (ha : storeAddr c.toNat (sldOffset (s.issueOf c.toNat ⟨.sst, w.toNat⟩) s) = a) :
    ∃ t, exec (.sst c w) s = .next t ∧
      t.mem = (s.saveNum a 8 ((s.core c.toNat).sval (Word.slot w.toNat 0)) ((s.core c.toNat).sstain (Word.slot w.toNat 0))).mem ∧
      t.tiles = s.tiles ∧ ∀ d, (s.core d).sequenced (t.core d) := by
  obtain ⟨e, he⟩ : ∃ e, s.saveNum a 8 ((s.core c.toNat).sval (Word.slot w.toNat 0)) ((s.core c.toNat).sstain (Word.slot w.toNat 0)) = e :=
    ⟨_, rfl⟩
  have happly : applyIssue .sst (s.issueOf c.toNat ⟨.sst, w.toNat⟩) s = e := by rw [← he, ← ha]; rfl
  have hstores : s.stores e := he ▸ State.save_stores _ _ _
  have hcore := State.core_congr hstores.cores
  have hewf : SMap.wf CoreState.init e.cores = true := by rw [hstores.cores]; exact hwf
  have hel : (e.core c.toNat).loops = [] := by rw [hcore]; exact hl
  have hrow := exec_row_own hw ht hu hc rfl happly nofun hewf hel (by rw [hcore]; exact hq)
  have hrec := State.retireUnrun_coreRecords (s := e) (c := c.toNat) (t := ⟨.sst, w.toNat⟩)
  refine ⟨_, hrow, by rw [he, hrec], by rw [hrec]; exact hstores.tiles, fun d => ?_⟩
  rw [← hcore]
  exact State.retireUnrun_frame hewf hel d

/-- Settles O12: SST's effect writes one whole word of the core store. -/
theorem storeWritesEightBytes : Obligations.StoreWritesEightBytes := by
  intro c w s hw _ hwf htakes hunheld hwait hloops hcheck
  obtain ⟨hoff, haligned⟩ := checkSld_none hcheck
  obtain ⟨hbase, ha, hend⟩ := storeAddr_word c.isLt hoff haligned
  obtain ⟨t, hrow, hmem, htiles, hcores⟩ := exec_sst hw hwf htakes hunheld hwait hloops hcheck rfl
  generalize storeAddr c.toNat (sldOffset (s.issueOf c.toNat ⟨.sst, w.toNat⟩) s) = a at *
  have hview : stackView ≤ a := Nat.le_trans (by decide) hbase
  rw [State.saveNum_word_mem s a _ _ hview (granuleAt_of_lt (by omega))] at hmem
  refine ⟨t, hrow, fun i hi => ?_, fun x hx => ?_, htiles, fun d => ⟨(hcores d).frame.1, (hcores d).frame.2.1⟩⟩
  · rw [State.loadByte_eq, canon_of_stackView_le _ (Nat.le_trans hview (Nat.le_add_right a i)), hmem]
    exact Memory.readAt_write_word_in _ _ _ _ _ _ ha (leBytes_length _ _) (granuleAt_of_lt (by omega)) (leBytes_getElem? _ _ _ hi)
  · rw [State.loadByte_eq, hmem]
    exact Memory.readAt_write_word_out _ _ _ _ _ ha (leBytes_length _ _) (canon_outside x a (a + 8) hbase hx)

end Sys2Proof.Machine
end

section
/-! PROOFS. A refusal at issue: what it records, marks and leaves (R221, R222). -/

namespace Sys2Proof.Machine

/-! ### The record of the first refusal (R221) -/

section
variable {s : State}

/-- Host writes, records and events leave the record of the first refusal. -/
@[simp] theorem State.hostWrite_refusal (a : Nat) (bs : List Byte) : (s.hostWrite a bs).err.refusal = s.err.refusal := by
  unfold State.hostWrite; split <;> rfl

@[simp] theorem State.interrupt_refusal (i : Nat) : (s.interrupt i).err.refusal = s.err.refusal := by
  unfold State.interrupt
  dsimp only
  split
  · rfl
  · exact State.hostWrite_refusal _ _

@[simp] theorem State.putRecord_refusal (i body : Nat) : (s.putRecord i body).err.refusal = s.err.refusal := by
  unfold State.putRecord
  split
  · rfl
  · exact (State.interrupt_refusal i).trans (State.hostWrite_refusal _ _)

@[simp] theorem State.putEvent_refusal (body : Nat) : (s.putEvent body).err.refusal = s.err.refusal := by
  unfold State.putEvent
  split
  · rfl
  · exact State.putRecord_refusal _ _

@[simp] theorem State.reportLost_refusal : s.reportLost.err.refusal = s.err.refusal := by
  unfold State.reportLost
  split <;> rfl

@[simp] theorem State.event_refusal (code cls src step detail : Nat) : (s.event code cls src step detail).err.refusal = s.err.refusal := by
  unfold State.event
  dsimp only
  split
  · split <;> rfl
  · exact (State.putEvent_refusal _).trans State.reportLost_refusal

/-- So do the counts of reads. -/
@[simp] theorem State.countRead_refusal (die k cls src addr : Nat) (m : Mark) :
    (s.countRead die k cls src addr m).err.refusal = s.err.refusal := by
  unfold State.countRead
  split
  · rfl
  cases m with
  | correctable =>
    dsimp only
    split
    · exact State.event_refusal _ _ _ _ _
    · rfl
  | clean => rfl
  | carried => rfl
  | uncorrectable => rfl
  | sweep => rfl

@[simp] theorem State.noteCodeword_refusal (w : Nat) (m : Mark) : (s.noteCodeword w m).err.refusal = s.err.refusal := by
  unfold State.noteCodeword
  split
  · rfl
  · rfl
  · exact State.countRead_refusal _ _ _ _ _ _

@[simp] theorem State.retireEntry_refusal (e : MergeEntry) : (s.retireEntry e).err.refusal = s.err.refusal :=
  State.noteCodeword_refusal (s := { s with merge := s.merge.erase e }) _ _

/-- What each step of a fold leaves, the fold leaves. -/
theorem State.refusal_foldl {β : Type} (f : State → β → State) (hf : ∀ (s : State) (x : β), (f s x).err.refusal = s.err.refusal)
    (l : List β) (s : State) : (l.foldl f s).err.refusal = s.err.refusal := by
  induction l generalizing s with
  | nil => rfl
  | cons x l ih => exact (ih (f s x)).trans (hf s x)

@[simp] theorem State.noteRead_refusal (a n : Nat) : (s.noteRead a n).err.refusal = s.err.refusal :=
  (State.refusal_foldl _ (fun _ _ => State.noteCodeword_refusal _ _) _ _).trans
    (State.refusal_foldl _ (fun _ _ => State.retireEntry_refusal _) _ s)

@[simp] theorem State.noteReads_refusal (l : List (Nat × Nat)) : (s.noteReads l).err.refusal = s.err.refusal :=
  State.refusal_foldl _ (fun _ _ => State.noteRead_refusal _ _) l s

/-- And so does a sig, with the event of a token that saturates. -/
@[simp] theorem State.signal_refusal (w : Nat) : (s.signal w).err.refusal = s.err.refusal := by
  unfold State.signal State.addToken
  dsimp only
  split
  · split
    · exact State.event_refusal _ _ _ _ _
    · rfl
  · rfl

@[simp] theorem State.retireUnrun_refusal (c : Nat) (t : Waiting) : (s.retireUnrun c t).err.refusal = s.err.refusal := by
  unfold State.retireUnrun
  split
  · rfl
  · exact State.signal_refusal _

end

/-! ### A refusal at issue -/

/-- t differs from s at most in the free choices, the merge buffers, records, and the marks of contributions. -/
def State.refusedFrom (s t : State) : Prop :=
  t = { s with free := t.free, merge := t.merge, link := t.link, rings := t.rings, err := t.err, heldEvents := t.heldEvents,
               steps := t.steps, store := t.store }

theorem State.refusedFrom.trans {s t u : State} (h1 : s.refusedFrom t) (h2 : t.refusedFrom u) : s.refusedFrom u :=
  Eq.trans h2 (congrArg (fun x : State =>
    { x with free := u.free, merge := u.merge, link := u.link, rings := u.rings, err := u.err, heldEvents := u.heldEvents,
             steps := u.steps, store := u.store }) h1)

theorem State.counts.refusedFrom {s t : State} (h : s.counts t) : s.refusedFrom t := by unfold State.refusedFrom; rw [h]

theorem State.marks.refusedFrom {s t : State} (h : s.marks t) : s.refusedFrom t := by unfold State.refusedFrom; rw [h]

theorem State.noteReads_counts (s : State) (l : List (Nat × Nat)) : s.counts (s.noteReads l) :=
  State.counts_foldl _ (fun s _ => s.noteRead_counts _ _) l s

/-- A refusal writes its event, the record of the first refusal and the stain mark of its step. -/
theorem State.refuseIssue_frame (s : State) (x : Issue) (r : IssueRefusal) : s.refusedFrom (s.refuseIssue x r) := by
  refine State.refusedFrom.trans ?_ (State.markStain_frame _ x.step).refusedFrom
  split
  · exact (State.event_records s _ _ _ _ _).counts.refusedFrom
  · exact State.refusedFrom.trans (State.event_records s _ _ _ _ _).counts.refusedFrom rfl

/-- The contribution of the refused instruction's step is marked (R385). -/
theorem State.refuseIssue_marks (s : State) (x : Issue) (r : IssueRefusal) : (s.refuseIssue x r).stainMarked := State.markStain_marks _ _

/-- An earlier record of a first refusal stays. -/
theorem State.refuseIssue_refusal (s : State) (x : Issue) (r : IssueRefusal) (h : bit s.err.refusal 30 = true) :
    (s.refuseIssue x r).err.refusal = s.err.refusal := by
  have hmark (s : State) (n : Nat) : (s.markStain n).err.refusal = s.err.refusal := by rw [s.markStain_frame n]
  simp only [State.refuseIssue, hmark, State.event_refusal, h, if_true]

/-- The state in which an instruction refused by a check retires: its reads counted, the refusal recorded, a KVREAD's choices used up. -/
def State.recordRefusal (s : State) (c : Nat) (t : Waiting) (r : IssueRefusal) : State :=
  let x := s.issueOf c t
  let s := (s.noteReads (issueReads t.op x s)).refuseIssue x r
  { s with free := s.free + (if t.op == .kvread then 3 else 0) }

section
variable {s : State} {c : Nat} {t : Waiting} {r : IssueRefusal}

theorem State.recordRefusal_frame : s.refusedFrom (s.recordRefusal c t r) :=
  ((s.noteReads_counts _).refusedFrom.trans (State.refuseIssue_frame _ _ r)).trans rfl

theorem State.recordRefusal_marks : (s.recordRefusal c t r).stainMarked := State.refuseIssue_marks (s.noteReads _) _ r

theorem State.recordRefusal_refusal (h : bit s.err.refusal 30 = true) : (s.recordRefusal c t r).err.refusal = s.err.refusal := by
  have hreads : (s.noteReads (issueReads t.op (s.issueOf c t) s)).err.refusal = s.err.refusal := State.noteReads_refusal _
  exact (State.refuseIssue_refusal _ _ r (by rw [hreads]; exact h)).trans hreads

/-- An instruction that nothing holds and a check refuses: the refusal recorded, then a retirement without effect. -/
theorem State.issueFetched_refuses (ht : s.takes c t = true)
    (hu : s.unheld c t = true) (hc : checkIssue t.op (s.issueOf c t) s = some r) :
    s.issueFetched c t = (s.recordRefusal c t r).retireUnrun c t := by
  obtain ⟨hstop, hret⟩ := State.takes_runs ht
  simp only [State.unheld, Bool.and_eq_true, Bool.not_eq_true', bne_iff_ne, ne_eq] at hu
  obtain ⟨⟨⟨⟨⟨hpath, hparity⟩, htoken⟩, hlock⟩, hflag⟩, hend⟩ := hu
  have hend : (t.op == .cend) = false := by simpa using hend
  simp only [State.issueFetched, hstop, hret, hpath, hparity, htoken, hlock, hflag, hend, hc, State.refused, State.recordRefusal,
    Bool.false_eq_true, if_false]

end

/-- So does its row, where nothing waits behind it. -/
theorem exec_row_refuses {o : CoreOp} {c : BitVec 8} {w : IWord} {s : State} {r : IssueRefusal} (hw : wordStatus o w.toNat = none)
    (hm : o = .matvec → 30 ≤ c.toNat % 32) (hwf : SMap.wf CoreState.init s.cores = true) (ht : s.takes c.toNat ⟨o, w.toNat⟩ = true)
    (hu : s.unheld c.toNat ⟨o, w.toNat⟩ = true) (hq : (s.core c.toNat).waiting = []) (hl : (s.core c.toNat).loops = [])
    (hc : checkIssue o (s.issueOf c.toNat ⟨o, w.toNat⟩) s = some r) :
    exec (o.row c w) s = .next ((s.recordRefusal c.toNat ⟨o, w.toNat⟩ r).retireUnrun c.toNat ⟨o, w.toNat⟩) := by
  have hcores : (s.recordRefusal c.toNat ⟨o, w.toNat⟩ r).cores = s.cores := by rw [State.recordRefusal_frame]
  have hcore := State.core_congr hcores c.toNat
  rw [exec_row_submit o c w s hw hm, State.submit_takes ht, State.issueFetched_refuses ht hu hc,
    State.drain_retireUnrun _ (by rw [hcores]; exact hwf) (by rw [hcore]; exact hl) (by rw [hcore]; exact hq)]

/-- Settles O8: the refusal is recorded and its step marked, and the retirement without effect changes sequencers, tokens and records. -/
theorem refusedInstructionWritesNothing : Obligations.RefusedInstructionWritesNothing := by
  intro o c w s r hw hm hwf htakes hunheld hwait hloops hcheck
  have hrow := exec_row_refuses hw hm hwf htakes hunheld hwait hloops hcheck
  have hframe : s.refusedFrom (s.recordRefusal c.toNat ⟨o, w.toNat⟩ r) := State.recordRefusal_frame
  have hmarks : (s.recordRefusal c.toNat ⟨o, w.toNat⟩ r).stainMarked := State.recordRefusal_marks
  have hrefusal : bit s.err.refusal 30 = true → (s.recordRefusal c.toNat ⟨o, w.toNat⟩ r).err.refusal = s.err.refusal :=
    State.recordRefusal_refusal
  generalize s.recordRefusal c.toNat ⟨o, w.toNat⟩ r = e at *
  have hcores : e.cores = s.cores := by rw [hframe]
  have hrec := State.retireUnrun_coreRecords (s := e) (c := c.toNat) (t := ⟨o, w.toNat⟩)
  refine ⟨_, hrow, ?_, ?_, ?_, fun d => ?_, fun h => (State.retireUnrun_refusal _ _).trans (hrefusal h), ?_⟩
  · rw [hrec, hframe]
  · rw [hrec, hframe]
  · rw [hrec, hframe]
  · have hseq := State.retireUnrun_frame (s := e) (c := c.toNat) (t := ⟨o, w.toNat⟩) (by rw [hcores]; exact hwf)
      (by rw [State.core_congr hcores]; exact hloops) d
    rw [State.core_congr hcores] at hseq
    obtain ⟨hsregs, hvregs, hvl, hkslots, hactive, hloading, hbatch, hrow', hlook, hflags0, hflags1, -⟩ := hseq.frame
    exact ⟨hsregs, hvregs, hkslots, hvl, hactive, hloading, hbatch, hrow', hlook, hflags0, hflags1⟩
  · exact (hrec.same State.stainMarked fun _ _ _ _ _ => rfl).mpr hmarks

end Sys2Proof.Machine
end

section
/-! PROOFS. A descriptor that its checks refuse, and a PLAN_LOAD whose image fails a check (R309, R447, R458, R459, R469, R475). -/

namespace Sys2Proof.Machine

/-! ### What the adapter answers (R447) -/

section
variable {s : State}

/-- Host writes, records and events leave the host ranges whose reads complete with an error. -/
@[simp] theorem State.hostWrite_errors (a : Nat) (bs : List Byte) : (s.hostWrite a bs).link.errors = s.link.errors := by
  unfold State.hostWrite; split <;> rfl

@[simp] theorem State.interrupt_errors (i : Nat) : (s.interrupt i).link.errors = s.link.errors := by
  unfold State.interrupt
  dsimp only
  split
  · rfl
  · exact State.hostWrite_errors _ _

@[simp] theorem State.putRecord_errors (i body : Nat) : (s.putRecord i body).link.errors = s.link.errors := by
  unfold State.putRecord
  split
  · rfl
  · exact (State.interrupt_errors i).trans (State.hostWrite_errors _ _)

@[simp] theorem State.putEvent_errors (body : Nat) : (s.putEvent body).link.errors = s.link.errors := by
  unfold State.putEvent
  split
  · rfl
  · exact State.putRecord_errors _ _

@[simp] theorem State.reportLost_errors : s.reportLost.link.errors = s.link.errors := by
  unfold State.reportLost
  split
  · rfl
  · exact State.putRecord_errors _ _

@[simp] theorem State.event_errors (code cls src step detail : Nat) : (s.event code cls src step detail).link.errors = s.link.errors := by
  unfold State.event
  dsimp only
  split
  · split <;> rfl
  · exact (State.putEvent_errors _).trans State.reportLost_errors

/-- The event of a failed host read does not change which host reads fail. -/
theorem State.linkError_hostError (cls src step b a n : Nat) : (s.linkError cls src step b).hostError a n = s.hostError a n := by
  have hup : (s.linkError cls src step b).linkUp = s.linkUp := (s.linkError_records cls src step b).same State.linkUp fun _ _ _ _ => rfl
  have herr : (s.linkError cls src step b).link.errors = s.link.errors := State.event_errors _ _ _ _ _
  simp only [State.hostError, hup, herr]

end

/-! ### What the reads of a descriptor's checks leave (R309, R447) -/

/-- Beside the ring header of a RING_ADVANCE they leave records only. -/
theorem State.noteImage_records {s : State} {x : DescRef} (h : x.kind ≠ 0x07) : s.records (s.noteImage x) := by
  unfold State.noteImage
  rw [if_neg h]
  split
  · exact State.linkError_records _ _ _ _ _
  · rfl

/-- The read of a RING_ADVANCE's header retires merge entries and counts. -/
theorem State.noteImage_counts (s : State) (x : DescRef) : s.counts (s.noteImage x) := by
  by_cases h : x.kind = 0x07
  · unfold State.noteImage
    rw [if_pos h]
    split
    · exact State.noteRead_counts _ _ _
    · rfl
  · exact (State.noteImage_records h).counts

/-- The checks of a PLAN_LOAD before its image read nothing. -/
theorem State.noteImage_planLoad {s : State} {x : DescRef} (h : x.kind = 0x01) : s.noteImage x = s := by
  simp [State.noteImage, DescRef.imageBytes, h]

/-! ### Completions (R456, R470) -/

theorem State.logs.records {s t : State} (h : s.logs t) : s.records t := by unfold State.records; rw [h]

/-- The lists of descriptors are none of the records. -/
theorem State.records.withoutDesc {s t : State} (h : s.records t) (x : DescRef) : (s.withoutDesc x).records (t.withoutDesc x) := by
  unfold State.records; exact (congrArg (fun y : State => y.withoutDesc x) h :)

theorem State.counts.withoutDesc {s t : State} (h : s.counts t) (x : DescRef) : (s.withoutDesc x).counts (t.withoutDesc x) := by
  unfold State.counts; exact (congrArg (fun y : State => y.withoutDesc x) h :)

/-- A completion after reads that left records leaves records. -/
theorem State.records.completeWith {s y : State} (h : s.records y) (x : DescRef) (status extra detail : Nat) :
    (s.withoutDesc x).records (y.completeWith x status extra detail) :=
  (h.withoutDesc x).trans (State.completeWith_logs y x status extra detail).records

/-- Beside records, a state with a descriptor done with differs in the lists of descriptors only. -/
theorem State.records.withoutDesc_frame {s t : State} {x : DescRef} (h : (s.withoutDesc x).records t) :
    t = { s with link := t.link, rings := t.rings, err := t.err, heldEvents := t.heldEvents, descs := t.descs, fetched := t.fetched } ∧
      t.fetched = s.fetched.erase x ∧ t.descs = s.descs.erase x := by
  refine ⟨?_, ?_, ?_⟩ <;> (rw [h]; rfl)

/-- A completion after counted reads leaves the merge buffers as the reads did. -/
theorem State.counts.completeWith {s y : State} (h : s.counts y) (x : DescRef) (status extra detail : Nat) :
    (s.withoutDesc x).counts (y.completeWith x status extra detail) :=
  (h.withoutDesc x).trans (State.completeWith_logs y x status extra detail).records.counts

/-! ### The refusal (R458) -/

/-- A fetched descriptor that fails a check is completed with the status of the first that fails. -/
theorem performDesc_refuses {kind : Nat} {check : State → DescRef → List (Bool × Nat)} {act : State → DescRef → State} {r : BitVec 4}
    {d : Desc} {s : State} {x : DescRef} {st : Nat} (hk : fld d.toNat 0 8 = kind)
    (h : (s.fetched.find? fun y => y.ring == r.toNat && y.bits == d.toNat) = some x)
    (hf : s.fenced x = false) (hc : s.checkHeld x = false)
    (hst : firstOf ((reservedSet kind x.bits, stBadField) :: check s x) = some st) :
    performDesc kind check act r d s = .next ((s.noteImage x).complete x st) := by
  simp only [performDesc, hk, bne_self_eq_false, h, hf, hc, hst, Bool.or_self, Bool.false_eq_true, if_false]

/-- The completion of a refused descriptor changes records, the lists of descriptors, and merge entries at most for a RING_ADVANCE. -/
theorem State.complete_noteImage_frame {s t : State} {x : DescRef} {st : Nat} (ht : t = (s.noteImage x).complete x st) :
    t = { s with link := t.link, rings := t.rings, err := t.err, heldEvents := t.heldEvents, merge := t.merge, descs := t.descs,
                 fetched := t.fetched } ∧
      t.fetched = s.fetched.erase x ∧ t.descs = s.descs.erase x ∧ (x.kind ≠ 0x07 → t.merge = s.merge) := by
  have hcounts : (s.withoutDesc x).counts t := ht ▸ (s.noteImage_counts x).completeWith x st 0 0
  have hmerge (hk : x.kind ≠ 0x07) : (s.withoutDesc x).records t := ht ▸ (State.noteImage_records hk).completeWith x st 0 0
  refine ⟨?_, ?_, ?_, fun hk => by rw [hmerge hk]; rfl⟩ <;> (rw [hcounts]; rfl)

/-! ### PLAN_LOAD of an image that fails a check (R469) -/

/-- The state after the read of a PLAN_LOAD's image: the link event where the read completes with an error (R447). -/
def State.imageRead (s : State) (x : DescRef) : State :=
  if s.hostError (x.f 64 64) (x.f 128 32) then s.linkError 4 0 noStep (x.f 64 64) else s

theorem State.imageRead_records (s : State) (x : DescRef) : s.records (s.imageRead x) := by
  unfold State.imageRead
  split
  · exact State.linkError_records _ _ _ _ _
  · rfl

/-- An image that cannot be read fails with OUT_OF_RANGE, before any check of its bytes. -/
theorem State.checkImage_unread {s : State} {a len : Nat} (seed : Nat) (h : s.hostError a len = true) :
    s.checkImage a len seed = .error { status := stOutOfRange, cls := 7 } := if_pos h

/-- The read's own event changes nothing in what the checks find. -/
theorem State.checkImage_imageRead (s : State) (x : DescRef) :
    (s.imageRead x).checkImage (x.f 64 64) (x.f 128 32) (x.f 192 64) = s.checkImage (x.f 64 64) (x.f 128 32) (x.f 192 64) := by
  unfold State.imageRead
  split
  case isTrue h => rw [State.checkImage_unread _ h, State.checkImage_unread _ ((State.linkError_hostError ..).trans h)]
  case isFalse => rfl

/-- An image that fails a check loads nothing. -/
theorem State.planLoad_error {s : State} {a len seed : Nat} {e : LoadError} (h : s.checkImage a len seed = .error e) :
    s.planLoad a len seed = (s, e.status, e.detail) := by
  unfold State.planLoad; rw [h]

/-- A PLAN_LOAD of such an image is completed with the check's status and the detail of its place. -/
theorem actPlanLoad_error {s : State} {x : DescRef} {e : LoadError}
    (h : s.checkImage (x.f 64 64) (x.f 128 32) (x.f 192 64) = .error e) :
    actPlanLoad s x = (s.imageRead x).completeWith x e.status 0 e.detail := by
  have hload := State.planLoad_error ((s.checkImage_imageRead x).trans h)
  unfold actPlanLoad
  dsimp only
  rw [← State.imageRead, hload]

/-- Settles O29: every row is `performDesc` of its kind, whose refusal is a completion after the checks' own reads; a PLAN_LOAD that passes
is refused by its image. -/
theorem descriptorRefused : Obligations.DescriptorRefused := by
  intro r d i s x hrow hx hf hc
  rw [exec_descriptorRow r d i s hrow]
  refine ⟨fun st hst => ⟨_, performDesc_refuses rfl hx hf hc hst, rfl, State.complete_noteImage_frame rfl⟩, ?_⟩
  intro e hd hk hpass hheld he
  have hperformed : performDesc (fld d.toNat 0 8) (descriptorChecks (fld d.toNat 0 8)) (descriptorEffect (fld d.toNat 0 8)) r d s =
      .next ((s.imageRead x).completeWith x e.status 0 e.detail) := by
    rw [hd, performDesc_passes (check := descriptorChecks 1) hd hx hf hc hpass, hheld, State.noteImage_planLoad hk]
    exact congrArg _ (actPlanLoad_error he)
  exact ⟨_, _, hperformed, rfl, rfl, ((s.imageRead_records x).completeWith x e.status 0 e.detail).withoutDesc_frame⟩

end Sys2Proof.Machine
end

section
/-! PROOFS. Held packets released and unacknowledged packets sent again (R365, R407, R414, R419, R424, R489, R523). -/

namespace Sys2Proof.Machine

/-! ### A packet read from an L-die's buffers (R489, R503) -/

section
variable {s : State} {l : Nat} {marks : SMap Mark} {k : Packet}

/-- Words that are all good leave the packet and the counts as they were. -/
@[simp] theorem State.readBuffer_good (s : State) (l : Nat) (k : Packet) : s.readBuffer l [] k = (s, some k) := rfl

/-- A read packet keeps its body and its fabric header: stains go into the step header's mask, or fail a control packet's CRC. -/
theorem State.readBuffer_keeps {k' : Packet} (h : (s.readBuffer l marks k).2 = some k') : k'.body = k.body ∧ k'.header = k.header := by
  unfold State.readBuffer at h
  dsimp only at h
  split at h
  case isTrue => cases h
  case isFalse =>
    split at h
    case isTrue => cases h; exact ⟨rfl, rfl⟩
    case isFalse => split at h <;> cases h <;> exact ⟨rfl, rfl⟩

/-- Only a stained word of its headers makes a packet unreadable. -/
theorem State.readBuffer_readable (s : State) (l : Nat) (h : ∀ m ∈ marks, m.2.stained = true → preludeBytes k ≤ 8 * m.1) :
    ∃ k', (s.readBuffer l marks k).2 = some k' := by
  have hheaders : (((marks.filter fun x => x.2.stained).map fun x => 8 * x.1).any fun a => decide (a < preludeBytes k)) = false := by
    simpa using h
  unfold State.readBuffer
  dsimp only
  rw [if_neg (by simp only [hheaders, Bool.false_eq_true, not_false_iff])]
  split
  case isTrue => exact ⟨_, rfl⟩
  case isFalse => split <;> exact ⟨_, rfl⟩

end

/-! ### HELD_PACKET_RELEASE (R365, R387, R419, R489) -/

/-- The oldest packet held in an L-die whose condition is met. -/
def State.released? (s : State) (l : Nat) : Option Held :=
  s.fabric.held.find? fun h => h.ldie == l && s.checkStep h.packet != .held

/-- The state without a held packet. -/
def State.withoutHeld (s : State) (h : Held) : State := { s with fabric := { s.fabric with held := s.fabric.held.erase h } }

section
variable {l : BitVec 2} {s : State} {h : Held}

theorem exec_heldPacketRelease_waits (hf : s.released? l.toNat = none) : exec (.heldPacketRelease l) s = .next s := by
  change execHeldPacketRelease l s = _
  unfold execHeldPacketRelease
  rw [State.released?] at hf
  rw [hf]

/-- The packet leaves its store whether or not it can be read; one that cannot is dropped as one with a bad header CRC (R489). -/
theorem exec_heldPacketRelease_takes (hf : s.released? l.toNat = some h) : exec (.heldPacketRelease l) s =
    .next (((s.withoutHeld h).readHeld h).2.elim
      (((s.withoutHeld h).readHeld h).1.crcEvent (8 * l.toNat) (h.packet.source + 1 <<< 18)).markOldest
      fun k => if h.packet.type == 0x10 then ((s.withoutHeld h).readHeld h).1.receiveBucket l.toNat k false
        else ((s.withoutHeld h).readHeld h).1.receiveOstage l.toNat k false) := by
  change execHeldPacketRelease l s = _
  unfold execHeldPacketRelease
  rw [State.released?] at hf
  rw [hf]
  dsimp only
  rw [← State.withoutHeld]
  rcases (s.withoutHeld h).readHeld h with ⟨t, _ | k⟩
  · rfl
  · exact (apply_ite Host.Outcome.next ..).symm

end

/-! ### CONTROL_PACKET_RESEND (R407, R424) -/

/-- Sending a packet to a KN9250 records it as sent and otherwise changes links only. -/
theorem State.emit_links {s : State} {k : Packet} (l : Nat) (h : k.format ≠ 1) :
    State.links { s with sent := s.sent ++ [k] } (s.emit k l) := by
  rw [State.emit, if_neg (by simp [h])]
  exact State.carry_links _ _

/-- The state in which an unacknowledged packet is counted as sent once more. -/
def State.countSending (s : State) (u : Unacked) : State :=
  { s with fabric := { s.fabric with unacked := { u with sends := u.sends + 1 } :: s.fabric.unacked.erase u } }

section
variable {q : BitVec 32} {s : State} {u : Unacked}

theorem exec_controlPacketResend_idle (h : (s.fabric.unacked.find? fun u => u.seq == q.toNat) = none ∨ s.diesActive = false) :
    exec (.controlPacketResend q) s = .next s := by
  have hnone : (s.fabric.unacked.find? fun u => u.seq == q.toNat && s.diesActive) = none := by
    rcases h with h | h
    · rw [List.find?_eq_none] at h ⊢
      intro u hu hseq
      exact h u hu (Bool.and_elim_left hseq)
    · simp [h]
  change execControlPacketResend q s = _
  unfold execControlPacketResend
  rw [hnone]

theorem exec_controlPacketResend_sends (hu : (s.fabric.unacked.find? fun u => u.seq == q.toNat) = some u) (hd : s.diesActive = true)
    (hn : u.sends < 16) (hr : (s.members.filter fun e => rankAddress e.2 == u.dest).any (fun e => !rankLost e.2) = true) :
    exec (.controlPacketResend q) s = .next ((s.countSending u).emit u.packet) := by
  have hfound : (s.fabric.unacked.find? fun u => u.seq == q.toNat && s.diesActive) = some u := by
    simpa only [hd, Bool.and_true] using hu
  have hlives : (s.members.filter fun e => rankAddress e.2 == u.dest).all (fun e => rankLost e.2) = false := by
    obtain ⟨e, he, hlive⟩ := List.any_eq_true.1 hr
    exact List.all_eq_false.2 ⟨e, he, by simpa using hlive⟩
  change execControlPacketResend q s = _
  unfold execControlPacketResend
  rw [hfound]
  dsimp only
  rw [hlives, Bool.and_false, Bool.false_and, Bool.false_and, if_neg Bool.false_ne_true, if_pos hn]
  rfl

end

/-- Settles O41: a release reads the packet it takes out of its store, and a resend counts and sends a packet whose rank is not lost. -/
theorem heldPacketsAndResends : Obligations.HeldPacketsAndResends := by
  refine ⟨fun l s => ⟨exec_heldPacketRelease_waits, ?_⟩, fun q s => ⟨exec_controlPacketResend_idle, ?_⟩⟩
  · rintro h x hf rfl
    have hexec := exec_heldPacketRelease_takes hf
    refine ⟨fun hk => hexec.trans (by rw [State.withoutHeld, hk]; rfl), fun k hk => ?_, fun hm => ?_, State.readBuffer_readable _ _⟩
    · obtain ⟨hbody, hheader⟩ := State.readBuffer_keeps hk
      exact ⟨hbody, hheader, hexec.trans (by rw [State.withoutHeld, hk]; rfl)⟩
    · rw [State.readHeld, hm, State.readBuffer_good]
  · intro u hu hd hn hr
    have hexec := exec_controlPacketResend_sends hu hd hn hr
    refine ⟨hexec, fun hnew => ⟨_, hexec, ?_⟩⟩
    have hlinks := (s.countSending u).emit_links 0 hnew
    refine ⟨?_, ?_, ?_⟩ <;> (rw [hlinks]; rfl)

end Sys2Proof.Machine
end

section
/-! PROOFS. Received packets: which the L-die drops and what that leaves, the effect of a good one by its type, and acknowledgements
(R402, R406, R407, R411, R413, R415, R489). -/

namespace Sys2Proof.Machine

/-! ### One port (R402, R415) -/

section
variable {s : State} {p q : Nat} {k : Port}

theorem State.port_setPort (h : SMap.wf Port.init s.fabric.ports = true) : (s.setPort p k).port p = k := SMap.get_set_eq _ _ _ _ h

theorem State.port_setPort_ne (h : SMap.wf Port.init s.fabric.ports = true) (hq : q ≠ p) : (s.setPort p k).port q = s.port q :=
  SMap.get_set_ne _ _ _ _ _ h hq

/-- A module with the same links has the same ports. -/
theorem State.port_congr {t : State} (h : t.fabric = s.fabric) (q : Nat) : t.port q = s.port q := by simp only [State.port, h]

end

/-- A port whose receive buffer a packet has left: its credits go back to the partner (R415). -/
def Port.returning (q : Port) (k : Packet) : Port :=
  { q with returned := q.returned.modify k.vc fun n => n + packetCredits k, marks := [] }

theorem State.takeIn_active {s : State} {p : Nat} (h : (s.port p).state = .active) (k : Packet) :
    s.takeIn p k = s.setPort p ((s.port p).returning k) := by
  rw [State.takeIn, if_neg (not_not_intro h)]; rfl

/-! ### What a packet that is read and checked leaves (R406, R413, R489) -/

/-- t differs from s at most in records and in the stain marks of contributions. -/
def State.notes (s t : State) : Prop :=
  t = { s with link := t.link, rings := t.rings, err := t.err, heldEvents := t.heldEvents, steps := t.steps,
               store := { s.store with heldStain := t.store.heldStain } }

theorem State.notes.trans {s t u : State} (h1 : s.notes t) (h2 : t.notes u) : s.notes u :=
  Eq.trans h2 (congrArg (fun x : State =>
    { x with link := u.link, rings := u.rings, err := u.err, heldEvents := u.heldEvents, steps := u.steps,
             store := { x.store with heldStain := u.store.heldStain } }) h1)

theorem State.records.notes {s t : State} (h : s.records t) : s.notes t := by unfold State.notes; rw [h]

theorem State.records.fabric {s t : State} (h : s.records t) : t.fabric = s.fabric := by rw [h]

theorem State.notes.fabric {s t : State} (h : s.notes t) : t.fabric = s.fabric := by rw [h]

theorem State.markStain_notes (s : State) (n : Nat) : s.notes (s.markStain n) := by
  obtain ⟨m, hm⟩ := s.markStain_eq n
  rw [hm]
  unfold State.markStep
  split
  · split <;> rfl
  · rfl

theorem State.markOldest_notes (s : State) : s.notes s.markOldest := by
  unfold State.markOldest
  split
  · exact State.markStain_notes _ _
  · rfl

/-- The count and the event of a failed CRC are records. -/
theorem State.crcEvent_records (s : State) (p detail : Nat) : s.records (s.crcEvent p detail) := by
  unfold State.crcEvent State.lEvent
  exact State.records.trans (t := { s with err := _ }) rfl (State.event_records _ _ _ _ _ _)

theorem State.dropCorrupt_notes (s : State) (p : Nat) (k : Packet) : s.notes (s.dropCorrupt p k) :=
  (State.event_records _ _ _ _ _ _).notes.trans (State.markOldest_notes _)

section
variable {s x : State} {p l : Nat} {k k' : Packet} {all : Bool}

theorem State.inspect_notes (s : State) (p : Nat) (k : Packet) : s.notes (s.inspect p k).1 := by
  unfold State.inspect
  split
  · exact (s.crcEvent_records _ _).notes.trans (State.markOldest_notes _)
  · split
    · exact s.dropCorrupt_notes p k
    · split
      · dsimp only
        split <;> exact (s.crcEvent_records _ _).notes
      · split
        · exact s.dropCorrupt_notes p k
        · rfl

/-- A packet that passes the checks: records only, and its payload is stained where it is data whose body is bad (R406). -/
theorem State.inspect_passes (h : s.inspect p k = (x, some all)) : s.records x ∧ all = (decide (k.vc ≠ 0) && badBody k) := by
  unfold State.inspect at h
  split at h
  · cases h
  · split at h
    · cases h
    · split at h
      · rename_i hbody
        dsimp only at h
        split at h
        · cases h
        · rename_i hvc
          cases h
          exact ⟨s.crcEvent_records _ _, by simpa [hbody] using hvc⟩
      · rename_i hbody
        split at h
        · cases h
        · cases h
          exact ⟨rfl, by simp [hbody]⟩

theorem State.readBuffer_records (s : State) (l : Nat) (marks : SMap Mark) (k : Packet) : s.records (s.readBuffer l marks k).1 := by
  have hreads : s.records (marks.foldl (fun s (i, m) => s.countRead (20 + l) 6 3 l (8 * i) m) s) :=
    State.records_foldl _ (fun _ _ => State.countRead_records _ _ _ _ _ _ _) _ s
  unfold State.readBuffer
  dsimp only
  split
  · exact hreads
  · split
    · exact hreads
    · split <;> exact hreads

theorem State.arriving_notes (s : State) (p : Nat) (k : Packet) : s.notes (s.arriving p k).1 := by
  have hread := (s.readBuffer_records (portDie p) (s.port p).marks k).notes
  unfold State.arriving
  generalize s.readBuffer (portDie p) (s.port p).marks k = r at hread ⊢
  obtain ⟨y, _ | k'⟩ := r
  · exact hread.trans ((y.crcEvent_records _ _).notes.trans (State.markOldest_notes _))
  · exact hread.trans (y.inspect_notes _ _)

/-- A packet that the L-die takes has been read from the receive buffer and has passed the checks: data as received, control as read. -/
theorem State.arriving_takes (h : s.arriving p k = (x, some (k', all))) :
    ∃ y, s.readBuffer (portDie p) (s.port p).marks k = (y, some k') ∧ y.inspect p (if k.vc == 0 then k' else k) = (x, some all) := by
  unfold State.arriving at h
  rcases hread : s.readBuffer (portDie p) (s.port p).marks k with ⟨y, _ | j⟩
  · rw [hread] at h; cases h
  · rw [hread] at h
    dsimp only at h
    rcases hins : y.inspect p (if k.vc == 0 then j else k) with ⟨z, _ | b⟩ <;> rw [hins] at h <;> cases h
    exact ⟨y, rfl, hins⟩

theorem State.arriving_records (h : s.arriving p k = (x, some (k', all))) : s.records x := by
  obtain ⟨y, hread, hins⟩ := State.arriving_takes h
  have hy := s.readBuffer_records (portDie p) (s.port p).marks k
  rw [hread] at hy
  exact hy.trans (State.inspect_passes hins).1

theorem State.arriving_keeps (h : s.arriving p k = (x, some (k', all))) : k'.body = k.body ∧ k'.header = k.header := by
  obtain ⟨y, hread, -⟩ := State.arriving_takes h
  exact State.readBuffer_keeps (by rw [hread])

/-- The whole payload counts as stained exactly where the packet is data whose body is bad; a control packet with one is not taken. -/
theorem State.arriving_all (h : s.arriving p k = (x, some (k', all))) : all = (decide (k.vc ≠ 0) && badBody k) := by
  obtain ⟨y, -, hins⟩ := State.arriving_takes h
  have hvc : k'.vc = k.vc := by rw [Packet.vc, Packet.h, (State.arriving_keeps h).2]; rfl
  by_cases h0 : k.vc = 0
  · rw [if_pos (by simp [h0])] at hins
    rw [(State.inspect_passes hins).2, hvc, h0]; rfl
  · rw [if_neg (by simp [h0])] at hins
    exact (State.inspect_passes hins).2

/-- A packet whose words all read good is taken as it was received. -/
theorem State.arriving_unmarked (h : s.arriving p k = (x, some (k', all))) (hm : (s.port p).marks = []) :
    k' = k ∧ s.inspect p k = (x, some all) := by
  obtain ⟨y, hread, hins⟩ := State.arriving_takes h
  rw [hm, State.readBuffer_good] at hread
  cases hread
  exact ⟨rfl, by simpa using hins⟩

end

/-! ### The rows of packets (R411, R412) -/

/-- A receipt depends on what its effect does at the L-die of its port. -/
theorem receive_congr {type : Nat} {act act' : State → Nat → Packet → Bool → State} {p : BitVec 5} {k : Packet} {s : State}
    (h : ∀ x j all, act x (portDie p.toNat) j all = act' x (portDie p.toNat) j all) : receive type act p k s = receive type act' p k s := by
  simp only [receive, h]

/-- Each packet row receives its packet with the effect of the packet's type. -/
theorem exec_packetRow {p : BitVec 5} {k : Packet} {i : Instr} (h : packetRow p k = some i) (s : State) :
    exec i s = receive k.type (fun x _ k' all => packetEffect k.type x p.toNat k' all) p k s := by
  unfold packetRow at h
  split at h
  case h_22 => cases h
  all_goals
    rename_i htype
    cases h
    rw [htype]
    dsimp only [exec, execBucketPacket, execFsendData, execGatherData, execOstageData, execSnapshotCopy, execTalusReadRequest,
      execTalusReadReply, execTalusWrite, execTalusRefusal, execCollectiveData, execBeacon, execBarrierArrive, execBarrierRelease,
      execVerdictContribution, execVerdict, execRankMovePacket, execIdentityQuery, execIdentityReply, execResetPacket,
      execAcknowledgement, execUnreachableNotice]
    exact receive_congr fun _ _ _ => rfl

section
variable {p : BitVec 5} {k k' : Packet} {i : Instr} {s x : State} {all : Bool}

theorem exec_packet_inactive (h : packetRow p k = some i) (hp : (s.port p.toNat).state ≠ .active) : exec i s = .next s := by
  rw [exec_packetRow h, receive, if_pos hp]

theorem exec_packet_dropped (h : packetRow p k = some i) (hp : (s.port p.toNat).state = .active) (hd : (s.arriving p.toNat k).2 = none) :
    exec i s = .next ((s.arriving p.toNat k).1.takeIn p.toNat k) := by
  rw [exec_packetRow h, receive, if_neg (not_not_intro hp)]
  rcases hk : s.arriving p.toNat k with ⟨y, _ | j⟩
  · rfl
  · rw [hk] at hd; cases hd

theorem exec_packet_taken (h : packetRow p k = some i) (hp : (s.port p.toNat).state = .active)
    (ha : s.arriving p.toNat k = (x, some (k', all))) :
    exec i s = .next (x.settle (packetEffect k.type x p.toNat k' all) p.toNat k) := by
  rw [exec_packetRow h, receive, if_neg (not_not_intro hp), ha]
  simp only [bne_self_eq_false, Bool.false_eq_true, if_false]

end

/-- Settles O37: a packet that is not taken leaves records and stain marks, and its credits on its own port. -/
theorem packetsNotReceived : Obligations.PacketsNotReceived := by
  intro p k i s hrow
  refine ⟨exec_packet_inactive hrow, fun hp hd => ⟨_, exec_packet_dropped hrow hp hd, ?_⟩⟩
  have hnotes := s.arriving_notes p.toNat k
  generalize (s.arriving p.toNat k).1 = x at hnotes ⊢
  have hport (q : Nat) : x.port q = s.port q := State.port_congr hnotes.fabric q
  rw [State.takeIn_active (by rw [hport, hp]), hport]
  refine ⟨rfl, (congrArg State.mem hnotes :), (congrArg State.tiles hnotes :), (congrArg State.cores hnotes :),
    (congrArg State.plan hnotes :), (congrArg State.scales hnotes :), (congrArg State.folds hnotes :),
    congrArg (·.store.committed) hnotes, congrArg (·.store.bank) hnotes, (congrArg State.talus hnotes :),
    (congrArg State.sent hnotes :), ?_, fun hwf => ?_⟩
  · rw [← hnotes.fabric]; rfl
  · rw [← hnotes.fabric] at hwf
    exact ⟨fun q hq => (State.port_setPort_ne hwf hq).trans (hport q), State.port_setPort hwf⟩

/-! ### A packet that has been acted on (R415, R493) -/

section
variable {x y : State} {p : Nat} {k : Packet}

theorem State.settle_done (h : y.fabric.blocked.length ≤ x.fabric.blocked.length) : x.settle y p k = y.takeIn p k := if_pos h

/-- A packet whose access waits stays in the receive buffer: only the marks of its words are forgotten. -/
theorem State.settle_blocked (h : x.fabric.blocked.length < y.fabric.blocked.length) (hwf : SMap.wf Port.init y.fabric.ports = true) :
    (x.settle y p k).port p = { y.port p with marks := [] } ∧ ∀ q, q ≠ p → (x.settle y p k).port q = y.port q := by
  rw [State.settle, if_neg (Nat.not_le.2 h)]
  exact ⟨State.port_setPort hwf, fun _ hq => State.port_setPort_ne hwf hq⟩

end

/-- A payload that counts as stained whole is stained in every byte. -/
theorem packet_payload_stained (k : Packet) : ∀ b ∈ k.payload true, b.2 = true := by
  intro b hb
  obtain ⟨_, _, rfl⟩ := List.mem_map.1 hb
  rfl

/-- Settles O38: a packet that is taken was read and checked, and the row makes the effect of its type. -/
theorem packetsReceived : Obligations.PacketsReceived := by
  intro p k k' i s x all hrow hp ha
  have hrec := State.arriving_records ha
  obtain ⟨hbody, hheader⟩ := State.arriving_keeps ha
  refine ⟨exec_packet_taken hrow hp ha, State.arriving_all ha, hbody, hheader, ?_, State.arriving_unmarked ha, hrec.mem, hrec.cores,
    hrec.tiles, hrec.plan, hrec.steps, hrec.fabric, fun _ => State.settle_done, fun _ => State.settle_blocked, fun y hwf hy => ?_⟩
  · rintro rfl; exact packet_payload_stained k'
  · rw [State.takeIn_active hy, State.port_setPort hwf]; rfl

/-! ### The header of a control packet (R410) -/

/-- A field is a part of the number modulo any power of two above it. -/
theorem fld_congr {x y a b n : Nat} (hn : a + b ≤ n) (h : x % 2 ^ n = y % 2 ^ n) : fld x a b = fld y a b := by
  have hpart (z : Nat) : fld z a b = z % 2 ^ n % 2 ^ (a + b) / 2 ^ a := by
    rw [Nat.mod_mod_of_dvd _ (Nat.pow_dvd_pow 2 hn), Nat.pow_add, Nat.mod_mul_right_div_self, fld, Nat.shiftRight_eq_div_pow]
  rw [hpart, hpart, h]

/-- Writing a field leaves the fields below it. -/
theorem fld_setFld_below {x a b lo w v : Nat} (h : a + b ≤ lo) : fld (setFld x lo w v) a b = fld x a b := by
  refine fld_congr h ?_
  have hle : fld x lo w * 2 ^ lo ≤ x := by
    rw [fld, Nat.shiftRight_eq_div_pow]
    exact (Nat.mul_le_mul_right _ (Nat.mod_le _ _)).trans (Nat.div_mul_le_self _ _)
  rw [setFld, Nat.shiftLeft_eq, Nat.shiftLeft_eq, Nat.add_mul_mod_self_right]
  conv_rhs => rw [← Nat.sub_add_cancel hle, Nat.add_mul_mod_self_right]

/-- Below its CRC the header of a sealed packet is as it was given. -/
theorem fld_sealPacket {header step a b : Nat} {body : List Byte} (h : a + b ≤ 240) : fld (sealPacket header step body).h a b = fld header a b := by
  have hmod : (sealPacket header step body).h = setFld header 240 16 (headerCrc header) % 2 ^ 256 := BitVec.toNat_ofNat _ _
  rw [hmod, fld_congr (show a + b ≤ 256 by omega) (Nat.mod_mod _ _), fld_setFld_below h]

theorem State.address_lt (s : State) : s.address < 2 ^ 18 := by
  simp only [State.address, Nat.shiftLeft_eq]; omega

theorem b2n_le_one (b : Bool) : b2n b ≤ 1 := by cases b <;> decide

theorem fld_lt (x lo w : Nat) : fld x lo w < 2 ^ w := Nat.mod_lt _ (Nat.two_pow_pos w)

/-- A control packet names its type and its receiver. -/
theorem State.controlPacket_names (s : State) {type address : Nat} (old : Bool) (body : List Byte) (hv : ((typeInfo type).getD (0, 0)).1 = 0)
    (ht : type < 256) (ha : address < 2 ^ 18) :
    (s.controlPacket type address old body).type = type ∧ (s.controlPacket type address old body).dest = address := by
  have hs := s.address_lt
  have ho := b2n_le_one old
  unfold State.controlPacket State.makePacket Packet.type Packet.dest
  dsimp only
  rw [fld_sealPacket (by decide), fld_sealPacket (by decide), hv]
  simp only [fld, Nat.shiftLeft_eq, Nat.shiftRight_eq_div_pow]
  constructor <;> omega

/-! ### Acknowledgements (R407) -/

/-- The acknowledgement of a control packet. -/
def State.acknowledgement (s : State) (k : Packet) : Packet :=
  s.controlPacket 0x29 k.source (s.fromOld 0 k) (zeros 4 ++ leBytes 4 (bodyNum k 0 4))

theorem State.acknowledgement_names (s : State) (k : Packet) :
    (s.acknowledgement k).type = 0x29 ∧ (s.acknowledgement k).dest = k.source :=
  s.controlPacket_names _ _ rfl (by decide) (fld_lt _ _ _)

/-- An acknowledgement goes to modules of both generations (R414). -/
theorem State.sendPlain_acknowledges (s : State) (k : Packet) :
    s.sendPlain 0x29 k.source (s.fromOld 0 k) (leBytes 4 (bodyNum k 0 4)) =
      State.carry { s with sent := s.sent ++ [s.acknowledgement k] } ⟨0, s.acknowledgement k⟩ := by
  have hold : toOldTypes.contains (s.acknowledgement k).type = true := by rw [(s.acknowledgement_names k).1]; rfl
  rw [State.sendPlain, ← State.acknowledgement, State.emit, hold, Bool.not_true, Bool.and_false, if_neg Bool.false_ne_true]

/-- The packets of the acknowledged types, and the reset authority's, act as the first copy of a packet does. -/
theorem packetEffect_acked (s : State) (p : Nat) (j k : Packet) (all : Bool)
    (h : k.type ∈ [0x23, 0x24, 0x25, 0x26, 0x27] ∨ (k.type = 0x28 ∧ s.fromAuthority j = true)) :
    packetEffect k.type s p j all = s.onFirst j (ackedAct k.type j) := by
  rcases h with h | ⟨h, hauth⟩
  · simp only [List.mem_cons, List.not_mem_nil, or_false] at h
    rcases h with h | h | h | h | h <;> rw [h] <;> rfl
  · rw [h]; exact if_pos hauth

/-- Settles O39: the acknowledgement goes out for every copy, and the act follows the first. -/
theorem acknowledgedOnce : Obligations.AcknowledgedOnce := by
  intro p k k' a i s x c all hrow hp ha htype hc hack
  have hcarry : c = State.carry { x with sent := x.sent ++ [a] } ⟨0, a⟩ := by rw [hc, hack]; exact x.sendPlain_acknowledges k'
  have hlinks := State.carry_links { x with sent := x.sent ++ [a] } ⟨0, a⟩
  rw [← hcarry] at hlinks
  have hexec := exec_packet_taken hrow hp ha
  rw [packetEffect_acked x _ k' k all htype, State.onFirst, ← hc] at hexec
  obtain ⟨hatype, hadest⟩ := x.acknowledgement_names k'
  rw [State.acknowledgement, ← hack] at hatype hadest
  refine ⟨hatype, hadest, hcarry, hlinks, fun hseen => ?_, fun hnew => ?_⟩
  · rw [if_pos hseen] at hexec; exact hexec
  · have hcseen : c.fabric.seen = x.fabric.seen := by rw [hlinks]
    rw [if_neg (by rw [hnew]; exact Bool.false_ne_true), hcseen] at hexec
    exact hexec

end Sys2Proof.Machine
end

section
/-! PROOFS. Ports and links: packets that go out (R408, R409, R415), the states of a port (R402–R405), frames with their link words (R408). -/

namespace Sys2Proof.Machine

/-! ### What ports keep while packets go out (R408, R415) -/

/-- k' differs from k at most in what it has sent: its frames, its packets in flight, the partner's credits in use. -/
def Port.sends (k k' : Port) : Prop :=
  k' = { k with txSeq := k'.txSeq, replay := k'.replay, line := k'.line, flying := k'.flying, inUse := k'.inUse }

theorem Port.sends.trans {a b c : Port} (h1 : a.sends b) (h2 : b.sends c) : a.sends c :=
  Eq.trans h2 (congrArg (fun x : Port =>
    { x with txSeq := c.txSeq, replay := c.replay, line := c.line, flying := c.flying, inUse := c.inUse }) h1)

section
variable {s : State} {x : Sending} {p : Nat}

/-- A packet that need not wait goes out on its port. -/
theorem State.carry_goes (hp : s.portOf x = some p) (hw : s.mustWait x p = false) :
    s.carry x = s.setPort p ((s.port p).transmit x.packet (s.fillFrames (linkBytes x.packet))) := by
  simp only [State.carry, hp, hw, Bool.false_eq_true, if_false]

/-- A packet that must wait, or that finds no port, joins those that wait. -/
theorem State.carry_waits (h : ∀ p, s.portOf x = some p → s.mustWait x p = true) :
    s.carry x = { s with fabric := { s.fabric with waits := s.fabric.waits ++ [x] } } := by
  unfold State.carry
  dsimp only
  split
  · rfl
  · next p hp => rw [if_pos (h p hp)]

end

theorem State.carry_sends (s : State) (x : Sending) (h : SMap.wf Port.init s.fabric.ports = true) (q : Nat) :
    (s.port q).sends ((s.carry x).port q) := by
  by_cases hgo : ∃ p, s.portOf x = some p ∧ s.mustWait x p = false
  · obtain ⟨p, hp, hw⟩ := hgo
    rw [State.carry_goes hp hw]
    by_cases hq : q = p
    · rw [hq, State.port_setPort h]; rfl
    · rw [State.port_setPort_ne h hq]; rfl
  · rw [State.carry_waits fun p hp => by simpa using fun hw => hgo ⟨p, hp, hw⟩]
    rfl

theorem State.pump_sends (s : State) (h : SMap.wf Port.init s.fabric.ports = true) (q : Nat) : (s.port q).sends (s.pump.port q) := by
  have hfold (l : List Sending) (t : State) (ht : SMap.wf Port.init t.fabric.ports = true) :
      (t.port q).sends ((l.foldl State.carry t).port q) := by
    induction l generalizing t with
    | nil => rfl
    | cons x l ih => exact (t.carry_sends x ht q).trans (ih _ ((t.carry_carried x).wf ht))
  exact hfold _ _ h

/-- With no collective open there is none to try again. -/
theorem State.retryCollectives_idle (s : State) (h : s.collectives = []) : s.retryCollectives = s := by
  rw [State.retryCollectives, h]; rfl

/-! ### The state of a port changes (R402–R405) -/

section
variable {s : State} {p q : Nat} {k : Port} {st : PortState}

/-- An entry to ACTIVE or FAULT writes the port and its event. -/
theorem State.enterPort_records (s : State) (p : Nat) (k : Port) (st : PortState) :
    (s.setPort p { k with state := st }).records (s.enterPort p k st) := State.event_records _ _ _ _ _ _

@[simp] theorem State.enterPort_fabric : (s.enterPort p k st).fabric = (s.setPort p { k with state := st }).fabric :=
  (s.enterPort_records p k st).fabric

@[simp] theorem State.enterPort_collectives : (s.enterPort p k st).collectives = s.collectives := by
  rw [s.enterPort_records p k st]; rfl

@[simp] theorem State.enterPort_mem : (s.enterPort p k st).mem = s.mem := (s.enterPort_records p k st).mem

@[simp] theorem State.enterPort_cores : (s.enterPort p k st).cores = s.cores := (s.enterPort_records p k st).cores

@[simp] theorem State.enterPort_plan : (s.enterPort p k st).plan = s.plan := (s.enterPort_records p k st).plan

theorem State.port_enterPort (h : SMap.wf Port.init s.fabric.ports = true) : (s.enterPort p k st).port p = { k with state := st } :=
  (State.port_congr State.enterPort_fabric p).trans (State.port_setPort h)

theorem State.port_enterPort_ne (h : SMap.wf Port.init s.fabric.ports = true) (hq : q ≠ p) : (s.enterPort p k st).port q = s.port q :=
  (State.port_congr State.enterPort_fabric q).trans (State.port_setPort_ne h hq)

theorem State.enterPort_wf (h : SMap.wf Port.init s.fabric.ports = true) :
    SMap.wf Port.init (s.enterPort p k st).fabric.ports = true := by
  rw [State.enterPort_fabric]; exact SMap.wf_set _ _ _ _ h

end

/-- The state with a port in FAULT, before its packets go to other ports. -/
def State.faulted (s : State) (p : Nat) : State := s.enterPort p { s.port p with flying := [], replay := [] } .fault

/-- A port that enters FAULT where no collective waits: it keeps no packet, every other port keeps its state, and other ports take packets only
where some wait or were in flight on it. -/
structure State.faults (s : State) (p : Nat) (t : State) : Prop where
  state : (t.port p).state = .fault
  flying : (t.port p).flying = []
  others : ∀ q, q ≠ p → (t.port q).state = (s.port q).state
  idle : s.fabric.waits = [] → (s.port p).flying = [] → ∀ q, q ≠ p → t.port q = s.port q
  mem : t.mem = s.mem
  cores : t.cores = s.cores
  plan : t.plan = s.plan

theorem State.faultPort_faults (s : State) (p : Nat) (h : SMap.wf Port.init s.fabric.ports = true) (hc : s.collectives = []) :
    s.faults p (s.faultPort p) := by
  have hcar := (s.faulted p).reroute_carried p (s.port p)
  have heq : s.faultPort p = (s.faulted p).reroute p (s.port p) := by
    refine State.retryCollectives_idle _ ?_
    rw [← State.faulted, hcar.links]
    exact State.enterPort_collectives.trans hc
  have hwf : SMap.wf Port.init (s.faulted p).fabric.ports = true := State.enterPort_wf h
  have hpF : (s.faulted p).port p = { s.port p with flying := [], replay := [], state := .fault } := State.port_enterPort h
  have hqF (q : Nat) (hq : q ≠ p) : (s.faulted p).port q = s.port q := State.port_enterPort_ne h hq
  have hp : (s.faultPort p).port p = (s.faulted p).port p := by
    rw [heq]; exact (hcar.port hwf p).2 (by rw [hpF]; exact fun h => nomatch h)
  refine ⟨by rw [hp, hpF], by rw [hp, hpF], fun q hq => ?_, fun hw hfl q hq => ?_, ?_, ?_, ?_⟩
  · rw [heq, (hcar.port hwf q).1, hqF q hq]
  · rw [heq, State.reroute_idle _ _ _ (by rw [State.faulted, State.enterPort_fabric]; exact hw) hfl, hqF q hq]
  · rw [heq, hcar.links]; exact State.enterPort_mem
  · rw [heq, hcar.links]; exact State.enterPort_cores
  · rw [heq, hcar.links]; exact State.enterPort_plan

/-! ### The rows of a port's states (R402–R405, R570) -/

/-- A port whose lanes are measured, with the generation it has trained. -/
def Port.measured (k : Port) (rtt delay : Nat) : Port :=
  { k with rtt := rtt, delay := delay, generation := min (if k.partner2 then 2 else 3) k.capUsed }

section
variable {p : BitVec 5} {g : BitVec 2} {tuned : Bool} {rtt delay : BitVec 16} {s : State}

theorem exec_partnerDetected (hg : 2 ≤ g.toNat) : exec (.partnerDetected p g) s =
    .next (if (s.port p.toNat).state ≠ .detect then s
      else s.setPort p.toNat { s.port p.toNat with state := .equalise, partner2 := g.toNat == 2 }) := by
  change execPartnerDetected p g s = _
  unfold execPartnerDetected
  dsimp only
  rw [if_neg (Nat.not_lt.2 hg), apply_ite Host.Outcome.next]

theorem exec_equaliseDone_idle (h : (s.port p.toNat).state ≠ .equalise ∨ s.processors = false) :
    exec (.equaliseDone p tuned) s = .next s := if_pos h

theorem exec_equaliseDone (h : (s.port p.toNat).state = .equalise) (hp : s.processors = true) : exec (.equaliseDone p tuned) s =
    .next (if tuned then s.setPort p.toNat { s.port p.toNat with state := .measure } else s.enterPort p.toNat (s.port p.toNat) .fault) := by
  change execEqualiseDone p tuned s = _
  unfold execEqualiseDone
  dsimp only
  rw [if_neg (by simp [h, hp]), apply_ite Host.Outcome.next]

theorem exec_measureDone_idle (h : (s.port p.toNat).state ≠ .measure) : exec (.measureDone p rtt delay) s = .next s := if_pos h

theorem exec_measureDone (h : (s.port p.toNat).state = .measure) : exec (.measureDone p rtt delay) s =
    .next (s.enterPort p.toNat ((s.port p.toNat).measured rtt.toNat delay.toNat) .active).pump.retryCollectives :=
  if_neg (not_not_intro h)

theorem exec_frameRetryExhausted_idle (h : (s.port p.toNat).state ≠ .active) : exec (.frameRetryExhausted p) s = .next s := if_pos h

theorem exec_frameRetryExhausted (h : (s.port p.toNat).state = .active) : exec (.frameRetryExhausted p) s = .next (s.faultPort p.toNat) :=
  if_neg (not_not_intro h)

end

/-- Settles O43: each row by its equations, and what an entry to ACTIVE or FAULT leaves. -/
theorem portStates : Obligations.PortStates := by
  intro p g tuned rtt delay s hwf hg
  refine ⟨fun h => ?detected, fun h => ?undetected, fun h hproc => ?tuned, exec_equaliseDone_idle, fun h => ?measured, exec_measureDone_idle,
    fun h => ?exhausted, exec_frameRetryExhausted_idle⟩
  case detected =>
    refine ⟨_, (exec_partnerDetected hg).trans (by rw [if_neg (not_not_intro h)]), ?_, fun q hq => State.port_setPort_ne hwf hq, rfl, rfl, rfl⟩
    rw [State.port_setPort hwf]
  case undetected => rw [exec_partnerDetected hg, if_pos h]
  case tuned =>
    refine ⟨_, exec_equaliseDone h hproc, ?_⟩
    cases tuned with
    | true => exact ⟨by rw [if_pos rfl, State.port_setPort hwf]; rfl, fun q hq => State.port_setPort_ne hwf hq, rfl, rfl, rfl⟩
    | false =>
      refine ⟨?_, fun q hq => State.port_enterPort_ne hwf hq, State.enterPort_mem, State.enterPort_cores, State.enterPort_plan⟩
      rw [if_neg Bool.false_ne_true, State.port_enterPort hwf]; rfl
  case measured =>
    refine ⟨_, exec_measureDone h, rfl, fun hc => ?_⟩
    obtain ⟨x, hx⟩ : ∃ x, s.enterPort p.toNat ((s.port p.toNat).measured rtt.toNat delay.toNat) .active = x := ⟨_, rfl⟩
    have hxwf : SMap.wf Port.init x.fabric.ports = true := hx ▸ State.enterPort_wf hwf
    have hxp : x.port p.toNat = { (s.port p.toNat).measured rtt.toNat delay.toNat with state := .active } := hx ▸ State.port_enterPort hwf
    have hxq (q : Nat) (hq : q ≠ p.toNat) : x.port q = s.port q := hx ▸ State.port_enterPort_ne hwf hq
    have hlinks := x.pump_links
    have hsends := x.pump_sends hxwf p.toNat
    rw [hx, State.retryCollectives_idle _ (by rw [hlinks, ← hx]; exact State.enterPort_collectives.trans hc)]
    rw [hxp] at hsends
    refine ⟨by rw [hsends], by rw [hsends]; rfl, by rw [hsends]; rfl, fun q hq => ?_, fun hw q hq => ?_, ?_, ?_, ?_⟩
    · rw [(x.pump_carried.port hxwf q).1, hxq q hq]
    · rw [State.pump_idle x (by rw [← hx, State.enterPort_fabric]; exact hw), hxq q hq]
    · rw [hlinks, ← hx]; exact State.enterPort_mem
    · rw [hlinks, ← hx]; exact State.enterPort_cores
    · rw [hlinks, ← hx]; exact State.enterPort_plan
  case exhausted =>
    refine ⟨_, exec_frameRetryExhausted h, rfl, fun hc => ?_⟩
    obtain ⟨hstate, hflying, hothers, hidle, hmem, hcores, hplan⟩ := s.faultPort_faults p.toNat hwf hc
    exact ⟨hstate, hflying, hothers, hidle, hmem, hcores, hplan⟩

end Sys2Proof.Machine
end

section
/-! PROOFS. Frames with their link words (R404, R405, R408), and when a packet to send waits (R409, R415). -/

namespace Sys2Proof.Machine

/-! ### Link words (R408) -/

/-- k' awaits the same frame as k, in the same state. -/
structure Port.sameReceiver (k k' : Port) : Prop where
  rxSeq : k'.rxSeq = k.rxSeq
  retrying : k'.retrying = k.retrying
  fails : k'.fails = k.fails
  state : k'.state = k.state

theorem Port.sameReceiver.trans {a b c : Port} (h1 : a.sameReceiver b) (h2 : b.sameReceiver c) : a.sameReceiver c :=
  ⟨h2.rxSeq.trans h1.rxSeq, h2.retrying.trans h1.retrying, h2.fails.trans h1.fails, h2.state.trans h1.state⟩

theorem Port.sends.sameReceiver {k k' : Port} (h : k.sends k') : k.sameReceiver k' := by rw [h]; exact ⟨rfl, rfl, rfl, rfl⟩

section
variable {k : Port} {w n : Nat} {pre post : List (Nat × List Byte)} {b : List Byte}

/-- A link word concerns what a port has sent, not what it awaits. -/
theorem Port.linkWord_sameReceiver (k : Port) (w : Nat) : k.sameReceiver (k.linkWord w) := by
  unfold Port.linkWord Port.acknowledge
  split
  · exact ⟨rfl, rfl, rfl, rfl⟩
  · split <;> exact ⟨rfl, rfl, rfl, rfl⟩
  · exact ⟨rfl, rfl, rfl, rfl⟩
  · exact ⟨rfl, rfl, rfl, rfl⟩

/-- A link word of kind 0 gives credits of a virtual channel back. -/
theorem Port.linkWord_credits (h : fld w 0 2 = 0) :
    k.linkWord w = { k with inUse := k.inUse.modify (fld w 2 2) fun m => m - fld w 4 10 } := by
  simp only [Port.linkWord, h]

/-- A frame that is acknowledged leaves the replay buffer with every one before it. -/
theorem Port.linkWord_acknowledges (h : fld w 0 2 = 1) (hr : k.replay = pre ++ (fld w 2 14, b) :: post) (hpre : ∀ x ∈ pre, x.1 ≠ fld w 2 14) :
    k.linkWord w = { k with
      acked := some (fld w 2 14), replay := post
      flying := k.flying.filter fun x => !(pre.map Prod.fst ++ [fld w 2 14]).contains x.1 } := by
  have hfind : k.replay.findIdx? (fun f => f.1 == fld w 2 14) = some pre.length := by
    rw [hr, List.findIdx?_append, List.findIdx?_eq_none_iff.2 fun x hx => beq_eq_false_iff_ne.2 (hpre x hx)]
    simp [List.findIdx?_cons]
  have htake : k.replay.take (pre.length + 1) = pre ++ [(fld w 2 14, b)] := by simp [hr, List.take_append]
  have hdrop : k.replay.drop (pre.length + 1) = post := by simp [hr]
  simp only [Port.linkWord, Port.acknowledge, h, hfind, htake, hdrop, List.map_append, List.map_cons, List.map_nil]

/-- All frames from the one asked for onward go on the line again, in order. -/
theorem Port.linkWord_resends (h : fld w 0 2 = 2) (hr : k.replay = pre ++ (fld w 2 14, b) :: post) (hpre : ∀ x ∈ pre, x.1 ≠ fld w 2 14) :
    k.linkWord w = { k with resend := some (fld w 2 14), line := k.line ++ fld w 2 14 :: post.map Prod.fst } := by
  have hdrop : (k.replay.dropWhile fun f => f.1 != fld w 2 14) = (fld w 2 14, b) :: post := by
    rw [hr, List.dropWhile_append_of_pos fun x hx => bne_iff_ne.2 (hpre x hx)]
    simp
  simp only [Port.linkWord, h, hdrop, List.map_cons]

end

/-- Links are a part of the fabric. -/
theorem State.links.frame {s t : State} (h : s.links t) : t = { s with fabric := t.fabric } := by rw [h]

/-! ### The row of frames (R405, R408) -/

/-- The failed retries of the frame awaited, with a bad frame (R405). -/
def Port.failsWith (k : Port) (f : Nat) : Nat := k.fails + b2n (k.retrying && frameSeq f == k.rxSeq)

/-- The state in which a bad frame is counted and asked for again. -/
def State.countRetry (s : State) (p f : Nat) : State :=
  { s.setPort p { s.port p with retrying := true, fails := (s.port p).failsWith f } with
    err := { s.err with retries := SMap.set 0 s.err.retries p (satAdd 32 (SMap.get 0 s.err.retries p) 1) } }

/-- A port that takes a frame in sequence: it awaits the next one, with no retry. -/
def Port.taking (k : Port) (f : Nat) : Port :=
  { k with rxSeq := (k.rxSeq + 1) % 16384, retrying := false, fails := 0
           stream := restOfStream (k.stream ++ frameData f).length (k.stream ++ frameData f) }

section
variable {p : BitVec 5} {f : BitVec 2048} {s : State}

theorem exec_frame_inactive (h : (s.port p.toNat).state ≠ .active) : exec (.frame p f) s = .next s := if_pos h

theorem exec_frame_bad (h : (s.port p.toNat).state = .active) (hb : badFrame f.toNat = true) : exec (.frame p f) s =
    .next (if 16 ≤ (s.port p.toNat).failsWith f.toNat then (s.countRetry p.toNat f.toNat).faultPort p.toNat
      else s.countRetry p.toNat f.toNat) :=
  (if_neg (not_not_intro h)).trans (if_pos hb)

theorem exec_frame_skipped (h : (s.port p.toNat).state = .active) (hb : badFrame f.toNat = false)
    (hq : frameSeq f.toNat ≠ (s.port p.toNat).rxSeq) : exec (.frame p f) s = .next s :=
  (if_neg (not_not_intro h)).trans ((if_neg (by rw [hb]; exact Bool.false_ne_true)).trans (if_pos (bne_iff_ne.2 hq)))

theorem exec_frame_taken (h : (s.port p.toNat).state = .active) (hb : badFrame f.toNat = false)
    (hq : frameSeq f.toNat = (s.port p.toNat).rxSeq) : exec (.frame p f) s =
    .next (State.pump (s.setPort p.toNat (((s.port p.toNat).taking f.toNat).linkWord (frameLink f.toNat)))).retryCollectives :=
  (if_neg (not_not_intro h)).trans ((if_neg (by rw [hb]; exact Bool.false_ne_true)).trans (if_neg (by simp [hq])))

end

/-! ### Packets cut into frames (R408, R409) -/

/-- Frames enough for packet data carry all of it. -/
theorem frameParts_flatten (n : Nat) (bs : List Byte) (h : bs.length ≤ 248 * n) : (frameParts n bs).flatten = bs := by
  induction n generalizing bs with
  | zero =>
    have : bs = [] := List.length_eq_zero_iff.1 (by omega)
    rw [this]; rfl
  | succ n ih =>
    cases bs with
    | nil => rfl
    | cons b bs =>
      rw [frameParts, List.flatten_cons, ih _ (by rw [List.length_drop]; omega), List.take_append_drop]
      exact List.cons_ne_nil b bs

/-- The frames that a packet's data takes go on the line and into the replay buffer, and the credits of its VC are used. -/
theorem Port.transmit_frames (k : Port) (j : Packet) (data : List Byte) :
    (k.transmit j data).inUse = k.inUse.modify j.vc (fun n => n + packetCredits j) ∧
      ∃ fs, (k.transmit j data).replay = k.replay ++ fs ∧ (k.transmit j data).line = k.line ++ fs.map Prod.fst ∧
        fs.flatMap Prod.snd = data := by
  refine ⟨rfl, _, rfl, rfl, ?_⟩
  have hparts := frameParts_flatten (data.length / 248 + 1) data (by omega)
  conv_rhs => rw [← hparts]
  rw [List.flatMap_map]
  exact (List.flatMap_def ..).trans (congrArg List.flatten (List.zipIdx_map_fst 0 _))

/-! ### Packets that wait (R415) -/

/-- A packet waits behind one of its VC, for credits, or for shared credits behind any other. -/
theorem State.mustWait_iff (s : State) (x : Sending) (p : Nat) : s.mustWait x p = true ↔
    (s.fabric.waits.any fun y => y.packet.vc == x.packet.vc && s.portOf y == some p) = true ∨
      creditsFit ((s.port p).inUse.modify x.packet.vc fun n => n + packetCredits x.packet) = false ∨
      ((s.fabric.waits.any fun y => s.portOf y == some p) = true ∧
        pooled (s.port p).inUse < pooled ((s.port p).inUse.modify x.packet.vc fun n => n + packetCredits x.packet)) := by
  have hempty : (!(s.fabric.waits.filter fun y => s.portOf y == some p).isEmpty) = s.fabric.waits.any fun y => s.portOf y == some p := by
    rw [Bool.eq_iff_iff]; simp
  unfold State.mustWait
  dsimp only
  rw [hempty, Bool.or_eq_true, Bool.or_eq_true, Bool.and_eq_true, decide_eq_true_iff, Bool.not_eq_true', List.any_filter, or_assoc]
  simp only [Bool.and_comm]

theorem State.mustWait_free (s : State) (x : Sending) (p : Nat) (hw : (s.fabric.waits.any fun y => s.portOf y == some p) = false)
    (hc : creditsFit ((s.port p).inUse.modify x.packet.vc fun n => n + packetCredits x.packet) = true) : s.mustWait x p = false := by
  rw [List.any_eq_false] at hw
  rw [Bool.eq_false_iff, Ne, State.mustWait_iff]
  rintro (h | h | ⟨h, -⟩)
  · obtain ⟨y, hy, hyp⟩ := List.any_eq_true.1 h
    exact hw y hy (Bool.and_elim_right hyp)
  · rw [hc] at h; cases h
  · obtain ⟨y, hy, hyp⟩ := List.any_eq_true.1 h
    exact hw y hy hyp

/-- Settles O42: the frames by their kind, the link words by their kind, and the packets by whether they must wait. -/
theorem framesInOrder : Obligations.FramesInOrder := by
  refine ⟨fun p f s hwf hret => ⟨exec_frame_inactive, fun h => ⟨fun hb => ⟨fun hn => ?retried, fun hn => ?faulted⟩,
    exec_frame_skipped h, fun hb hq => ?taken⟩⟩, fun s x p hp => ⟨fun hw => ?waits, fun hw hwf => ?goes, State.mustWait_free s x p⟩⟩
  case retried =>
    have hexec := (exec_frame_bad h hb).trans (congrArg Host.Outcome.next (if_neg (Nat.not_le.2 hn)))
    exact ⟨_, hexec, SMap.get_set_eq _ _ _ _ hret, rfl, fun q hq => State.port_setPort_ne hwf hq, _, rfl, State.port_setPort hwf⟩
  case faulted =>
    have hexec := (exec_frame_bad h hb).trans (congrArg Host.Outcome.next (if_pos hn))
    refine ⟨_, hexec, fun hc => ?_⟩
    have hfaults := (s.countRetry p.toNat f.toNat).faultPort_faults p.toNat (SMap.wf_set _ _ _ _ hwf) hc
    exact ⟨hfaults.state, hfaults.mem, hfaults.cores, hfaults.plan⟩
  case taken =>
    have hexec := exec_frame_taken h hb hq
    have hword := Port.linkWord_sameReceiver ((s.port p.toNat).taking f.toNat) (frameLink f.toNat)
    generalize hk : ((s.port p.toNat).taking f.toNat).linkWord (frameLink f.toNat) = k at hexec hword
    have hport : (s.setPort p.toNat k).port p.toNat = k := State.port_setPort hwf
    have hlinks : s.links (s.setPort p.toNat k).pump := State.links.trans (t := s.setPort p.toNat k) rfl (State.pump_links _)
    have hidle (hc : s.collectives = []) : (s.setPort p.toNat k).pump.retryCollectives = (s.setPort p.toNat k).pump :=
      State.retryCollectives_idle _ (by rw [hlinks]; exact hc)
    refine ⟨_, (s.port p.toNat).taking f.toNat, hexec, by rw [hk], rfl, fun hc => ?_, fun hc hw => ?_⟩
    · have hsends := (s.setPort p.toNat k).pump_sends (SMap.wf_set _ _ _ _ hwf) p.toNat
      rw [hport] at hsends
      have hsame := hword.trans hsends.sameReceiver
      rw [hidle hc]
      exact ⟨hlinks.frame, hsame.rxSeq, hsame.retrying, hsame.fails, hsame.state.trans h⟩
    · rw [hidle hc, State.pump_idle (s.setPort p.toNat k) hw, hport, ← hk]
      refine ⟨fun q hq' => State.port_setPort_ne hwf hq', fun h0 => ?_, fun pre b post h1 hr hpre => ?_, fun pre b post h2 hr hpre => ?_⟩
      · rw [Port.linkWord_credits h0]; rfl
      · rw [Port.linkWord_acknowledges (k := (s.port p.toNat).taking f.toNat) h1 hr hpre]
        exact ⟨rfl, rfl, fun x hx => by simpa [not_or, and_comm] using (List.mem_filter.1 hx).2⟩
      · rw [Port.linkWord_resends (k := (s.port p.toNat).taking f.toNat) h2 hr hpre]; rfl
  case waits =>
    refine State.carry_waits fun q hq => ?_
    rw [hp] at hq
    cases hq
    exact (s.mustWait_iff x p).2 hw
  case goes =>
    have hgo := State.carry_goes hp hw
    have hport : (s.carry x).port p = (s.port p).transmit x.packet (s.fillFrames (linkBytes x.packet)) := by
      rw [hgo, State.port_setPort hwf]
    obtain ⟨huse, hframes⟩ := (s.port p).transmit_frames x.packet (s.fillFrames (linkBytes x.packet))
    rw [hport]
    exact ⟨hgo, huse, hframes⟩

end Sys2Proof.Machine
end

section
/-! PROOFS. Records, the rings they go into and host memory (R447, R452, R457, R474, R476, R622). -/

namespace Sys2Proof.Machine

/-! ### What records write: bytes of host memory, rings, the error log, the held events -/

/-- t differs from s at most in the bytes of host memory, the rings, the error log and the held events. -/
def State.told (s t : State) : Prop :=
  t = { s with link := { s.link with bytes := t.link.bytes }, rings := t.rings, err := t.err, heldEvents := t.heldEvents }

theorem State.told.trans {s t u : State} (h1 : s.told t) (h2 : t.told u) : s.told u :=
  Eq.trans h2 (congrArg (fun x : State => { x with link := { x.link with bytes := u.link.bytes }, rings := u.rings, err := u.err,
                                                   heldEvents := u.heldEvents }) h1)

theorem State.told.records {s t : State} (h : s.told t) : s.records t := by unfold State.records; rw [h]

theorem State.told_foldl {β : Type} (f : State → β → State) (hf : ∀ (s : State) (x : β), s.told (f s x)) (l : List β) (s : State) :
    s.told (l.foldl f s) := by
  induction l generalizing s with
  | nil => rfl
  | cons x l ih => exact (hf s x).trans (ih (f s x))

theorem State.hostWrite_told (s : State) (a : Nat) (bs : List Byte) : s.told (s.hostWrite a bs) := by
  unfold State.hostWrite; split <;> rfl

theorem State.interrupt_told (s : State) (i : Nat) : s.told (s.interrupt i) := by
  unfold State.interrupt
  dsimp only
  split
  · rfl
  · exact State.told.trans (t := s.setRing i { s.ring i with holding := decide ((s.ring i).holdoff ≠ 0) }) rfl (State.hostWrite_told _ _ _)

theorem State.putRecord_told (s : State) (i body : Nat) : s.told (s.putRecord i body) := by
  unfold State.putRecord
  split
  · rfl
  · exact (State.hostWrite_told s _ _).trans (State.told.trans (t := State.setRing _ i _) rfl (State.interrupt_told _ i))

theorem State.putEvent_told (s : State) (body : Nat) : s.told (s.putEvent body) := by
  unfold State.putEvent
  split
  · rfl
  · exact State.putRecord_told s _ _

theorem State.reportLost_told (s : State) : s.told s.reportLost := by
  unfold State.reportLost
  split
  · rfl
  · exact (State.putRecord_told s _ _).trans rfl

theorem State.event_told (s : State) (code cls src step detail : Nat) : s.told (s.event code cls src step detail) := by
  unfold State.event
  dsimp only
  split
  · split <;> rfl
  · exact (State.reportLost_told s).trans (State.putEvent_told _ _)

theorem State.flushHeld_told (s : State) : s.told s.flushHeld := by
  unfold State.flushHeld
  split
  · rfl
  · exact ((State.reportLost_told s).trans (State.told_foldl _ (fun s e => State.putEvent_told s _) _ _)).trans rfl

/-! ### The ring that records go into (R457) -/

/-- What records change of their ring: the producer index and the marks of its interrupt. -/
def Ring.recorded (r r' : Ring) : Prop := r' = { r with prod := r'.prod, holding := r'.holding, due := r'.due }

theorem Ring.recorded.trans {a b c : Ring} (h1 : a.recorded b) (h2 : b.recorded c) : a.recorded c :=
  Eq.trans h2 (congrArg (fun r : Ring => { r with prod := c.prod, holding := c.holding, due := c.due }) h1)

/-- The rings of t are those of s but for records in ring i. -/
structure State.recordsIn (i : Nat) (s t : State) : Prop where
  wf : SMap.wf Ring.init t.rings = true
  ring : (s.ring i).recorded (t.ring i)
  others : ∀ j, j ≠ i → t.ring j = s.ring j

section
variable {i : Nat} {s t u : State}

theorem State.ring_congr (h : t.rings = s.rings) (j : Nat) : t.ring j = s.ring j := by simp only [State.ring, h]

theorem State.recordsIn.of_rings (h : SMap.wf Ring.init s.rings = true) (hr : t.rings = s.rings) : s.recordsIn i t :=
  ⟨by rw [hr]; exact h, by rw [State.ring_congr hr]; rfl, fun j _ => State.ring_congr hr j⟩

theorem State.recordsIn.trans (h1 : s.recordsIn i t) (h2 : t.recordsIn i u) : s.recordsIn i u :=
  ⟨h2.wf, h1.ring.trans h2.ring, fun j hj => (h2.others j hj).trans (h1.others j hj)⟩

theorem State.setRing_recordsIn {r : Ring} (h : SMap.wf Ring.init s.rings = true) (hr : (s.ring i).recorded r) :
    s.recordsIn i (s.setRing i r) :=
  ⟨SMap.wf_set _ _ _ _ h, by rw [State.ring_setRing s i r h]; exact hr, fun j hj => State.ring_setRing_ne s i j r h hj⟩

@[simp] theorem State.hostWrite_rings (s : State) (a : Nat) (bs : List Byte) : (s.hostWrite a bs).rings = s.rings := by
  unfold State.hostWrite; split <;> rfl

theorem State.interrupt_recordsIn (s : State) (i : Nat) (h : SMap.wf Ring.init s.rings = true) : s.recordsIn i (s.interrupt i) := by
  unfold State.interrupt
  dsimp only
  split
  · exact State.setRing_recordsIn h rfl
  · have hset : s.recordsIn i (s.setRing i { s.ring i with holding := decide ((s.ring i).holdoff ≠ 0) }) := State.setRing_recordsIn h rfl
    exact hset.trans (.of_rings hset.wf (State.hostWrite_rings _ _ _))

theorem State.putRecord_recordsIn (s : State) (i body : Nat) (h : SMap.wf Ring.init s.rings = true) : s.recordsIn i (s.putRecord i body) := by
  unfold State.putRecord
  split
  · exact .of_rings h rfl
  · extract_lets r phase a
    have hw := (State.hostWrite_rings s a (leBytes 32 (setFld body 8 1 phase)))
    have hset : s.recordsIn i ((s.hostWrite a (leBytes 32 (setFld body 8 1 phase))).setRing i { r with prod := (r.prod + 1) % 2 ^ 32 }) :=
      (State.recordsIn.of_rings h hw).trans (State.setRing_recordsIn (by rw [hw]; exact h) (by rw [State.ring_congr hw]; rfl))
    exact hset.trans (State.interrupt_recordsIn _ _ hset.wf)

theorem State.putEvent_recordsIn (s : State) (body : Nat) (h : SMap.wf Ring.init s.rings = true) : s.recordsIn eventRing (s.putEvent body) := by
  unfold State.putEvent
  split
  · exact .of_rings h rfl
  · exact s.putRecord_recordsIn _ _ h

theorem State.reportLost_recordsIn (s : State) (h : SMap.wf Ring.init s.rings = true) : s.recordsIn eventRing s.reportLost := by
  unfold State.reportLost
  split
  · exact .of_rings h rfl
  · exact (s.putRecord_recordsIn _ _ h).trans (.of_rings (s.putRecord_recordsIn _ _ h).wf rfl)

/-- An event writes into the event ring only. -/
theorem State.event_recordsIn (s : State) (code cls src step detail : Nat) (h : SMap.wf Ring.init s.rings = true) :
    s.recordsIn eventRing (s.event code cls src step detail) := by
  unfold State.event
  dsimp only
  split
  · split <;> exact .of_rings h rfl
  · exact (s.reportLost_recordsIn h).trans (State.putEvent_recordsIn _ _ (s.reportLost_recordsIn h).wf)

theorem State.linkError_recordsIn (s : State) (cls src step a : Nat) (h : SMap.wf Ring.init s.rings = true) :
    s.recordsIn eventRing (s.linkError cls src step a) :=
  (State.recordsIn.of_rings (t := { s with err := { s.err with linkErrors := satAdd 32 s.err.linkErrors 1 } }) h rfl).trans
    (State.event_recordsIn _ _ _ _ _ _ h)

theorem State.recordsIn_foldl {β : Type} (f : State → β → State)
    (hf : ∀ (s : State) (x : β), SMap.wf Ring.init s.rings = true → s.recordsIn i (f s x)) (l : List β) (s : State)
    (h : SMap.wf Ring.init s.rings = true) : s.recordsIn i (l.foldl f s) := by
  induction l generalizing s with
  | nil => exact .of_rings h rfl
  | cons x l ih => exact (hf s x h).trans (ih (f s x) (hf s x h).wf)

theorem State.flushHeld_recordsIn (s : State) (h : SMap.wf Ring.init s.rings = true) : s.recordsIn eventRing s.flushHeld := by
  unfold State.flushHeld
  split
  · exact .of_rings h rfl
  · have hwritten := (s.reportLost_recordsIn h).trans
      (State.recordsIn_foldl _ (fun x e hx => State.putEvent_recordsIn x (setFld e 32 64 x.crest.counter) hx) s.heldEvents _
        (s.reportLost_recordsIn h).wf)
    exact hwritten.trans (.of_rings hwritten.wf rfl)

end

/-! ### The hot-plug state changed (R476, R592, R622) -/

/-- t is s in hot-plug state h, but for the alert and what records write. -/
def State.entered (s : State) (h : HotPlug) (t : State) : Prop :=
  t = { s with power := { s.power with hot := h }, side := { s.side with alert := t.side.alert },
               link := { s.link with bytes := t.link.bytes }, rings := t.rings, err := t.err, heldEvents := t.heldEvents }

theorem State.alertFrom_alert (s t : State) : s.alertFrom t = { t with side := { t.side with alert := (s.alertFrom t).side.alert } } := by
  unfold State.alertFrom; split <;> rfl

/-- The hot-plug event, after the events that were held. -/
theorem State.setHot_told (s : State) (h : HotPlug) :
    State.told (s.alertFrom { s with power := { s.power with hot := h } }) (s.setHot h) := by
  unfold State.setHot
  extract_lets _ n
  split
  · rfl
  · refine State.told.trans (t := if n.eventsOpen then n.flushHeld else n) ?_ (State.event_told _ _ _ _ _ _)
    split
    · exact State.flushHeld_told n
    · rfl

theorem State.setHot_entered (s : State) (h : HotPlug) : s.entered h (s.setHot h) := by
  have htold := State.setHot_told s h
  rw [State.alertFrom_alert] at htold
  unfold State.entered
  rw [htold]

theorem State.entered.hot {s t : State} {h : HotPlug} (hst : s.entered h t) : t.power.hot = h := congrArg (fun u : State => u.power.hot) hst

theorem State.setHot_recordsIn (s : State) (h : HotPlug) (hwf : SMap.wf Ring.init s.rings = true) : s.recordsIn eventRing (s.setHot h) := by
  have hn : s.recordsIn eventRing (s.alertFrom { s with power := { s.power with hot := h } }) :=
    .of_rings hwf (by rw [State.alertFrom_alert])
  unfold State.setHot
  extract_lets _ n
  split
  · exact hn
  · refine (hn.trans ?_).trans (State.event_recordsIn (if n.eventsOpen then n.flushHeld else n) _ _ _ _ _ ?_)
    · split
      · exact State.flushHeld_recordsIn n hn.wf
      · exact .of_rings hn.wf rfl
    · split
      · exact (State.flushHeld_recordsIn n hn.wf).wf
      · exact hn.wf

/-! ### Host memory (R447) -/

/-- Bytes put into host memory read back, an unlisted one as 0. -/
theorem State.hostByte_put {s t : State} {a i : Nat} {bs : List Byte} (ht : t.link.bytes = putCells s.link.bytes a bs)
    (hi : i < bs.length) (ha : a + bs.length ≤ 2 ^ 64) : t.hostByte (a + i) = bs.getD i 0 := by
  have hfind : ∀ l : List Nat, (((l.map fun i => (a + i, bs.getD i 0)).filter fun c => c.2 != 0).find? fun c => c.1 == a + i) =
      if i ∈ l ∧ bs.getD i 0 ≠ 0 then some (a + i, bs.getD i 0) else none := by
    intro l
    induction l with
    | nil => simp
    | cons j l ih => grind
  have hmod : (a + i) % 2 ^ 64 = a + i := Nat.mod_eq_of_lt (by omega)
  unfold State.hostByte
  rw [ht, hmod, putCells, List.find?_append, List.find?_append, hfind,
    find?_filter_gone s.link.bytes (fun c => decide (c.1 < a)) (a + i) (fun c hc => by simp [hc]),
    find?_filter_gone s.link.bytes (fun c => decide (a + bs.length ≤ c.1)) (a + i) (fun c hc => by simp [hc]; omega)]
  generalize bs.getD i 0 = b
  by_cases h0 : b = 0#8 <;> simp [h0, hi]

/-- Bytes put into host memory leave every other byte. -/
theorem State.hostByte_put_out {s t : State} {a x : Nat} {bs : List Byte} (ht : t.link.bytes = putCells s.link.bytes a bs)
    (hx : x < 2 ^ 64) (hout : x < a ∨ a + bs.length ≤ x) : t.hostByte x = s.hostByte x := by
  have hmid : (((List.range bs.length).map fun i => (a + i, bs.getD i 0)).filter fun c => c.2 != 0).find? (fun c => c.1 == x) = none :=
    List.find?_eq_none.2 fun c hc => by
      obtain ⟨i, hi, rfl⟩ := List.mem_map.1 (List.mem_filter.1 hc).1
      have := List.mem_range.1 hi
      simp; omega
  unfold State.hostByte
  rw [ht, Nat.mod_eq_of_lt hx, putCells, List.find?_append, List.find?_append, hmid]
  rcases hout with h | h
  · rw [find?_filter_kept s.link.bytes (fun c => decide (c.1 < a)) x (fun c hc => by simp [hc, h]),
      find?_filter_gone s.link.bytes (fun c => decide (a + bs.length ≤ c.1)) x (fun c hc => by simp [hc]; omega)]
    simp
  · rw [find?_filter_gone s.link.bytes (fun c => decide (c.1 < a)) x (fun c hc => by simp [hc]; omega),
      find?_filter_kept s.link.bytes (fun c => decide (a + bs.length ≤ c.1)) x (fun c hc => by simp [hc, h])]
    simp

theorem leNat_leBytes (n x : Nat) (h : x < 256 ^ n) : leNat (leBytes n x) = x := by
  induction n generalizing x with
  | zero => simp only [pow_zero, Nat.lt_one_iff] at h; rw [h]; rfl
  | succ n ih =>
    rw [leBytes, leNat, ih (x / 256) (by rw [pow_succ] at h; omega)]
    simp; omega

/-- A number written to host memory reads back. -/
theorem State.hostNum_put {s t : State} {a n x : Nat} (ht : t.link.bytes = putCells s.link.bytes a (leBytes n x))
    (ha : a + n ≤ 2 ^ 64) (hx : x < 256 ^ n) : t.hostNum a n = x := by
  have hbytes : t.hostBytes a n = leBytes n x := by
    refine List.ext_getElem (by simp [State.hostBytes, leBytes_length]) fun i hi _ => ?_
    have hin : i < n := by simpa [State.hostBytes] using hi
    have hlen := leBytes_length n x
    have hread := State.hostByte_put (i := i) ht (by omega) (by omega)
    simpa [State.hostBytes, List.getD_eq_getElem?_getD, hlen, hin] using hread
  rw [State.hostNum, hbytes, leNat_leBytes n x hx]

end Sys2Proof.Machine
end

section
/-! PROOFS. The host's rings: doorbells, the fetch of a descriptor, what the adapter answers, interrupts (R447, R451–R458, R485). -/

namespace Sys2Proof.Machine

/-! ### Doorbells (R451, R452) -/

section
variable {s : State} {i v : Nat}

theorem State.doorbell_linkDown (h : s.linkUp = false) : s.doorbell i v = s := by
  have h3 : s.power.hot.code < 3 := by simpa [State.linkUp] using h
  simp [State.doorbell, h3]

theorem State.doorbell_closed (hup : s.linkUp = true)
    (h : s.power.hot ≠ .ready ∧ s.power.hot ≠ .quiescing ∨ (s.ring i).enable = false) :
    s.doorbell i v = s.illegalWrite true (64 * i) 3 := by
  have h3 : ¬ s.power.hot.code < 3 := by simpa [State.linkUp] using hup
  have hclosed : ((s.power.hot != .ready && s.power.hot != .quiescing) || !(s.ring i).enable) = true := by
    rcases h with ⟨h, h'⟩ | h
    · simp [h, h']
    · simp [h]
  simp only [State.doorbell, h3, hclosed, if_false, if_true]

/-- On an enabled ring of a module that is READY or QUIESCING, the index decides. -/
theorem State.doorbell_open (h : s.power.hot = .ready ∨ s.power.hot = .quiescing) (he : (s.ring i).enable = true) :
    s.doorbell i v = if badIndexOf (s.ring i) i v then (s.event 0x17 7 i noStep 0).illegalWrite true (64 * i) 4
      else if i < 16 then s.setRing i { s.ring i with prod := v }
      else (s.setRing i { s.ring i with cons := v }).placeWaits := by
  have h3 : ¬ s.power.hot.code < 3 := by rcases h with h | h <;> simp [h, HotPlug.code]
  have hopen : ((s.power.hot != .ready && s.power.hot != .quiescing) || !(s.ring i).enable) = false := by
    rcases h with h | h <;> simp [h, he]
  simp only [State.doorbell, h3, hopen, if_false, Bool.false_eq_true]

theorem State.illegalWrite_rings (d : Bool) (off c : Nat) : (s.illegalWrite d off c).rings = s.rings := by
  unfold State.illegalWrite; split <;> rfl

theorem State.placeWaits_idle (h : s.waits = []) : s.placeWaits.rings = s.rings := by
  rw [State.placeWaits, h]; rfl

end

/-- Settles O25: the cases of a doorbell, then the ring whose index it moves. -/
theorem doorbells : Obligations.Doorbells := by
  intro i v s hwf
  refine ⟨fun r hi x hv => by subst hi hv; rfl, fun r hi x hv => by subst hi hv; rfl, fun hi x hv => by subst hi hv; rfl,
    State.doorbell_linkDown, fun hup h => ⟨State.doorbell_closed hup h, ?_⟩, fun h he => ?_⟩
  · rw [State.doorbell_closed hup h, State.illegalWrite_rings]
  · rw [State.doorbell_open h he]
    refine ⟨fun hb => if_pos hb, fun hb hi => ?_, fun hb hi hw => ?_⟩
    · rw [if_neg (by simp [hb]), if_pos hi]
      exact ⟨State.ring_setRing s i _ hwf, fun j hj => State.ring_setRing_ne s i j _ hwf hj⟩
    · have hplaced := State.placeWaits_idle (s := s.setRing i { s.ring i with cons := v }) hw
      rw [if_neg (by simp [hb]), if_neg (by omega)]
      exact ⟨(State.ring_congr hplaced i).trans (State.ring_setRing s i _ hwf),
        fun j hj => (State.ring_congr hplaced j).trans (State.ring_setRing_ne s i j _ hwf hj)⟩

/-! ### The fetch of a descriptor (R453–R456, R458) -/

section
variable {s : State} {r : Nat}

/-- The host address of the entry at the consumer index. -/
def State.entryAddr (s : State) (r : Nat) : Nat := (s.ring r).base.toNat + (s.ring r).cons % 2 ^ (s.ring r).size * 64

/-- The state in which the turn has passed to the next submission ring (R454). -/
def State.turnedPast (s : State) (r : Nat) : State := { s with nextRing := (r + 1) % 16 }

/-- The completion ring that the entry names. -/
def State.entryRing (s : State) (r : Nat) : Nat := 16 + fld (s.nextHeader r).1 9 2

/-- The descriptor of the entry. -/
def State.entryDesc (s : State) (r : Nat) : DescRef :=
  ⟨r, fld (s.nextHeader r).1 9 2, fld (s.nextHeader r).1 0 8, fld (s.nextHeader r).1 32 32, s.hostNum (s.entryAddr r) 64⟩

/-- The rings after a fetch: the consumer index moved on, and a record reserved. -/
def State.entryTaken (s : State) (r : Nat) : State :=
  let t := (s.turnedPast r).setRing r { s.ring r with cons := ((s.ring r).cons + 1) % 2 ^ 32 }
  t.setRing (s.entryRing r) { t.ring (s.entryRing r) with reserved := (t.ring (s.entryRing r)).reserved + 1 }

theorem State.fetch_bad (h : (s.nextHeader r).2 = true) :
    s.fetch r = ((s.turnedPast r).linkError 4 0 noStep (s.entryAddr r)).haltRing r 1 := if_pos h

theorem State.fetch_unused (h : (s.nextHeader r).2 = false) (he : (s.ring (s.entryRing r)).enable = false) :
    s.fetch r = (s.turnedPast r).haltRing r 2 :=
  (if_neg (by rw [Bool.not_eq_true]; exact h)).trans (if_pos (by rw [Bool.not_eq_true']; exact he))

theorem State.fetch_taken (h : (s.nextHeader r).2 = false) (he : (s.ring (s.entryRing r)).enable = true) :
    s.fetch r = State.refuseKind { s.entryTaken r with fetched := s.fetched ++ [s.entryDesc r] } r :=
  (if_neg (by rw [Bool.not_eq_true]; exact h)).trans (if_neg (by rw [Bool.not_eq_true', Bool.not_eq_false]; exact he))

/-- Where every fetched descriptor has a listed kind, none is refused for its kind. -/
theorem State.refuseKind_legal (h : ∀ x ∈ s.fetched, legalKind x.kind = true) : s.refuseKind r = s := by
  have hnone : (s.fetched.find? fun d => d.ring == r && !legalKind d.kind) = none :=
    List.find?_eq_none.2 fun x hx => by simp [h x hx]
  rw [State.refuseKind, hnone]

/-- A ring of the submission rings is none of the completion rings. -/
theorem State.entryRing_ne (h : r < 16) : r ≠ s.entryRing r := by unfold State.entryRing; omega

theorem State.ring_entryTaken (hr : r < 16) (hwf : SMap.wf Ring.init s.rings = true) :
    (s.entryTaken r).ring r = { s.ring r with cons := ((s.ring r).cons + 1) % 2 ^ 32 } ∧
    (s.entryTaken r).ring (s.entryRing r) = { s.ring (s.entryRing r) with reserved := (s.ring (s.entryRing r)).reserved + 1 } := by
  have hset := SMap.wf_set Ring.init s.rings r { s.ring r with cons := ((s.ring r).cons + 1) % 2 ^ 32 } hwf
  refine ⟨?_, ?_⟩
  · exact (State.ring_setRing_ne _ _ _ _ hset (State.entryRing_ne hr)).trans (State.ring_setRing (s.turnedPast r) r _ hwf)
  · have hother := State.ring_setRing_ne (s.turnedPast r) r (s.entryRing r) { s.ring r with cons := ((s.ring r).cons + 1) % 2 ^ 32 } hwf
      (State.entryRing_ne hr).symm
    refine (State.ring_setRing _ _ _ hset).trans ?_
    rw [hother]; rfl

/-- A ring that halts with its event keeps its consumer index, and nothing is fetched. -/
theorem State.haltRing_spec {k : Nat} (hr : r < 16) (hwf : SMap.wf Ring.init s.rings = true) :
    ((s.haltRing r k).ring r).halted = true ∧ ((s.haltRing r k).ring r).cons = (s.ring r).cons ∧ (s.haltRing r k).fetched = s.fetched ∧
      (s.haltRing r k).mem = s.mem ∧ (s.haltRing r k).steps = s.steps := by
  have htold := State.event_told (s.setRing r { s.ring r with halted := true }) 0x17 7 r noStep k
  have hring := (State.event_recordsIn (s.setRing r { s.ring r with halted := true }) 0x17 7 r noStep k
    (SMap.wf_set _ _ _ _ hwf)).others r (by unfold eventRing; omega)
  rw [State.ring_setRing s r _ hwf] at hring
  unfold State.haltRing
  rw [hring, htold]
  exact ⟨rfl, rfl, rfl, rfl, rfl⟩

end

/-- Settles O26: the fetch by its three outcomes. -/
theorem descriptorFetchTakesTheEntry : Obligations.DescriptorFetchTakesTheEntry := by
  intro r s hwf
  have hr := r.isLt
  refine ⟨fun h => if_neg h, fun hdue => ?_⟩
  have hexec : exec (.descriptorFetch r) s = .next (s.fetch r.toNat) := if_pos hdue
  refine ⟨fun hgood he hk hf => ?taken, fun hbad => ?bad, fun hgood he => ?unused⟩
  case taken =>
    rw [State.fetch_taken hgood he, State.refuseKind_legal (by
      intro x hx
      rcases List.mem_append.1 hx with hx | hx
      · exact hf x hx
      · rw [List.mem_singleton.1 hx]; exact hk)] at hexec
    obtain ⟨hcons, hreserved⟩ := State.ring_entryTaken hr hwf
    exact ⟨_, hexec, rfl, congrArg Ring.cons hcons, congrArg Ring.reserved hreserved, rfl, rfl, rfl, rfl, rfl, rfl⟩
  case bad =>
    have herr := State.linkError_records (s.turnedPast r.toNat) 4 0 noStep (s.entryAddr r.toNat)
    have hring := State.linkError_recordsIn (s.turnedPast r.toNat) 4 0 noStep (s.entryAddr r.toNat) hwf
    obtain ⟨hhalt, hcons, hfetched, hmem, hsteps⟩ := State.haltRing_spec (k := 1) hr hring.wf
    refine ⟨_, hexec.trans (congrArg _ (State.fetch_bad hbad)), rfl, hhalt, hcons.trans ?_, hfetched.trans ?_, hmem.trans herr.mem,
      hsteps.trans herr.steps⟩
    · exact congrArg Ring.cons (hring.others r.toNat (by unfold eventRing; omega))
    · rw [herr]; rfl
  case unused =>
    obtain ⟨hhalt, hcons, hfetched, hmem, hsteps⟩ := State.haltRing_spec (s := s.turnedPast r.toNat) (k := 2) hr hwf
    exact ⟨_, hexec.trans (congrArg _ (State.fetch_unused hgood he)), rfl, hhalt, hcons, hfetched, hmem, hsteps⟩

/-! ### What the adapter answers (R447) -/

/-- Ranges with a part cut out do not meet that part. -/
theorem cutRanges_misses {lo hi : Nat} {l : List (Nat × Nat)} {x : Nat × Nat} (h : x ∈ cutRanges lo hi l) : hi ≤ x.1 ∨ x.2 ≤ lo := by
  obtain ⟨⟨a, b⟩, -, hx⟩ := List.mem_flatMap.1 h
  rcases List.mem_append.1 hx with hx | hx <;> split at hx <;> simp at hx <;> subst hx
  · exact .inr (min_le_right _ _)
  · exact .inl (le_max_right _ _)

/-- Settles O27: the bytes put, the ranges cut and added. -/
theorem hostReadCompletionAnswers : Obligations.HostReadCompletionAnswers := by
  intro a data s hlen _
  refine ⟨⟨_, rfl, fun i hi => State.hostByte_put rfl hi hlen, fun x hx hout => State.hostByte_put_out rfl hx hout, fun _ hup => ?_, rfl⟩,
    ⟨_, rfl, rfl, fun x n hx hn => ?_, rfl⟩⟩
  · refine Bool.or_eq_false_iff.2 ⟨by rw [Bool.not_eq_false']; exact hup, List.any_eq_false.2 fun y hy => ?_⟩
    have := cutRanges_misses hy
    simp; omega
  · refine Bool.or_eq_true_iff.2 (.inr (List.any_eq_true.2 ⟨(a.toNat, a.toNat + data.length), List.mem_append_right _ (List.mem_singleton.2 rfl), ?_⟩))
    simp; omega

/-! ### Interrupts (R457) -/

/-- The row of a completion or event ring. -/
theorem exec_irqHoldoffExpiry {k : BitVec 5} {s : State} (h16 : 16 ≤ k.toNat) (h20 : k.toNat ≤ 20) : exec (.irqHoldoffExpiry k) s =
    if !(s.ring k.toNat).holding then .next s
    else if !(s.ring k.toNat).due || s.power.hot == .released then
      .next (s.setRing k.toNat { s.ring k.toNat with holding := false, due := false })
    else .next ((s.setRing k.toNat { s.ring k.toNat with due := false }).hostWrite (s.ring k.toNat).irqAddr.toNat
      (leBytes 4 (s.ring k.toNat).irqData.toNat)) := if_neg (by omega)

/-- Settles O28: the marks of the interval decide; the word due is written. -/
theorem holdoffExpiry : Obligations.HoldoffExpiry := by
  intro k s h16 h20 hwf
  rw [exec_irqHoldoffExpiry h16 h20]
  refine ⟨fun hh => by rw [hh]; rfl, fun hh hd => by rw [hh, hd]; rfl, fun hh hd hrel hup ha _ => ?_⟩
  have hbytes : ((s.setRing k.toNat { s.ring k.toNat with due := false }).hostWrite (s.ring k.toNat).irqAddr.toNat
      (leBytes 4 (s.ring k.toNat).irqData.toNat)).link.bytes =
      putCells s.link.bytes (s.ring k.toNat).irqAddr.toNat (leBytes 4 (s.ring k.toNat).irqData.toNat) := by
    have hup' : (s.setRing k.toNat { s.ring k.toNat with due := false }).linkUp = true := hup
    simp [State.hostWrite, hup', Nat.mod_eq_of_lt (s.ring k.toNat).irqAddr.isLt]
  have hring := (State.ring_congr (State.hostWrite_rings _ (s.ring k.toNat).irqAddr.toNat (leBytes 4 (s.ring k.toNat).irqData.toNat)) k.toNat).trans
    (State.ring_setRing s k.toNat { s.ring k.toNat with due := false } hwf)
  have hrecords := State.hostWrite_records (s.setRing k.toNat { s.ring k.toNat with due := false }) (s.ring k.toNat).irqAddr.toNat
    (leBytes 4 (s.ring k.toNat).irqData.toNat)
  refine ⟨_, by rw [hh, hd]; simp [hrel], ?_, ?_, State.hostNum_put hbytes ha (s.ring k.toNat).irqData.isLt, hrecords.mem, hrecords.cores⟩
  · rw [hring]; exact hh
  · rw [hring]

end Sys2Proof.Machine
end

section
/-! PROOFS. Register writes: the rows, the window and the doorbell page, the error status (R451, R481, R595–R599, R612, R613). -/

namespace Sys2Proof.Machine

/-! ### The rows that write one register (R595, R596) -/

theorem mailboxWrite_named {code : Nat} {v : Word} {s : State} (h : (fld v.toNat 0 8 == code) = true) :
    mailboxWrite code v s = .next (s.regWrite 0x5000 (writeMailboxCommand v.toNat)) := by
  rw [mailboxWrite, beq_iff_eq.1 h]; exact if_neg (by simp)

/-- A row of a setup register is a write of that register. -/
theorem exec_registerRow {i : Instr} {off : Nat} {f : State → RegResult} (h : registerRow i = some (off, f)) (hw : i.wf = true) (s : State) :
    exec i s = .next (s.regWrite off f) := by
  cases i with
  | ringEnable r v => cases h; exact if_neg (Nat.not_lt.2 (of_decide_eq_true hw))
  | ringDisable r v => cases h; exact if_neg (Nat.not_lt.2 (of_decide_eq_true hw))
  | getReport v => cases h; exact mailboxWrite_named hw
  | accept v => cases h; exact mailboxWrite_named hw
  | getCerts v => cases h; exact mailboxWrite_named hw
  | getStatus v => cases h; exact mailboxWrite_named hw
  | stageImage v => cases h; exact mailboxWrite_named hw
  | commitVersion v => cases h; exact mailboxWrite_named hw
  | setBootSlot v => cases h; exact mailboxWrite_named hw
  | revokeKey v => cases h; exact mailboxWrite_named hw
  | unknownMailboxCommand v =>
    cases h
    have hcode : fld v.toNat 0 8 = 0 ∨ 8 < fld v.toNat 0 8 := by simpa [Instr.wf] using hw
    exact if_neg (by omega)
  | _ => cases h <;> rfl

/-! ### A write by the hot-plug state (R481, R598) -/

section
variable {s : State} {off : Nat} {f : State → RegResult}

theorem State.regWrite_below (h : s.power.hot.code < 3) : s.regWrite off f = s := if_pos h

theorem State.regWrite_linked (h : s.power.hot = .linked) (hb : linkedBlock off = false) : s.regWrite off f = s.illegalWrite false off 3 := by
  simp [State.regWrite, h, hb, HotPlug.code]

/-- In LINKED the identity, host-link and mailbox blocks take writes, from ATTESTED on every block does. -/
theorem State.regWrite_open (h : 4 ≤ s.power.hot.code ∨ (s.power.hot = .linked ∧ linkedBlock off = true)) :
    (∀ t, f s = .ok t → s.regWrite off f = t) ∧ ∀ c, f s = .error c → s.regWrite off f = s.illegalWrite false off c := by
  rcases h with h | ⟨h, hb⟩
  · exact ⟨fun _ => State.regWrite_ok h, fun _ => State.regWrite_error h⟩
  · exact ⟨fun t ht => by simp [State.regWrite, h, hb, ht, HotPlug.code], fun c hc => by simp [State.regWrite, h, hb, hc, HotPlug.code]⟩

end

/-- Settles O50: the row is a write of its register, which the hot-plug state and the register's checks decide. -/
theorem registerWritesAreChecked : Obligations.RegisterWritesAreChecked := by
  intro i off f s hrow hw
  rw [exec_registerRow hrow hw]
  refine ⟨fun h => by rw [State.regWrite_below h], fun h hb => by rw [State.regWrite_linked h hb], fun h => ?_⟩
  obtain ⟨htakes, hrefuses⟩ := State.regWrite_open (f := f) h
  exact ⟨fun t ht => by rw [htakes t ht], fun c hc => by rw [hrefuses c hc]⟩

/-! ### The window and the doorbell page (R451, R595, R596) -/

section
variable {s : State} {off : Nat} {w v : Nat}

theorem State.writeRegister_up (h : 3 ≤ s.power.hot.code) : s.writeRegister off w v =
    if w != 8 || off % 8 != 0 then s.illegalWrite false off 0
    else match registerAt off v with
      | none => s.illegalWrite false off 1
      | some f => s.regWrite off f := if_neg (by omega)

theorem State.writeDoorbell_up (h : 3 ≤ s.power.hot.code) : s.writeDoorbell off w v =
    if w != 4 || off % 64 != 0 then s.illegalWrite true off 0
    else if 0x540 ≤ off then s.illegalWrite true off 1
    else s.doorbell (off / 64) (v % 2 ^ 32) := if_neg (by omega)

end

/-- A width that is not n bytes, as the bits of the command give it. -/
theorem width_ne {w n : BitVec 8} (h : w ≠ n) : (w.toNat != n.toNat) = true := bne_iff_ne.2 fun hn => h (BitVec.eq_of_toNat_eq hn)

/-! ### The record of a refused write (R612, R613) -/

theorem illegalInfo_fields (off c : Nat) (d : Bool) (h : c < 16) :
    fld (off % 2 ^ 17 + b2n d <<< 17 + c <<< 18) 0 17 = off % 2 ^ 17 ∧ bit (off % 2 ^ 17 + b2n d <<< 17 + c <<< 18) 17 = d ∧
      fld (off % 2 ^ 17 + b2n d <<< 17 + c <<< 18) 18 4 = c := by
  simp only [fld, bit, Nat.shiftLeft_eq, Nat.shiftRight_eq_div_pow]
  cases d <;> simp [b2n] <;> omega

theorem State.illegalWrite_first {s : State} (d : Bool) (off c : Nat) (h : s.err.illegal = false) : s.illegalWrite d off c =
    { s with err := { s.err with illegal := true, illegalInfo := off % 2 ^ 17 + b2n d <<< 17 + c <<< 18 } } :=
  if_neg (by rw [h]; exact Bool.false_ne_true)

/-- Settles O51: the window by width and place, the doorbell page likewise, the record, and the clearing of the error status. -/
theorem registerWindow : Obligations.RegisterWindow := by
  refine ⟨fun d off w v s => ⟨fun h => ?below, fun h => ⟨fun hw => ?window, fun hoff hnone => ?reserved, fun f hoff hf => ?register,
    fun hw => ?page, fun hoff hslot => ?slot, fun hoff hslot => ?doorbell⟩, rfl⟩, fun d off c s hc => ⟨fun h => if_pos h, fun h => ?record⟩,
    fun v s h hv => ?clear⟩
  case below =>
    cases d
    · exact congrArg Host.Outcome.next (if_pos h)
    · exact congrArg Host.Outcome.next (if_pos h)
  case window =>
    refine congrArg Host.Outcome.next ((State.writeRegister_up h).trans (if_pos (Bool.or_eq_true_iff.2 (hw.imp width_ne fun hw => ?_))))
    exact bne_iff_ne.2 hw
  case reserved =>
    refine congrArg Host.Outcome.next ((State.writeRegister_up h).trans ((if_neg (by simp [hoff])).trans ?_))
    rw [hnone]
  case register =>
    refine congrArg Host.Outcome.next ((State.writeRegister_up h).trans ((if_neg (by simp [hoff])).trans ?_))
    rw [hf]
  case page =>
    refine congrArg Host.Outcome.next ((State.writeDoorbell_up h).trans (if_pos (Bool.or_eq_true_iff.2 (hw.imp width_ne fun hw => ?_))))
    exact bne_iff_ne.2 (by omega)
  case slot =>
    exact congrArg Host.Outcome.next ((State.writeDoorbell_up h).trans ((if_neg (by simp; omega)).trans (if_pos (by omega))))
  case doorbell =>
    exact congrArg Host.Outcome.next ((State.writeDoorbell_up h).trans ((if_neg (by simp; omega)).trans (if_neg (by omega))))
  case record =>
    rw [State.illegalWrite_first d off c h]
    exact ⟨rfl, rfl, illegalInfo_fields off c d hc⟩
  case clear =>
    have htaken := (State.regWrite_checked (off := 0x4000) (f := writeErrorStatus v.toNat) h rfl).1 (by simp [hv])
    exact ⟨_, congrArg Host.Outcome.next htaken, rfl, rfl, rfl, rfl⟩

end Sys2Proof.Machine
end

section
/-! PROOFS. Rings enabled and disabled, and MODULE_ENABLE (R449, R482, R488, R607, R608, R622). -/

namespace Sys2Proof.Machine

/-! ### RING_CONFIG (R607, R608, R622) -/

/-- A value of RING_CONFIG with its reserved bits 0, a legal size, and no holdoff for a submission ring. -/
structure LegalConfig (i v : Nat) : Prop where
  reserved : fld v 5 3 = 0 ∧ fld v 9 7 = 0 ∧ fld v 32 32 = 0
  size : 6 ≤ fld v 0 5 ∧ fld v 0 5 ≤ 16
  holdoff : i < 16 → fld v 16 16 = 0

/-- A ring with the fields of a RING_CONFIG value, its marks clear. -/
def Ring.configured (r : Ring) (v : Nat) : Ring :=
  { r with size := fld v 0 5, holdoff := fld v 16 16, halted := false, holding := false, due := false, relinked := false }

/-- The state in which events are no longer held for the enabling of the event ring. -/
def State.eventsOpened (s : State) : State := { s with eventsOpen := true }

/-- What keeps an enabled ring from being disabled: a reserved record, or events on a module that works. -/
def State.keepsRing (s : State) (i : Nat) : Prop :=
  (16 ≤ i ∧ i < 20 ∧ (s.ring i).reserved ≠ 0) ∨ (i = 20 ∧ (s.power.hot = .ready ∨ s.power.hot = .quiescing))

section
variable {s : State} {i v : Nat}

theorem LegalConfig.passes (h : LegalConfig i v) :
    (fld v 5 3 != 0 || fld v 9 7 != 0 || fld v 32 32 != 0) = false ∧
      (decide (fld v 0 5 < 6) || decide (16 < fld v 0 5) || (decide (i < 16) && fld v 16 16 != 0)) = false := by
  obtain ⟨⟨h5, h9, h32⟩, ⟨h6, h16⟩, hh⟩ := h
  refine ⟨by simp [h5, h9, h32], ?_⟩
  by_cases hi : i < 16
  · simp [hh hi, h6, h16]
  · simp [hi, h6, h16]

theorem writeRingConfig_enabled (hon : bit v 8 = true) (he : (s.ring i).enable = true) : writeRingConfig i v s = .error 3 := by
  simp [writeRingConfig, refuseIf, firstOf, hon, he]

theorem writeRingConfig_enables (h : LegalConfig i v) (hon : bit v 8 = true) (he : (s.ring i).enable = false) : writeRingConfig i v s =
    .ok (if i = eventRing then (s.setRing i { (s.ring i).configured v with enable := true, prod := 0, cons := 0 }).eventsOpened.flushHeld
      else s.setRing i { (s.ring i).configured v with enable := true, prod := 0, cons := 0 }) := by
  obtain ⟨hr, hs⟩ := h.passes
  simp only [writeRingConfig, refuseIf, firstOf, hon, he, hr, hs]
  rfl

theorem writeRingConfig_kept (h : LegalConfig i v) (hoff : bit v 8 = false) (he : (s.ring i).enable = true) (hk : s.keepsRing i) :
    writeRingConfig i v s = .error 3 := by
  obtain ⟨hr, hs⟩ := h.passes
  rcases hk with ⟨h16, h20, hres⟩ | ⟨rfl, hhot⟩
  · simp [writeRingConfig, refuseIf, firstOf, hoff, he, hr, hs, h16, h20, hres]
  · rcases hhot with hhot | hhot <;>
      simp [writeRingConfig, refuseIf, firstOf, hoff, he, hr, hhot, eventRing, Nat.not_lt.2 h.size.1, Nat.not_lt.2 h.size.2]

theorem writeRingConfig_disables (h : LegalConfig i v) (hoff : bit v 8 = false) (hk : ¬ s.keepsRing i) :
    writeRingConfig i v s = .ok (s.setRing i { (s.ring i).configured v with enable := false }) := by
  obtain ⟨hr, hs⟩ := h.passes
  obtain ⟨hres, hhot⟩ := not_or.1 hk
  have h4 : ((s.ring i).enable && decide (16 ≤ i) && decide (i < 20) && (s.ring i).reserved != 0) = false := by
    rw [Bool.eq_false_iff]; simp; tauto
  have h5 : ((s.ring i).enable && i == eventRing && (s.power.hot == .ready || s.power.hot == .quiescing)) = false := by
    rw [Bool.eq_false_iff]; simp [eventRing]; tauto
  simp only [writeRingConfig, refuseIf, firstOf, hoff, hr, hs, h4, h5]
  rfl

/-- The held events go out once the event ring is enabled and the link up. -/
theorem State.flushHeld_heldEvents (he : (s.ring eventRing).enable = true) (hup : s.linkUp = true) : s.flushHeld.heldEvents = [] := by
  rw [State.flushHeld, if_neg (by simp [he, hup])]

end

/-! ### MODULE_ENABLE (R482, R488, R607) -/

/-- A map with every value changed reads changed, where the change keeps the default. -/
theorem SMap.get_mapVals {α : Type} [DecidableEq α] (d : α) (f : α → α) (hd : f d = d) (m : SMap α) (h : SMap.wf d m = true) (k : Nat) :
    SMap.get d (SMap.mapVals d f m) k = f (SMap.get d m k) := by
  induction m with
  | nil => exact hd.symm
  | cons p m ih =>
    obtain ⟨i, v⟩ := p
    obtain ⟨hp, hv⟩ := (SMap.wf_iff d _).1 h
    obtain ⟨hlt, hrest⟩ := List.pairwise_cons.1 hp
    have hwf : SMap.wf d m = true := (SMap.wf_iff d m).2 ⟨hrest, fun q hq => hv q (List.mem_cons_of_mem _ hq)⟩
    have habove : SMap.above i (SMap.mapVals d f m) := fun q hq => by
      obtain ⟨x, hx, rfl⟩ := List.mem_map.1 (List.mem_filter.1 hq).1
      exact hlt x hx
    have hcons : SMap.mapVals d f ((i, v) :: m) = if f v = d then SMap.mapVals d f m else (i, f v) :: SMap.mapVals d f m := by
      by_cases hfv : f v = d <;> simp [SMap.mapVals, hfv]
    rw [hcons]
    by_cases hik : i = k
    · subst hik
      split
      · rename_i hfv
        rw [SMap.get_above d _ i habove, SMap.get, if_pos rfl, hfv]
      · simp [SMap.get]
    · rw [SMap.get, if_neg hik, ← ih hwf]
      split
      · rfl
      · rw [SMap.get, if_neg hik]

section
variable {s : State}

/-- The state with MODULE_ENABLE accepted and the rings that were in use at a link loss restarted. -/
def State.enabling (s : State) : State :=
  { s with power := { s.power with enable := true }, rings := SMap.mapVals Ring.init Ring.restart s.rings }

theorem writeModuleEnable_attested (h : s.power.hot = .attested) (hb : s.badRing = false) :
    writeModuleEnable 1 s = .ok (s.enabling.setHot .ready) := by
  simp [writeModuleEnable, refuseIf, firstOf, fld, bit, h, hb, State.enabling]

theorem writeModuleEnable_ready (h : s.power.hot = .ready) : writeModuleEnable 1 s = .ok s := by
  simp [writeModuleEnable, refuseIf, firstOf, fld, bit, h]

theorem writeModuleEnable_refused (h : (s.power.hot = .attested ∧ s.badRing = true) ∨ s.power.hot = .quiescing ∨ s.power.hot = .released) :
    writeModuleEnable 1 s = .error 3 := by
  have hv : fld 1 1 63 = 0 ∧ bit 1 0 = true := by decide
  rcases h with ⟨h, hb⟩ | h | h
  · simp [writeModuleEnable, refuseIf, firstOf, hv, h, hb]
  · simp [writeModuleEnable, refuseIf, firstOf, hv, h]
  · simp [writeModuleEnable, refuseIf, firstOf, hv, h]

theorem State.ring_enabling (h : SMap.wf Ring.init s.rings = true) (i : Nat) : s.enabling.ring i = (s.ring i).restart :=
  SMap.get_mapVals Ring.init Ring.restart rfl s.rings h i

end

/-- Settles O54: RING_CONFIG by the enable bit and the ring's state, MODULE_ENABLE by the hot-plug state. -/
theorem ringRows : Obligations.RingRows := by
  refine ⟨fun r v s h4 hr hwf h5 h9 h32 h6 h16 hh => ?config, fun s => ⟨fun h hb => ?attested, fun h => ?ready, fun h => ?refused⟩⟩
  case config =>
    have hlegal : LegalConfig r.toNat v.toNat := ⟨⟨h5, h9, h32⟩, ⟨h6, h16⟩, hh⟩
    have hrow : exec (.ringEnable r v) s = .next (s.regWrite (0x1008 + 64 * r.toNat) (writeRingConfig r.toNat v.toNat)) :=
      if_neg (Nat.not_lt.2 hr)
    have hrow' : exec (.ringDisable r v) s = .next (s.regWrite (0x1008 + 64 * r.toNat) (writeRingConfig r.toNat v.toNat)) :=
      if_neg (Nat.not_lt.2 hr)
    refine ⟨fun hon he => ?_, fun hon he h20 => ?_, fun hon he => ?_, fun hoff hk => ?_, fun hoff hres hhot => ?_⟩
    · rw [hrow, State.regWrite_error h4 (writeRingConfig_enabled hon he)]
    · refine ⟨_, hrow.trans (congrArg _ ((State.regWrite_ok h4 (writeRingConfig_enables hlegal hon he)).trans (if_neg h20))), rfl,
        fun i hi => State.ring_setRing_ne s _ i _ hwf hi, State.ring_setRing s _ _ hwf⟩
    · have hlegal20 : LegalConfig eventRing v.toNat := ⟨⟨h5, h9, h32⟩, ⟨h6, h16⟩, fun h => absurd h (by decide)⟩
      have hrow20 : exec (.ringEnable 20 v) s = .next (s.regWrite (0x1008 + 64 * 20) (writeRingConfig eventRing v.toNat)) := rfl
      refine ⟨_, hrow20.trans (congrArg _ (State.regWrite_ok h4 (writeRingConfig_enables hlegal20 hon he))), ?_⟩
      rw [if_pos rfl]
      generalize hconf : ({ (s.ring eventRing).configured v.toNat with enable := true, prod := 0, cons := 0 } : Ring) = r'
      have hring : (s.setRing eventRing r').eventsOpened.ring eventRing = r' := State.ring_setRing s _ _ hwf
      have hrecorded := (State.flushHeld_recordsIn (s.setRing eventRing r').eventsOpened (SMap.wf_set _ _ _ _ hwf)).ring
      have htold := State.flushHeld_told (s.setRing eventRing r').eventsOpened
      have hopen := (congrArg Ring.enable hring).trans (congrArg Ring.enable hconf).symm
      exact ⟨(congrArg Ring.enable hrecorded).trans hopen, congrArg State.eventsOpen htold,
        State.flushHeld_heldEvents hopen (decide_eq_true (by omega : 3 ≤ s.power.hot.code)), htold.records.mem,
        htold.records.cores, htold.records.plan⟩
    · have hkept : s.keepsRing r.toNat := hk.imp (fun ⟨h1, h2, _, h3⟩ => ⟨h1, h2, h3⟩) fun ⟨h1, _, h2⟩ => ⟨h1, h2⟩
      have he : (s.ring r.toNat).enable = true := by
        rcases hk with ⟨_, _, he, _⟩ | ⟨h20, he, _⟩
        · exact he
        · rw [h20]; exact he
      rw [hrow', State.regWrite_error h4 (writeRingConfig_kept hlegal hoff he hkept)]
    · have hfree : ¬ s.keepsRing r.toNat := by
        rintro (⟨h1, -, h2⟩ | ⟨h1, h2⟩)
        · exact h2 (hres h1)
        · exact h2.elim (hhot h1).1 (hhot h1).2
      refine ⟨_, hrow'.trans (congrArg _ (State.regWrite_ok h4 (writeRingConfig_disables hlegal hoff hfree))), rfl, ?_,
        fun i hi => State.ring_setRing_ne s _ i _ hwf hi⟩
      rw [State.ring_setRing s _ _ hwf]
  case attested =>
    have h4 : 4 ≤ s.power.hot.code := by rw [h]; decide
    refine ⟨_, congrArg Host.Outcome.next (State.regWrite_ok h4 (writeModuleEnable_attested h hb)), ?_⟩
    have hframe := State.setHot_entered s.enabling .ready
    refine ⟨by rw [hframe], by rw [hframe]; rfl, by rw [hframe]; rfl, by rw [hframe]; rfl, by rw [hframe]; rfl, fun hwf i hi => ?_⟩
    have hring := (State.setHot_recordsIn s.enabling .ready (SMap.wf_mapVals _ _ _ hwf)).others i hi
    rw [hring, State.ring_enabling hwf]
    exact ⟨fun hre => by rw [Ring.restart, if_pos hre]; exact ⟨rfl, rfl⟩, fun hre => by rw [Ring.restart, hre]; rfl⟩
  case ready =>
    exact congrArg Host.Outcome.next (State.regWrite_ok (by rw [h]; decide) (writeModuleEnable_ready h))
  case refused =>
    refine congrArg Host.Outcome.next (State.regWrite_error ?_ (writeModuleEnable_refused h))
    rcases h with ⟨h, -⟩ | h | h <;> rw [h] <;> decide

end Sys2Proof.Machine
end

section
/-! PROOFS. Cairn's mailbox and boot (R480, R554, R555, R559, R561, R562, R615). -/

namespace Sys2Proof.Machine

/-! ### Writes of MB_COMMAND (R561, R615) -/

theorem registerRow_mailboxRow (v : Word) : registerRow (mailboxRow v) = some (0x5000, writeMailboxCommand v.toNat) := by
  unfold mailboxRow; split <;> rfl

/-- Each row of a mailbox command has its own code, and the last every other. -/
theorem mailboxRow_wf (v : Word) : (mailboxRow v).wf = true := by
  unfold mailboxRow
  split
  case h_9 h1 h2 h3 h4 h5 h6 h7 h8 =>
    have hcode : fld v.toNat 0 8 = 0 ∨ 8 < fld v.toNat 0 8 := by
      generalize fld v.toNat 0 8 = code at *
      grind
    simpa [Instr.wf] using hcode
  all_goals
    rename_i hcode
    exact beq_iff_eq.2 hcode

theorem writeMailboxCommand_reserved {v : Nat} {s : State} (h : fld v 8 56 ≠ 0) : writeMailboxCommand v s = .error 2 := by
  simp [writeMailboxCommand, refuseIf, firstOf, h]

theorem writeMailboxCommand_busy {v : Nat} {s : State} (h : fld v 8 56 = 0) (hb : s.mailbox.busy = true) :
    writeMailboxCommand v s = .error 3 := by
  simp [writeMailboxCommand, refuseIf, firstOf, h, hb]

theorem writeMailboxCommand_queues {v : Nat} {s : State} (h : fld v 8 56 = 0) (hb : s.mailbox.busy = false) :
    writeMailboxCommand v s = .ok { s with
      mailbox := { s.mailbox with code := v, busy := true },
      cairn := { s.cairn with queue := s.cairn.queue ++ [.mailbox v ((List.range 8).map fun i => SMap.get 0 s.mailbox.args i)] } } := by
  rw [writeMailboxCommand, h, hb]; rfl

theorem HotPlug.linked_or_above {h : HotPlug} (hc : 3 ≤ h.code) : h = .linked ∨ 4 ≤ h.code := by
  cases h with
  | linked => exact .inl rfl
  | attested | ready | quiescing | released => exact .inr (by decide)
  | absent | present | powered => exact absurd hc (by decide)

/-- A write of MB_COMMAND from LINKED on. -/
theorem exec_mailboxRow {v : Word} {s : State} (h : 3 ≤ s.power.hot.code) :
    (∀ t, writeMailboxCommand v.toNat s = .ok t → exec (mailboxRow v) s = .next t) ∧
      ∀ c, writeMailboxCommand v.toNat s = .error c → exec (mailboxRow v) s = .next (s.illegalWrite false 0x5000 c) := by
  have hup : 4 ≤ s.power.hot.code ∨ (s.power.hot = .linked ∧ linkedBlock 0x5000 = true) :=
    (HotPlug.linked_or_above h).symm.imp_right fun hl => ⟨hl, rfl⟩
  obtain ⟨htakes, hrefuses⟩ := State.regWrite_open (f := writeMailboxCommand v.toNat) hup
  rw [exec_registerRow (registerRow_mailboxRow v) (mailboxRow_wf v)]
  exact ⟨fun t ht => by rw [htakes t ht], fun c hc => by rw [hrefuses c hc]⟩

/-! ### What mailbox commands change (R559, R562) -/

/-- t differs from s at most in Cairn, the hot-plug state with its alert, records, and the free values taken. -/
def State.mailed (s t : State) : Prop :=
  t = { s with free := t.free, cairn := t.cairn, power := t.power, side := t.side, link := t.link, rings := t.rings, err := t.err,
               heldEvents := t.heldEvents }

section
variable {s t : State}

theorem State.mailed.keeps (h : s.mailed t) : t.mailbox = s.mailbox ∧ t.mem = s.mem ∧ t.cores = s.cores ∧ t.plan = s.plan := by
  refine ⟨?_, ?_, ?_, ?_⟩ <;> rw [h]

theorem State.told.mailed (h : s.told t) : s.mailed t := by unfold State.mailed; rw [h]

theorem State.setHot_mailed (s : State) (h : HotPlug) : s.mailed (s.setHot h) := by
  have hframe := s.setHot_entered h
  unfold State.mailed
  rw [hframe]

theorem State.linkError_told (s : State) (cls src step a : Nat) : s.told (s.linkError cls src step a) :=
  State.told.trans (t := { s with err := { s.err with linkErrors := satAdd 32 s.err.linkErrors 1 } }) rfl (State.event_told _ _ _ _ _ _)

theorem State.mailRecord_mailed (s : State) (addr : Nat) (short : Bool) (bs : List Byte) : s.mailed (s.mailRecord addr short bs).1 := by
  unfold State.mailRecord
  split
  · rfl
  · exact (State.hostWrite_told s addr bs).mailed

theorem State.mailCommit_mailed (s : State) (v : Nat) : s.mailed (s.mailCommit v).1 := by
  unfold State.mailCommit
  dsimp only
  split
  · rfl
  · split <;> rfl

theorem State.mailBootSlot_mailed (s : State) (n : Nat) : s.mailed (s.mailBootSlot n).1 := by
  unfold State.mailBootSlot
  split
  · rfl
  · split
    · rfl
    · dsimp only
      split <;> rfl

theorem State.mailRevoke_mailed (s : State) (n : Nat) : s.mailed (s.mailRevoke n).1 := by
  unfold State.mailRevoke
  extract_lets k used last
  split
  · rfl
  · split <;> rfl

theorem State.stage_mailed (s : State) (addr length : Nat) : s.mailed (s.stage addr length).1 := by
  have hread : s.told (if s.hostError addr length then s.linkError 4 0 noStep addr else s) := by
    split
    · exact State.linkError_told s _ _ _ _
    · rfl
  unfold State.stage
  generalize (if s.hostError addr length then s.linkError 4 0 noStep addr else s) = t at hread ⊢
  dsimp only
  split <;> (unfold State.mailed; rw [hread])

theorem State.mailStage_mailed (s : State) (addr length : Nat) : s.mailed (s.mailStage addr length).1 := by
  have hstage := s.stage_mailed addr length
  unfold State.mailStage
  split
  · rfl
  · split <;> (rename_i hst; rw [hst] at hstage; exact hstage)

/-- A mailbox command, by its code. -/
theorem State.mailCommand_mailed (s : State) (code : Nat) (args : List Nat) : s.mailed (s.mailCommand code args).1 := by
  unfold State.mailCommand
  dsimp only
  split
  · exact s.mailRecord_mailed _ _ _
  · split
    · exact s.setHot_mailed _
    · rfl
  · exact s.mailRecord_mailed _ _ _
  · exact s.mailRecord_mailed _ _ _
  · exact s.mailStage_mailed _ _
  · exact s.mailCommit_mailed _
  · exact s.mailBootSlot_mailed _
  · exact s.mailRevoke_mailed _
  · rfl

theorem State.mailCommand_unlisted {code : Nat} (args : List Nat) (h : code = 0 ∨ 8 < code) : s.mailCommand code args = (s, 1) := by
  unfold State.mailCommand
  dsimp only
  split
  case h_9 => rfl
  all_goals omega

/-- ACCEPT in LINKED with an image that runs. -/
theorem State.mailCommand_accepts (args : List Nat) (h : s.power.hot = .linked) (hr : s.cairn.running ≠ none) :
    s.mailCommand 2 args = (s.setHot .attested, 0) := if_pos ⟨h, Option.isSome_iff_ne_none.2 hr⟩

theorem State.mailCommand_accepts_not (args : List Nat) (h : s.power.hot ≠ .linked ∨ s.cairn.running = none) :
    s.mailCommand 2 args = (s, 4) := by
  refine if_neg ?_
  rintro ⟨hl, hr⟩
  exact h.elim (fun hn => hn hl) (Option.isSome_iff_ne_none.1 hr)

/-- The state with a command of Cairn answered. -/
def State.answered (s : State) (code : Nat) (args : List Nat) (rest : List CairnWork) : State :=
  let t := (s.mailCommand code args).1
  { t with cairn := { t.cairn with queue := rest },
           mailbox := { t.mailbox with busy := false, result := (s.mailCommand code args).2, count := satAdd 32 t.mailbox.count 1 } }

theorem exec_mailboxResult {code : Nat} {args : List Nat} {rest : List CairnWork} (h : s.cairn.queue = .mailbox code args :: rest) :
    exec .mailboxResult s = .next (s.answered code args rest) := by
  simp only [exec, execMailboxResult, h]; rfl

theorem exec_mailboxResult_none (h : s.cairn.queue = []) : exec .mailboxResult s = .next s := by
  simp only [exec, execMailboxResult, h]

end

/-! ### The boot (R554, R555) -/

/-- What a read of a slot's bytes gives where `err` says that it fails. -/
def bootRead (err : Bool) (bytes : List Byte) : Option (List Byte) := if err then none else some bytes

section
variable {k : Cairn} {err : Nat → Bool}

/-- A slot that passes its checks holds an image. -/
theorem Cairn.slot_of_passes {n : Nat} {read : List Byte → Option (List Byte)} (h : k.slotReason n read = none) : ∃ i, k.slot n = some i := by
  cases hs : k.slot n with
  | some i => exact ⟨i, rfl⟩
  | none => rw [Cairn.slotReason, hs] at h; cases h

theorem Cairn.boot_next (h : k.slotReason k.nextSlot (bootRead (err k.nextSlot)) = none) :
    (k.boot err).running = some k.nextSlot ∧ (k.boot err).nextSlot = k.nextSlot := by
  obtain ⟨i, hi⟩ := Cairn.slot_of_passes h
  unfold Cairn.boot
  extract_lets fresh started read a b
  have hpass : started.slotReason a (read a) = none := h
  have hslot : started.slot a = some i := hi
  rw [hpass, hslot]
  exact ⟨rfl, rfl⟩

theorem Cairn.boot_other (h : k.slotReason k.nextSlot (bootRead (err k.nextSlot)) ≠ none)
    (h' : k.slotReason (1 - k.nextSlot) (bootRead (err (1 - k.nextSlot))) = none) :
    (k.boot err).running = some (1 - k.nextSlot) ∧ (k.boot err).nextSlot = 1 - k.nextSlot := by
  obtain ⟨i, hi⟩ := Cairn.slot_of_passes h'
  unfold Cairn.boot
  extract_lets fresh started read a b
  split
  next hpass _ => exact absurd hpass h
  next =>
    extract_lets rejected
    have hpass : rejected.slotReason b (read b) = none := h'
    have hslot : rejected.slot b = some i := hi
    rw [hpass, hslot]
    exact ⟨rfl, rfl⟩

theorem Cairn.boot_none (h : k.slotReason k.nextSlot (bootRead (err k.nextSlot)) ≠ none)
    (h' : k.slotReason (1 - k.nextSlot) (bootRead (err (1 - k.nextSlot))) ≠ none) :
    (k.boot err).running = none ∧ (k.boot err).nextSlot = k.nextSlot := by
  unfold Cairn.boot
  extract_lets fresh started read a b
  split
  next hpass _ => exact absurd hpass h
  next =>
    extract_lets rejected
    split
    next hpass _ => exact absurd hpass h'
    next => exact ⟨rfl, rfl⟩

end

/-- A boot runs the next-boot slot where its image passes, else the other, else none. -/
theorem Cairn.boot_running (k : Cairn) (err : Nat → Bool) :
    (k.boot err).running = (if k.slotReason k.nextSlot (bootRead (err k.nextSlot)) = none then some k.nextSlot
      else if k.slotReason (1 - k.nextSlot) (bootRead (err (1 - k.nextSlot))) = none then some (1 - k.nextSlot) else none) ∧
    (k.boot err).nextSlot = (k.boot err).running.getD k.nextSlot := by
  split
  next h => obtain ⟨hrun, hnext⟩ := Cairn.boot_next h; exact ⟨hrun, by rw [hnext, hrun]; rfl⟩
  next h =>
    split
    next h' => obtain ⟨hrun, hnext⟩ := Cairn.boot_other h h'; exact ⟨hrun, by rw [hnext, hrun]; rfl⟩
    next h' => obtain ⟨hrun, hnext⟩ := Cairn.boot_none h h'; exact ⟨hrun, by rw [hnext, hrun]; rfl⟩

theorem exec_cairnBoot_skips {s : State} (a b : Bool)
    (h : s.power.booted = true ∨ s.power.hot = .absent ∨ (s.power.hot = .present ∧ s.power.softStart = false)) :
    exec (.cairnBoot a b) s = .next s := by
  refine if_neg ?_
  rcases h with h | h | ⟨h, h'⟩ <;> simp [HotPlug.code, *]

theorem exec_cairnBoot_boots {s : State} (a b : Bool) (hb : s.power.booted = false)
    (h : 2 ≤ s.power.hot.code ∨ (s.power.hot = .present ∧ s.power.softStart = true)) :
    exec (.cairnBoot a b) s =
      .next { s with cairn := s.cairn.boot fun n => if n = 0 then a else b, power := { s.power with booted := true } } := by
  refine if_pos ?_
  rcases h with h | ⟨h, h'⟩ <;> simp [*]

/-- Settles O56: the command writes by the check of MB_COMMAND, the results by what each mailbox command changes, and the boot by its two
slots. -/
theorem mailboxRows : Obligations.MailboxRows := by
  refine ⟨fun v s hup => ?_, fun s code args rest hq => ?_, fun s hq => exec_mailboxResult_none hq,
    fun a b s => ⟨exec_cairnBoot_skips a b, fun hb hdue hslot => ?_⟩⟩
  · obtain ⟨htakes, hrefuses⟩ := exec_mailboxRow (v := v) hup
    exact ⟨fun hres hbusy => htakes _ (writeMailboxCommand_queues hres hbusy),
      fun hres hbusy => hrefuses 3 (writeMailboxCommand_busy hres hbusy), fun hres => hrefuses 2 (writeMailboxCommand_reserved hres)⟩
  · obtain ⟨hbox, hmem, hcores, hplan⟩ := (s.mailCommand_mailed code args).keeps
    refine ⟨_, exec_mailboxResult hq, rfl, rfl, rfl, congrArg (fun m => satAdd 32 (Mailbox.count m) 1) hbox, hmem, hcores, hplan,
      fun hcode => ?_, ?_, ?_⟩
    · simp [State.answered, State.mailCommand_unlisted args hcode]
    · rintro rfl hl hr
      simp only [State.answered, State.mailCommand_accepts args hl hr]
      exact ⟨(State.setHot_entered s .attested).hot, trivial⟩
    · rintro rfl hn
      simp [State.answered, State.mailCommand_accepts_not args hn]
  · refine ⟨_, exec_cairnBoot_boots a b hb hdue, rfl, ?_⟩
    have hslots : s.cairn.nextSlot = 0 ∨ s.cairn.nextSlot = 1 := by omega
    obtain ⟨hrun, hnext⟩ := s.cairn.boot_running fun n => if n = 0 then a else b
    refine ⟨hrun.trans ?_, hnext⟩
    rcases hslots with h0 | h1
    · rw [h0]; rfl
    · rw [h1]; rfl

end Sys2Proof.Machine
end

section
/-! PROOFS. The loss of presence and of input power (R477), and the power states (R483, R517-R521). -/

namespace Sys2Proof.Machine

/-! ### The rails (R477) -/

theorem State.alertFrom_power (s t : State) : (s.alertFrom t).power = t.power := by rw [State.alertFrom_alert]

theorem State.powerOff_hot (s : State) (h : HotPlug) : (s.powerOff h).power.hot = h :=
  congrArg Power.hot (State.alertFrom_power s _)

/-- Settles O45: each row is `State.powerOff` of its hot-plug state. -/
theorem presenceAndInputLoss : Obligations.PresenceAndInputLoss :=
  fun s => ⟨fun hhot hpchg => ⟨_, if_pos ⟨hhot, hpchg⟩, s.powerOff_hot .absent⟩,
    fun hhot => ⟨_, if_neg hhot, s.powerOff_hot .present⟩,
    fun habsent => ⟨if_neg fun h => h.1 habsent, if_pos habsent⟩⟩

/-! ### The line of power states (R483, R519) -/

theorem PowerState.toward_above {p g : PowerState} (h : p.code < g.code) : (p.toward g).code = p.code + 1 := by
  rw [PowerState.toward.eq_def, if_pos h]
  cases p with
  | dormant => cases g <;> exact absurd h (by decide)
  | _ => rfl

theorem PowerState.toward_below {p g : PowerState} (h : g.code < p.code) : (p.toward g).code + 1 = p.code := by
  rw [PowerState.toward.eq_def, if_neg (Nat.lt_asymm h)]
  cases p with
  | run => exact absurd h (Nat.not_lt_zero _)
  | _ => rfl

/-- Towards a target that is not above it a state does not rise. -/
theorem PowerState.toward_le {p g : PowerState} (h : ¬ p.code < g.code) : (p.toward g).code ≤ p.code := by
  rw [PowerState.toward.eq_def, if_neg h]
  cases p <;> decide

theorem PowerState.toward_awake {p g : PowerState} (hp : p.code ≤ 2) (hg : g.code ≤ 2) : (p.toward g).code ≤ 2 := by
  by_cases h : p.code < g.code
  · have hnext := PowerState.toward_above h
    omega
  · exact Nat.le_trans (PowerState.toward_le h) hp

/-- What a step of the power state does not change: what descriptors are in progress, and the power state but for the stacks it poisons. -/
def State.powerKept (s t : State) : Prop := t.power = { s.power with poisoning := t.power.poisoning }

section
variable {s t u : State}

theorem State.powerKept.trans (h : s.powerKept t) (h' : t.powerKept u) : s.powerKept u := by
  unfold State.powerKept at *; rw [h', h]

theorem State.powerKept.foldl {α : Type} {f : State → α → State} (h : ∀ (s : State) (x : α), s.powerKept (f s x)) (l : List α) (s : State) :
    s.powerKept (l.foldl f s) := by
  induction l generalizing s with
  | nil => rfl
  | cons x l ih => exact (h s x).trans (ih _)

theorem State.portsOff_frame (s : State) (ps : List Nat) : s.portsOff ps = { s with fabric := (s.portsOff ps).fabric } := by
  unfold State.portsOff
  induction ps generalizing s with
  | nil => rfl
  | cons p ps ih => exact ih (s.setPort p (s.port p).off)

theorem State.portsOff_power (s : State) (ps : List Nat) : (s.portsOff ps).power = s.power := by
  rw [State.portsOff_frame]

theorem State.fabricOff_power (s : State) : s.fabricOff.power = s.power := rfl

theorem State.freshCdie_powerKept (s : State) (c : Nat) : s.powerKept (s.freshCdie c) := by
  unfold State.freshCdie State.powerKept
  rfl

theorem State.resetMdie_powerKept (s : State) (m : Nat) : s.powerKept (s.resetMdie m) := by
  unfold State.resetMdie State.powerKept
  rfl

theorem State.transitionLoss_powerKept (s : State) (p q : PowerState) : s.powerKept (s.transitionLoss p q) := by
  unfold State.transitionLoss
  split
  · unfold State.powerKept
    rw [State.fabricOff_power, State.portsOff_power]
  · exact .foldl State.freshCdie_powerKept _ s
  · exact .foldl State.resetMdie_powerKept _ s
  · rfl

/-- Between RUN, READY and HOLD nothing is lost. -/
theorem State.transitionLoss_awake (s : State) {p q : PowerState} (hp : p.code ≤ 2) (hq : q.code ≤ 2) : s.transitionLoss p q = s := by
  unfold State.transitionLoss
  split
  · exact absurd hq (by decide)
  · exact absurd hp (by decide)
  · exact absurd hp (by decide)
  · rfl

/-- The state in which a transition's event is written. -/
def State.stepped (s : State) (q : PowerState) : State :=
  let s' := s.transitionLoss s.power.state q
  s.alertFrom { s' with power := { s'.power with state := q } }

/-- A transition on a module in READY or QUIESCING, after its event. -/
def State.moved (s : State) (q : PowerState) : State := (s.stepped q).hEvent 0x36 0 (q.code + s.power.state.code <<< 4)

theorem State.moved_logs (s : State) (q : PowerState) : (s.stepped q).logs (s.moved q) :=
  State.event_logs _ 0x36 _ _ _ _ (by decide) (by decide)

theorem State.logs.keeps (h : s.logs t) : t.power = s.power ∧ t.mem = s.mem ∧ t.tiles = s.tiles ∧ t.cores = s.cores ∧ t.plan = s.plan ∧
    t.steps = s.steps ∧ t.descs = s.descs := by
  refine ⟨?_, ?_, ?_, ?_, ?_, ?_, ?_⟩ <;> rw [h]

/-- A completion where there is a descriptor to complete. -/
def State.completeSome (s : State) (d : Option DescRef) (status : Nat) : State := match d with
  | some d => s.complete d status
  | none => s

theorem State.completeSome_frame (s : State) (d : Option DescRef) (status : Nat) : (s.completeSome d status).power = s.power ∧
    (s.completeSome d status).mem = s.mem ∧ (s.completeSome d status).tiles = s.tiles ∧ (s.completeSome d status).cores = s.cores ∧
    (s.completeSome d status).plan = s.plan ∧ (s.completeSome d status).steps = s.steps ∧
    ∀ x, d = some x → (s.completeSome d status).descs = s.descs.erase x := by
  cases d with
  | none => exact ⟨rfl, rfl, rfl, rfl, rfl, rfl, by rintro x ⟨⟩⟩
  | some x =>
    obtain ⟨hpower, hmem, htiles, hcores, hplan, hsteps, hdescs⟩ := (State.completeWith_logs s x status 0 0).keeps
    refine ⟨hpower, hmem, htiles, hcores, hplan, hsteps, ?_⟩
    rintro _ ⟨⟩
    exact hdescs

theorem State.transition_moves (g : PowerState) (h : s.power.hot = .ready ∨ s.power.hot = .quiescing) :
    s.transition g = (let n := s.moved (s.power.state.toward g)
      if s.power.state.toward g = g then
        State.completeSome { n with power := { n.power with target := none, desc := none } } n.power.desc stDone
      else n) := by
  have hawake : (s.power.hot != .ready && s.power.hot != .quiescing) = false := by rcases h with h | h <;> simp [h]
  unfold State.transition
  rw [if_neg (by simp [hawake])]
  rfl

theorem State.transition_cancels (g : PowerState) (h : s.power.hot ≠ .ready) (h' : s.power.hot ≠ .quiescing) :
    s.transition g = State.completeSome { s with power := { s.power with target := none, desc := none } } s.power.desc stWrongState := by
  unfold State.transition
  rw [if_pos (by simp [h, h'])]
  rfl

theorem State.moved_power (s : State) (q : PowerState) :
    (s.moved q).power = { s.power with state := q, poisoning := (s.transitionLoss s.power.state q).power.poisoning } := by
  have hlogs : (s.moved q).power = (s.stepped q).power := (s.moved_logs q).keeps.1
  have hloss : s.powerKept (s.transitionLoss s.power.state q) := s.transitionLoss_powerKept _ q
  rw [hlogs, State.stepped, State.alertFrom_power]
  rw [State.powerKept] at hloss
  rw [hloss]

/-- Between RUN, READY and HOLD memory and cores keep their contents. -/
theorem State.moved_awake {q : PowerState} (hp : s.power.state.code ≤ 2) (hq : q.code ≤ 2) :
    (s.moved q).mem = s.mem ∧ (s.moved q).tiles = s.tiles ∧ (s.moved q).cores = s.cores := by
  obtain ⟨-, hmem, htiles, hcores, -⟩ := (s.moved_logs q).keeps
  rw [hmem, htiles, hcores, State.stepped, State.transitionLoss_awake s hp hq, State.alertFrom_alert]
  exact ⟨rfl, rfl, rfl⟩

/-- A transition of a module in READY or QUIESCING. -/
theorem State.transition_power (g : PowerState) (h : s.power.hot = .ready ∨ s.power.hot = .quiescing) :
    (s.transition g).power.state = s.power.state.toward g ∧ (s.transition g).power.hot = s.power.hot ∧
    (s.transition g).power.target = (if s.power.state.toward g = g then none else s.power.target) := by
  have hmoved := s.moved_power (s.power.state.toward g)
  rw [State.transition_moves g h]
  dsimp only
  split
  · obtain ⟨hpower, -⟩ := State.completeSome_frame _ (s.moved (s.power.state.toward g)).power.desc stDone
    rw [hpower, hmoved]
    exact ⟨rfl, rfl, rfl⟩
  · rw [hmoved]
    exact ⟨rfl, rfl, rfl⟩

theorem State.transition_awake {g : PowerState} (h : s.power.hot = .ready ∨ s.power.hot = .quiescing) (hp : s.power.state.code ≤ 2)
    (hg : g.code ≤ 2) : (s.transition g).mem = s.mem ∧ (s.transition g).tiles = s.tiles ∧ (s.transition g).cores = s.cores := by
  have hmoved := State.moved_awake hp (PowerState.toward_awake hp hg)
  rw [State.transition_moves g h]
  dsimp only
  split
  · obtain ⟨-, hmem, htiles, hcores, -⟩ := State.completeSome_frame _ (s.moved (s.power.state.toward g)).power.desc stDone
    rw [hmem, htiles, hcores]
    exact hmoved
  · exact hmoved

end

/-- Settles O47: a transition moves the power state by `PowerState.toward`, and outside READY and QUIESCING it is cancelled. -/
theorem powerStateSteps : Obligations.PowerStateSteps := by
  intro s
  refine ⟨fun hnone => by simp only [exec, execPowerTransition, hnone], fun g hg => ?_⟩
  have hexec : exec .powerTransition s = .next (s.transition g) := by simp only [exec, execPowerTransition, hg]
  refine ⟨fun hhot => ?_, fun hready hquiescing => ?_⟩
  · obtain ⟨hstate, hkeeps, htarget⟩ := State.transition_power g hhot
    refine ⟨_, hexec, hstate, hkeeps, fun hreach => ?_, fun hreach => ?_, fun hp hq => State.transition_awake hhot hp hq,
      PowerState.toward_above, PowerState.toward_below⟩
    · rw [htarget, if_pos hreach]
    · rw [htarget, if_neg hreach, hg]
  · rw [State.transition_cancels g hready hquiescing] at hexec
    obtain ⟨hpower, hmem, htiles, hcores, hplan, -, hdescs⟩ :=
      State.completeSome_frame { s with power := { s.power with target := none, desc := none } } s.power.desc stWrongState
    exact ⟨_, hexec, hpower, hmem, htiles, hcores, hplan, hdescs⟩

end Sys2Proof.Machine
end

section
/-! PROOFS. A SNAPSHOT of step 2^64 - 1 (R436, R461): its barrier is that of a rank move, whose release completes the move's descriptor. -/

namespace Sys2Proof.Machine

/-- A SNAPSHOT's descriptor whose boundary is step 2^64 - 1. -/
def lateSnapshot : DescRef := ⟨0, 0, 0x0F, 0, moveStep <<< 192⟩

/-- A state with a rank move sent under the number of the snapshots' barrier, on behalf of the same descriptor. -/
def strayMove : State := { fabric := { moves := [⟨lateSnapshot, 0, 0, 0, true, 0, snapBarrier, 0⟩] } }

/-- The arrival at the snapshot's barrier releases that of the rank move, which completes the descriptor. -/
theorem lateSnapshot_completes : lateSnapshot ∉ (descriptorEffect 0x0F strayMove lateSnapshot).descs := by decide +kernel

/-- Refutes O33: its first part takes any state, and in `strayMove` the acceptance of `lateSnapshot` completes it at once, so that it is not
among the descriptors in progress. -/
theorem not_timedDescriptorsWork : ¬ Obligations.TimedDescriptorsWork := by
  intro h
  obtain ⟨haccepted, -, -⟩ := h.1 0x0F strayMove lateSnapshot (by decide)
  exact lateSnapshot_completes haccepted

end Sys2Proof.Machine
end

section
/-! PROOFS. Received packets and collectives that waited keep the power state when they are tried again (R489, R493). -/

namespace Sys2Proof.Machine

/-- The power state of s is k: what every operation on packets, folds and collectives keeps. -/
structure PowerIs (k : Power) (s : State) : Prop where
  eq : s.power = k

/-! ### Composition -/

section
variable {k : Power} {s t : State}

/-- A state with the same power state. -/
theorem PowerIs.upd (h : PowerIs k s) (hp : t.power = s.power := by rfl) : PowerIs k t := ⟨hp.trans h.eq⟩

theorem PowerIs.ite {c : Prop} [Decidable c] (hs : PowerIs k s) (ht : PowerIs k t) : PowerIs k (if c then s else t) := by
  split
  · exact hs
  · exact ht

theorem PowerIs.foldl {β : Type} {f : State → β → State} {l : List β} (h : PowerIs k s)
    (hf : ∀ (s : State) (x : β), PowerIs k s → PowerIs k (f s x)) : PowerIs k (l.foldl f s) := by
  induction l generalizing s with
  | nil => exact h
  | cons x l ih => exact ih (hf s x h)

theorem PowerIs.of_pair {γ : Type} {p : State × γ} {x : γ} (h : PowerIs k p.1) (hp : p = (t, x)) : PowerIs k t := by
  rw [hp] at h; exact h

theorem PowerIs.records (h : PowerIs k s) (hr : s.records t) : PowerIs k t := h.upd (by rw [hr])

theorem PowerIs.counts (h : PowerIs k s) (hr : s.counts t) : PowerIs k t := h.upd (by rw [hr])

theorem PowerIs.stores (h : PowerIs k s) (hr : s.stores t) : PowerIs k t := h.upd (by rw [hr])

theorem PowerIs.marks (h : PowerIs k s) (hr : s.marks t) : PowerIs k t := h.upd (by rw [hr])

theorem PowerIs.links (h : PowerIs k s) (hr : s.links t) : PowerIs k t := h.upd (by rw [hr])

end

variable {k : Power} {s : State}

/-! ### Records, marks, counted reads and writes -/

theorem PowerIs.lEvent {code l step detail : Nat} (h : PowerIs k s) : PowerIs k (s.lEvent code l step detail) :=
  h.records (s.event_records _ _ _ _ _)

theorem PowerIs.crcEvent {p detail : Nat} (h : PowerIs k s) : PowerIs k (s.crcEvent p detail) := h.upd.lEvent

theorem PowerIs.markStain {n : Nat} (h : PowerIs k s) : PowerIs k (s.markStain n) := h.marks (s.markStain_frame n)

theorem PowerIs.markOldest (h : PowerIs k s) : PowerIs k s.markOldest := h.marks s.markOldest_frame

theorem PowerIs.updStep {n : Nat} {f : StepRec → StepRec} (h : PowerIs k s) : PowerIs k (s.updStep n f) := h.upd

theorem PowerIs.raiseStep {n f : Nat} (h : PowerIs k s) : PowerIs k (s.raiseStep n f) := h.updStep

theorem PowerIs.noteRead {a n : Nat} (h : PowerIs k s) : PowerIs k (s.noteRead a n) := h.counts (s.noteRead_counts a n)

theorem PowerIs.retireOwned {key : Nat} (h : PowerIs k s) : PowerIs k (s.retireOwned key) := h.counts (s.retireOwned_counts key)

theorem PowerIs.put {owner a : Nat} {bs : List (Byte × Bool)} (h : PowerIs k s) : PowerIs k (s.put owner a bs) :=
  h.stores (s.put_stores owner a bs)

theorem PowerIs.addToken {c i n : Nat} (h : PowerIs k s) : PowerIs k (s.addToken c i n) :=
  PowerIs.records (h.upd (t := s.onCore c _)) (s.addToken_records c i n)

theorem PowerIs.setPort {p : Nat} {q : Port} (h : PowerIs k s) : PowerIs k (s.setPort p q) := h.upd

/-- An operation that uses table words keeps the power state where its effect does. -/
theorem PowerIs.useTables {ws : List TableWord} {f : State → State} (h : PowerIs k s) (hf : ∀ {t : State}, PowerIs k t → PowerIs k (f t)) :
    PowerIs k (s.useTables ws f) :=
  have hn : PowerIs k (s.noteTables ws) := h.counts (s.noteTables_counts ws)
  .ite hn.markOldest (hf hn)

/-! ### Packets that land -/

section
variable {l : Nat} {q : Packet} {all : Bool}

theorem PowerIs.land (h : PowerIs k s) : PowerIs k (s.land q) :=
  .ite h.upd (PowerIs.ite h.upd.retireOwned.addToken h.upd.retireOwned)

theorem PowerIs.refuseWrite (h : PowerIs k s) : PowerIs k (s.refuseWrite l q) := h.lEvent.markStain

theorem PowerIs.block (h : PowerIs k s) : PowerIs k (s.block l q all) := h.upd

theorem PowerIs.fabricWrite {a : Nat} {bs : List (Byte × Bool)} (h : PowerIs k s) : PowerIs k (s.fabricWrite l q all a bs) :=
  .ite h.refuseWrite (PowerIs.ite h.block h.put.land)

theorem PowerIs.receiveWrite (h : PowerIs k s) : PowerIs k (s.receiveWrite l q all) := by
  unfold State.receiveWrite
  split
  · exact h
  · exact h.useTables fun h => h.fabricWrite

theorem PowerIs.corruptFold (h : PowerIs k s) : PowerIs k (s.corruptFold l q) := .ite h.lEvent.markStain h.lEvent.markOldest

theorem PowerIs.hold (h : PowerIs k s) : PowerIs k (s.hold l q) := .ite h.upd (PowerIs.ite h.upd h.upd.lEvent.markOldest)

theorem PowerIs.countStale (h : PowerIs k s) : PowerIs k s.countStale := h.upd

theorem PowerIs.markRoot {step : Nat} {root : Option (List (Nat × Bool))} (h : PowerIs k s) : PowerIs k (s.markRoot step root) := by
  unfold State.markRoot
  split
  · exact h
  · extract_lets s1
    have h1 : PowerIs k s1 := .ite h.markStain h
    exact .ite h1.updStep h1

theorem PowerIs.deliver {b : Bucket} {step pos off flushes : Nat} {es : List (Nat × Bool)} {t : State} (h : PowerIs k s)
    (ht : s.deliver b step pos off flushes es = some t) : PowerIs k t := by
  unfold State.deliver at ht
  extract_lets at ht
  split at ht
  · cases ht
  · cases ht
    exact h.upd.raiseStep.markRoot

theorem PowerIs.receiveBucket (h : PowerIs k s) : PowerIs k (s.receiveBucket l q all) := by
  unfold State.receiveBucket
  extract_lets
  split
  · exact h.countStale
  · exact h.hold
  · refine h.useTables fun h => ?_
    split
    · rename_i ht; exact h.deliver ht
    · exact h.corruptFold
  · exact h.corruptFold

theorem PowerIs.receiveOstage (h : PowerIs k s) : PowerIs k (s.receiveOstage l q all) := by
  unfold State.receiveOstage
  split
  · exact h.countStale
  · exact h.hold
  · exact h.receiveWrite
  · exact h.corruptFold

/-! ### Packets sent -/

theorem PowerIs.emit (h : PowerIs k s) : PowerIs k (s.emit q l) := .ite h (PowerIs.links h.upd (State.carry_links _ _))

theorem PowerIs.sendData (h : PowerIs k s) : PowerIs k (s.sendData l q) := by
  unfold State.sendData
  refine .ite ?_ ?_
  · split
    · exact h.receiveBucket
    · exact h.receiveOstage
    · exact h.receiveWrite
  · exact h.emit

theorem PowerIs.sendTransfer {o : Outgoing} {bs : List (Byte × Bool)} (h : PowerIs k s) : PowerIs k (s.sendTransfer l o bs) :=
  h.upd.foldl fun _ _ h => h.sendData

end

/-! ### Barriers and collectives -/

section
variable {number step : Nat}

theorem PowerIs.finishCollective (h : PowerIs k s) : PowerIs k (s.finishCollective number step) := by
  unfold State.finishCollective
  split
  · exact .ite ((PowerIs.ite h.upd h.upd).addToken) (PowerIs.ite h.upd h.upd)
  · exact h

theorem PowerIs.tryCollective (h : PowerIs k s) : PowerIs k (s.tryCollective number step) := by
  unfold State.tryCollective
  split
  · exact .ite h (PowerIs.ite h (PowerIs.ite h (PowerIs.ite h.put.raiseStep.finishCollective h.put.finishCollective)))
  · exact h

theorem PowerIs.sendPart {l : Nat} {c : Collective} (h : PowerIs k s) : PowerIs k (s.sendPart l c number step) := by
  unfold State.sendPart
  extract_lets _ _ _ _ _ _ s1 _ s2
  have h1 : PowerIs k s1 := h.noteRead.foldl fun _ _ h => h.upd
  have h2 : PowerIs k s2 := .ite h1 h1.sendTransfer
  exact .ite h2 (h2.foldl fun _ _ h => h.sendTransfer)

theorem PowerIs.beginCollective {o : OpenCollective} (h : PowerIs k s) : PowerIs k (s.beginCollective o) := by
  unfold State.beginCollective
  split
  · exact h
  · exact .ite h ((PowerIs.ite h.sendPart h).upd)

theorem PowerIs.retryCollectives (h : PowerIs k s) : PowerIs k s.retryCollectives := h.foldl fun _ _ h => h.beginCollective.tryCollective

end

/-! ### A packet tried again -/

section
variable {l : Nat} {q : Packet} {all : Bool}

theorem PowerIs.readBuffer {marks : SMap Mark} (h : PowerIs k s) : PowerIs k (s.readBuffer l marks q).1 :=
  h.records (s.readBuffer_records l marks q)

theorem PowerIs.receiveSnapshot (h : PowerIs k s) : PowerIs k (s.receiveSnapshot l q all) := by
  unfold State.receiveSnapshot
  extract_lets
  split
  · exact h.refuseWrite
  · refine .ite h.block ?_
    extract_lets _ _ _ _ _ _ s1
    have h1 : PowerIs k s1 := .ite h h.put
    split
    · exact .ite h1.upd.put h1.upd
    · exact h1.upd

theorem PowerIs.talusAnswer {type step : Nat} {bs : List (Byte × Bool)} (h : PowerIs k s) : PowerIs k (s.talusAnswer l q type step bs) :=
  h.emit

theorem PowerIs.refuseTalus {reason : Nat} (h : PowerIs k s) : PowerIs k (s.refuseTalus l q reason) := h.lEvent.talusAnswer

theorem PowerIs.serveRead (h : PowerIs k s) : PowerIs k (s.serveRead l q all) := by
  unfold State.serveRead
  extract_lets
  split
  · exact h.refuseTalus
  · exact .ite h.refuseTalus (PowerIs.ite h.block h.noteRead.talusAnswer)

theorem PowerIs.serveWrite (h : PowerIs k s) : PowerIs k (s.serveWrite l q all) := by
  unfold State.serveWrite
  split
  · exact h.refuseTalus
  · exact .ite h.block h.put.land

theorem PowerIs.takeIn {p : Nat} (h : PowerIs k s) : PowerIs k (s.takeIn p q) := .ite h h.setPort

theorem PowerIs.settle {old : State} {p : Nat} (h : PowerIs k s) : PowerIs k (old.settle s p q) := .ite h.takeIn h.upd.setPort

end

theorem PowerIs.redo {b : Blocked} (h : PowerIs k s) : PowerIs k (s.redo b) := by
  unfold State.redo
  split
  next hs =>
    have h1 := (h.readBuffer.of_pair hs).crcEvent (p := b.port.getD (8 * b.ldie)) (detail := b.packet.source + 1 <<< 18)
    split
    · exact h1.markOldest.takeIn
    · exact h1.markOldest
  next hs =>
    have h1 := h.readBuffer.of_pair hs
    extract_lets t
    have ht : PowerIs k t := by
      unfold t
      split
      · exact h1.receiveSnapshot
      · exact h1.serveRead
      · exact h1.serveWrite
      · exact h1.receiveWrite
    split
    · exact ht.settle
    · exact ht

theorem PowerIs.unblock (h : PowerIs k s) : PowerIs k s.unblock := by
  unfold State.unblock
  extract_lets
  have h1 : PowerIs k { s with fabric := { s.fabric with blocked := [] } } := h.upd
  exact (h1.foldl (l := s.fabric.blocked) fun _ b h => h.redo (b := b)).retryCollectives

theorem State.unblock_power (s : State) : s.unblock.power = s.power := (PowerIs.unblock ⟨rfl⟩).eq

end Sys2Proof.Machine
end

section
/-! PROOFS. The rows of hot plug, of the link and of resets (R445, R476, R479, R485, R487, R493, R543, R580, R581). -/

namespace Sys2Proof.Machine

section
variable {s t : State}

theorem State.entered.keeps {h : HotPlug} (hst : s.entered h t) : t.power = { s.power with hot := h } ∧ t.mem = s.mem ∧ t.tiles = s.tiles ∧
    t.cores = s.cores ∧ t.plan = s.plan ∧ t.steps = s.steps ∧ t.link.revision = s.link.revision ∧ t.link.reversed = s.link.reversed ∧
    t.side.pchg = s.side.pchg := by
  refine ⟨?_, ?_, ?_, ?_, ?_, ?_, ?_, ?_, ?_⟩ <;> rw [hst]

/-! ### Contacts and link -/

theorem exec_presenceClose_present (h : s.power.hot = .absent) :
    exec .presenceClose s = .next (State.setHot { s with side := { s.side with pchg := true } } .present) := if_pos h

theorem exec_enterPowered_powered (h : s.power.hot = .present) (hsoft : s.power.softStart = true) (hb : s.power.booted = true) :
    ∃ t, exec .enterPowered s = .next t ∧ t.power.hot = .powered :=
  ⟨s.enterPowered, if_pos ⟨h, hsoft, hb⟩, (State.setHot_entered _ .powered).hot⟩

theorem exec_enterPowered_skips (h : s.power.hot ≠ .present ∨ s.power.softStart = false ∨ s.power.booted = false) :
    exec .enterPowered s = .next s := by
  refine if_neg ?_
  rintro ⟨hhot, hsoft, hb⟩
  simp [hhot, hsoft, hb] at h

theorem exec_linkTrained_links {v : BitVec 2} (rev : Bool) (hv : v ≠ 0) (h : s.power.hot = .powered) (hb : s.power.booted = true)
    (hr : s.power.resetting.contains 24 = false) (hcap : v.toNat ≤ s.link.cap) :
    exec (.linkTrained v rev) s = .next (State.setHot { s with link := { s.link with revision := v.toNat, reversed := rev } } .linked) := by
  have hv' : v.toNat ≠ 0 := fun h0 => hv (BitVec.eq_of_toNat_eq h0)
  simp only [exec, execLinkTrained]
  rw [if_neg hv', if_neg (by simpa [h, hb] using ⟨by simpa using hr, hcap⟩)]

theorem exec_linkTrained_skips {v : BitVec 2} (rev : Bool) (hv : v ≠ 0) (h : s.power.hot ≠ .powered ∨ s.power.booted = false ∨
    s.power.resetting.contains 24 = true ∨ s.link.cap < v.toNat) : exec (.linkTrained v rev) s = .next s := by
  have hv' : v.toNat ≠ 0 := fun h0 => hv (BitVec.eq_of_toNat_eq h0)
  simp only [exec, execLinkTrained]
  rw [if_neg hv', if_pos h]

/-- The state with its rings cut from a link that has gone down, and no quiesce. -/
def State.unlinked (s : State) : State :=
  { s with rings := SMap.mapVals Ring.init (fun r => { r with relinked := r.enable }) s.rings, power := { s.power with quiesce := none } }

theorem exec_linkDown_up (h : s.linkUp = true) :
    exec .linkDown s = .next ((s.unlinked.setHot .powered).completeSome s.power.quiesce stDone) := by
  simp only [exec, execLinkDown, h]
  rfl

/-- With the link down the module is POWERED and quiesces no longer; its power state and what it holds are as before. -/
theorem State.unlinked_keeps (s : State) : ∃ t, t = (s.unlinked.setHot .powered).completeSome s.power.quiesce stDone ∧
    t.power = { s.power with hot := .powered, quiesce := none } ∧ t.plan = s.plan ∧ t.mem = s.mem ∧ t.tiles = s.tiles ∧ t.cores = s.cores ∧
    t.steps = s.steps := by
  obtain ⟨hpower, hmem, htiles, hcores, hplan, hsteps, -⟩ := (State.setHot_entered s.unlinked .powered).keeps
  obtain ⟨hpower', hmem', htiles', hcores', hplan', hsteps', -⟩ := (s.unlinked.setHot .powered).completeSome_frame s.power.quiesce stDone
  exact ⟨_, rfl, hpower'.trans hpower, hplan'.trans hplan, hmem'.trans hmem, htiles'.trans htiles, hcores'.trans hcores,
    hsteps'.trans hsteps⟩

theorem exec_linkDown_down (h : s.linkUp = false) : exec .linkDown s = .next s := by
  simp only [exec, execLinkDown, h]
  rfl

/-! ### The end of QUIESCING (R485) -/

theorem State.release_powerMem (s : State) (d : DescRef) : (s.release d).power = { s.power with hot := .released, quiesce := none } ∧
    (s.release d).mem = s.mem := by
  unfold State.release
  extract_lets s1 s2 s3
  have h1 : s1.power = s.power ∧ s1.mem = s.mem := by
    obtain ⟨hpower, hmem, -⟩ := (State.tellReads_logs (s.portsOff (List.range 32))).keeps
    exact ⟨hpower.trans (s.portsOff_power _), hmem.trans (by rw [State.portsOff_frame])⟩
  have h2 : s2.power = s1.power ∧ s2.mem = s1.mem := by
    have hflush : s1.told (if s1.eventsOpen then s1.flushHeld else s1) := by
      split
      · exact State.flushHeld_told s1
      · rfl
    have hlost : s1.told s2 := hflush.trans (State.reportLost_told _)
    exact ⟨by rw [hlost], by rw [hlost]⟩
  clear_value s1 s2
  obtain ⟨hpower3, hmem3, -⟩ := (State.completeWith_logs s2 d stDone 0 0).keeps
  have h3 : s3.power = s2.power ∧ s3.mem = s2.mem := ⟨hpower3, hmem3⟩
  clear_value s3
  obtain ⟨hpower, hmem, -⟩ := (State.setHot_entered { s3 with power := { s3.power with quiesce := none } } .released).keeps
  rw [hpower, hmem]
  exact ⟨by rw [h3.1, h2.1, h1.1], by rw [h3.2, h2.2, h1.2]⟩

theorem exec_quiesceDrained_releases {d : DescRef} (hq : s.power.quiesce = some d) (h : s.power.hot = .quiescing) (hd : s.drained d = true) :
    exec .quiesceDrained s = .next (s.release d) := by
  simp only [exec, execQuiesceDrained, hq]
  exact if_pos ⟨h, hd⟩

theorem exec_quiesceDrained_idle (h : s.power.quiesce = none ∨ s.power.hot ≠ .quiescing) : exec .quiesceDrained s = .next s := by
  simp only [exec, execQuiesceDrained]
  split
  next d hq => exact if_neg fun hh => h.elim (fun h0 => by rw [h0] at hq; cases hq) fun h1 => h1 hh.1
  next => rfl

theorem exec_quiesceDrained_waits {d : DescRef} (hq : s.power.quiesce = some d) (hd : s.drained d = false) :
    exec .quiesceDrained s = .next s := by
  simp only [exec, execQuiesceDrained, hq]
  exact if_neg fun hh => by rw [hd] at hh; exact Bool.false_ne_true hh.2

/-! ### Resets and poisonings that end (R493, R543) -/

theorem mem_filter_bne {l : List Nat} {x y : Nat} (h : y ≠ x) : y ∈ l.filter (fun z => z != x) ↔ y ∈ l := by simp [h]

theorem contains_filter_bne (l : List Nat) (x : Nat) : (l.filter fun z => z != x).contains x = false := by simp

theorem filter_bne_of_notMem {l : List Nat} {x : Nat} (h : x ∉ l) : (l.filter fun z => z != x) = l :=
  List.filter_eq_self.2 fun _ hy => bne_iff_ne.2 fun hyx => h (hyx ▸ hy)

theorem exec_resetDone_device {d : BitVec 5} (hd : d.toNat = 24) :
    exec (.resetDone d) s = .next { s with power := { s.power with resetting := [] } } := by
  simp only [exec, execResetDone, hd]; rfl

theorem exec_resetDone_die {d : BitVec 5} (hd : d.toNat < 24) : exec (.resetDone d) s =
    .next { s with power := { s.power with resetting := s.power.resetting.filter fun x => x != d.toNat } } := by
  simp only [exec, execResetDone]
  rw [if_neg (by omega), if_neg (by omega)]

/-- The state with a stack no longer being poisoned. -/
def State.poisoned (s : State) (m : Nat) : State := { s with power := { s.power with poisoning := s.power.poisoning.filter fun x => x != m } }

/-- Where no packet and no collective waits there is nothing to try again. -/
theorem State.unblock_idle (hb : s.fabric.blocked = []) (hc : s.collectives = []) : s.unblock = s := by
  unfold State.unblock
  rw [hb]
  have hidle : ({ s with fabric := { s.fabric with blocked := [] } } : State) = s := by rw [← hb]
  rw [List.foldl_nil, hidle]
  exact s.retryCollectives_idle hc

end

/-- Settles O46: each row by its own equation, and the packets tried again by `State.unblock_power`. -/
theorem hotPlugRows : Obligations.HotPlugRows := by
  intro s
  refine ⟨fun h => ?_, fun h => if_neg h, exec_enterPowered_powered, exec_enterPowered_skips, fun v rev hv h hb hr hcap => ?_,
    fun v rev hv h => exec_linkTrained_skips rev hv h, fun h => ?_, exec_linkDown_down, fun d hq h hd => ?_, exec_quiesceDrained_idle,
    fun d => exec_quiesceDrained_waits, fun d hd => ?_, fun m hm => ?_⟩
  case refine_1 =>
    obtain ⟨hpower, hmem, -, -, -, -, -, -, hpchg⟩ := (State.setHot_entered { s with side := { s.side with pchg := true } } .present).keeps
    exact ⟨_, exec_presenceClose_present h, congrArg Power.hot hpower, hpchg, hpower, hmem⟩
  case refine_2 =>
    obtain ⟨hpower, hmem, -, -, -, -, hrevision, hreversed, -⟩ :=
      (State.setHot_entered { s with link := { s.link with revision := v.toNat, reversed := rev } } .linked).keeps
    exact ⟨_, exec_linkTrained_links rev hv h hb hr hcap, congrArg Power.hot hpower, hrevision, hreversed, hmem⟩
  case refine_3 =>
    obtain ⟨t, ht, hpower, hplan, hmem, htiles, hcores, hsteps⟩ := s.unlinked_keeps
    exact ⟨t, ht ▸ exec_linkDown_up h, by rw [hpower], by rw [hpower], hplan, hmem, htiles, hcores, hsteps, by rw [hpower]⟩
  case refine_4 =>
    obtain ⟨hpower, hmem⟩ := s.release_powerMem d
    exact ⟨_, exec_quiesceDrained_releases hq h hd, by rw [hpower], by rw [hpower], hmem⟩
  case refine_5 =>
    rcases Nat.lt_or_eq_of_le hd with hdie | hdevice
    · refine ⟨_, exec_resetDone_die hdie, contains_filter_bne _ _, rfl, fun h24 => absurd h24 (Nat.ne_of_lt hdie),
        fun _ x hx => mem_filter_bne hx, fun _ hnot => ?_⟩
      rw [filter_bne_of_notMem hnot]
    · exact ⟨_, exec_resetDone_device hdevice, rfl, rfl, fun _ => rfl, fun h24 => absurd hdevice (Nat.ne_of_lt h24),
        fun h24 => absurd hdevice (Nat.ne_of_lt h24)⟩
  case refine_6 =>
    have hpoisoning : (s.poisoned m.toNat).unblock.power.poisoning = s.power.poisoning.filter fun x => x != m.toNat := by
      rw [State.unblock_power]; rfl
    refine ⟨(s.poisoned m.toNat).unblock, if_neg (by omega), rfl, ?_, fun x hx => ?_, fun hb hc => ⟨?_, fun hnot => ?_⟩⟩
    · rw [hpoisoning]; exact contains_filter_bne _ _
    · rw [hpoisoning]; exact mem_filter_bne hx
    · rw [hpoisoning]; exact State.unblock_idle (s := s.poisoned m.toNat) hb hc
    · rw [State.unblock_idle (s := s.poisoned m.toNat) hb hc, State.poisoned, filter_bne_of_notMem hnot]

end Sys2Proof.Machine
end

section
/-! PROOFS. Samples, warnings and the counts of the service processors (R474, R502, R527, R528, R533-R535, R548, R570, R571, R609). -/

namespace Sys2Proof.Machine

/-! ### A record written with the link up (R457, R474) -/

section
variable {s t : State}

theorem State.hostWrite_err (h : s.linkUp = true) (a : Nat) (bs : List Byte) : (s.hostWrite a bs).err = s.err := by
  rw [State.hostWrite, if_pos h]

theorem State.interrupt_linked (i : Nat) (h : s.linkUp = true) (hwf : SMap.wf Ring.init s.rings = true) :
    ((s.interrupt i).ring i).prod = (s.ring i).prod ∧ (s.interrupt i).err = s.err := by
  unfold State.interrupt
  extract_lets r
  split
  · rw [State.ring_setRing _ _ _ hwf]
    exact ⟨rfl, rfl⟩
  · refine ⟨?_, State.hostWrite_err (s := s.setRing i { r with holding := decide (r.holdoff ≠ 0) }) h _ _⟩
    rw [State.ring_congr (State.hostWrite_rings _ _ _), State.ring_setRing _ _ _ hwf]

theorem State.putRecord_linked (i body : Nat) (h : s.linkUp = true) (hwf : SMap.wf Ring.init s.rings = true) :
    ((s.putRecord i body).ring i).prod = ((s.ring i).prod + 1) % 2 ^ 32 ∧ (s.putRecord i body).err = s.err := by
  unfold State.putRecord
  rw [if_neg (by simp [h])]
  extract_lets r phase a
  have hrings : (s.hostWrite a (leBytes 32 (setFld body 8 1 phase))).rings = s.rings := State.hostWrite_rings _ _ _
  have herr : (s.hostWrite a (leBytes 32 (setFld body 8 1 phase))).err = s.err := State.hostWrite_err h _ _
  have hup : (s.hostWrite a (leBytes 32 (setFld body 8 1 phase))).linkUp = true := by rw [State.linkUp, State.hostWrite_told]; exact h
  generalize s.hostWrite a (leBytes 32 (setFld body 8 1 phase)) = t at hrings herr hup ⊢
  have hwf' : SMap.wf Ring.init t.rings = true := by rw [hrings]; exact hwf
  obtain ⟨hprod, herr'⟩ := State.interrupt_linked (s := t.setRing i { r with prod := (r.prod + 1) % 2 ^ 32 }) i hup (SMap.wf_set _ _ _ _ hwf')
  rw [State.ring_setRing _ _ _ hwf'] at hprod
  exact ⟨hprod, herr'.trans herr⟩

/-- An event that waits for nothing, where the event ring has room: its record is written and nothing is lost. -/
theorem State.event_linked {code : Nat} (cls src step detail : Nat) (hcode : code ≠ 0x19) (hcode' : code ≠ 0x38)
    (hon : (s.ring eventRing).enable = true) (hroom : (s.ring eventRing).full = false) (h : s.linkUp = true) (hhot : s.power.hot ≠ .released)
    (hlost : s.err.lostUnreported = 0) (hwf : SMap.wf Ring.init s.rings = true) :
    ((s.event code cls src step detail).ring eventRing).prod = ((s.ring eventRing).prod + 1) % 2 ^ 32 ∧
      (s.event code cls src step detail).err = s.err := by
  have hheld : (code == 0x19 || code == 0x38) = false := by simp [hcode, hcode']
  have hreport : s.reportLost = s := by rw [State.reportLost, if_pos (by simp [hlost])]
  have hput (body : Nat) : s.putEvent body = s.putRecord eventRing body := by
    rw [State.putEvent, if_neg (by simp [hon, hroom, hhot])]
  simp only [State.event, hheld, Bool.false_and, Bool.false_eq_true, if_false, hreport, hput]
  exact State.putRecord_linked _ _ h hwf

end

theorem bit_eq_testBit (x n : Nat) : bit x n = x.testBit n := by
  rw [bit, Nat.testBit_eq_decide_div_mod_eq, Nat.shiftRight_eq_div_pow]
  rfl

/-! ### What samples and warnings change -/

/-- t differs from s at most in what the monitor holds, in the crest log and in records. -/
def State.sensed (s t : State) : Prop :=
  t = { s with monitor := t.monitor, crest := { s.crest with log := t.crest.log }, link := t.link, rings := t.rings, err := t.err }

/-- t differs from s at most in the warnings of the dies' and stacks' sensors, in the crest log and in records. -/
def State.warned (s t : State) : Prop :=
  t = { s with monitor := { s.monitor with junctionWarn := t.monitor.junctionWarn, junctionPeak := t.monitor.junctionPeak,
                                           stackWarn := t.monitor.stackWarn, stackPeak := t.monitor.stackPeak },
               crest := { s.crest with log := t.crest.log }, link := t.link, rings := t.rings, err := t.err }

section
variable {s t u : State}

theorem State.sensed.trans (h : s.sensed t) (h' : t.sensed u) : s.sensed u :=
  Eq.trans h' (congrArg (fun x : State => { x with monitor := u.monitor, crest := { x.crest with log := u.crest.log }, link := u.link,
                                                   rings := u.rings, err := u.err }) h)

theorem State.logs.sensed (h : s.logs t) : s.sensed t := by unfold State.sensed; rw [h]

theorem State.warned.sensed (h : s.warned t) : s.sensed t := by unfold State.sensed; rw [h]

theorem State.warned.trans (h : s.warned t) (h' : t.warned u) : s.warned u :=
  Eq.trans h' (congrArg (fun x : State =>
    { x with monitor := { x.monitor with junctionWarn := u.monitor.junctionWarn, junctionPeak := u.monitor.junctionPeak,
                                         stackWarn := u.monitor.stackWarn, stackPeak := u.monitor.stackPeak },
             crest := { x.crest with log := u.crest.log }, link := u.link, rings := u.rings, err := u.err }) h)

theorem State.logs.warned (h : s.logs t) : s.warned t := by unfold State.warned; rw [h]

/-- What samples and warnings leave. -/
theorem State.sensed.keeps (h : s.sensed t) : t.mem = s.mem ∧ t.tiles = s.tiles ∧ t.cores = s.cores ∧ t.plan = s.plan ∧ t.steps = s.steps ∧
    t.scales = s.scales ∧ t.store = s.store ∧ t.power = s.power := by
  refine ⟨?_, ?_, ?_, ?_, ?_, ?_, ?_, ?_⟩ <;> rw [h]

theorem State.warned.monitored (h : s.warned t) : t.monitor.readings = s.monitor.readings ∧ t.monitor.hot = s.monitor.hot ∧
    t.crest.counter = s.crest.counter := by
  refine ⟨?_, ?_, ?_⟩ <;> rw [h]

theorem State.hEvent_logs (s : State) {code : Nat} (src detail : Nat) (h : code ≠ 0x19) (h' : code ≠ 0x38) : s.logs (s.hEvent code src detail) :=
  State.event_logs _ _ _ _ _ _ h h'

/-- The warning that a sample begins or ends, with its event. -/
theorem State.warned.hEvent (h : s.warned t) {code : Nat} (src detail : Nat) (hc : code ≠ 0x19) (hc' : code ≠ 0x38) :
    s.warned (t.hEvent code src detail) := h.trans (State.hEvent_logs t src detail hc hc').warned

theorem State.watchJunction_warned (s : State) (n : Nat) (v : Int) : s.warned (s.watchJunction n v) := by
  unfold State.watchJunction
  extract_lets m level marked peak
  have hmarked : s.warned marked := by
    unfold marked
    split <;> rfl
  have hmonitor : marked.monitor = m := by
    unfold marked
    split <;> rfl
  clear_value marked
  split
  · split
    · exact State.warned.hEvent (t := { marked with monitor := { m with junctionWarn := true, junctionPeak := unsigned 16 v } })
        (by unfold State.warned; rw [hmarked]) _ _ (by decide) (by decide)
    · exact hmarked
  · split
    · exact State.warned.hEvent (t := { marked with monitor := { m with junctionWarn := false, junctionPeak := 0 } })
        (by unfold State.warned; rw [hmarked]) _ _ (by decide) (by decide)
    · unfold State.warned; rw [hmarked]

theorem State.watchStack_warned (s : State) (n : Nat) (v : Int) : s.warned (s.watchStack n v) := by
  unfold State.watchStack
  extract_lets m level peak
  split
  · split
    · exact State.warned.hEvent (t := { s with monitor := { m with stackWarn := true, stackPeak := unsigned 16 v } })
        rfl _ _ (by decide) (by decide)
    · rfl
  · split
    · exact State.warned.hEvent (t := { s with monitor := { m with stackWarn := false, stackPeak := 0 } }) rfl _ _ (by decide) (by decide)
    · rfl

/-! ### Samples of the dies and stacks (R528, R609) -/

/-- The state after the readout and the warnings of a sample, before the trip is looked for. -/
def State.readOut (s : State) (n v : Nat) : State :=
  if !s.processors then s
  else if n ≤ 48 then (s.setReading n v).watchJunction n (signed 16 v) else (s.setReading n v).watchStack n (signed 16 v)

theorem State.readOut_warned (s : State) (n v : Nat) (h : s.processors = true) : (s.setReading n v).warned (s.readOut n v) := by
  unfold State.readOut
  rw [if_neg (by simp [h])]
  split
  · exact State.watchJunction_warned _ n _
  · exact State.watchStack_warned _ n _

theorem State.readOut_idle (s : State) (n v : Nat) (h : s.processors = false) : s.readOut n v = s := if_pos (by simp [h])

theorem State.readOut_sensed (s : State) (n v : Nat) : s.sensed (s.readOut n v) := by
  by_cases h : s.processors = true
  · exact State.sensed.trans (t := s.setReading n v) rfl (s.readOut_warned n v h).sensed
  · rw [s.readOut_idle n v (Bool.eq_false_iff.2 h)]
    rfl

theorem State.readOut_hot (s : State) (n v : Nat) : (s.readOut n v).monitor.hot = s.monitor.hot ∧
    (s.readOut n v).crest.counter = s.crest.counter := by
  by_cases h : s.processors = true
  · obtain ⟨-, hhot, hcounter⟩ := (s.readOut_warned n v h).monitored
    exact ⟨hhot, hcounter⟩
  · rw [s.readOut_idle n v (Bool.eq_false_iff.2 h)]
    exact ⟨rfl, rfl⟩

theorem exec_sensorSample_die {n : BitVec 7} (v : BitVec 16) (hn : n.toNat ≤ 60) (hp : s.powered = true)
    (hs : sensorStopped s.power.state n.toNat = false) : exec (.sensorSample n v) s = .next (s.sampleDie n.toNat v.toNat) := by
  simp only [exec, execSensorSample, hp, hs]
  rw [if_neg (by omega), if_neg (by omega), if_neg (by omega)]
  rfl

/-- The second sample in a row at the trip level: the module is off, and the trip record says why. -/
theorem State.watchTrip_trips {n : Nat} {v : Int} (hv : 1150 ≤ v) (h : s.monitor.hot.contains n = true) :
    s.watchTrip n v = s.doTrip true n (v / 10).toNat := by
  unfold State.watchTrip
  rw [if_neg (by simp [tripJunction]; omega), if_pos h]

/-- A sample that does not trip: the sensor is noted where it is at the trip level, and only then. -/
theorem State.watchTrip_notes {n : Nat} {v : Int} (h : v < 1150 ∨ s.monitor.hot.contains n = false) :
    ∃ hot, s.watchTrip n v = { s with monitor := { s.monitor with hot := hot } } ∧ (hot.contains n = true ↔ 1150 ≤ v) := by
  unfold State.watchTrip
  by_cases hv : v < 10 * (tripJunction : Nat)
  · rw [if_pos hv]
    refine ⟨_, rfl, ?_⟩
    rw [contains_filter_bne]
    simp only [tripJunction] at hv
    constructor
    · intro hc; cases hc
    · intro hc; omega
  · simp only [tripJunction] at hv
    have hnew : s.monitor.hot.contains n = false := h.resolve_left (by omega)
    rw [if_neg (by simp [tripJunction]; omega), if_neg (by rw [hnew]; exact Bool.false_ne_true)]
    refine ⟨_, rfl, fun _ => by omega, fun _ => by simp⟩

theorem State.doTrip_trip (s : State) (n value : Nat) : (s.doTrip true n value).power.hot = .present ∧
    (s.doTrip true n value).side.trip = s.recordTrip true n value := by
  unfold State.doTrip
  rw [State.alertFrom_alert]
  exact ⟨s.powerOff_hot .present, rfl⟩

theorem State.sampleDie_junction {n : Nat} (v : Nat) (hn : n ≤ 48) : s.sampleDie n v = (s.readOut n v).watchTrip n (signed 16 v) := if_pos hn

theorem State.sampleDie_stack {n : Nat} (v : Nat) (hn : ¬ n ≤ 48) : s.sampleDie n v = s.readOut n v := if_neg hn

theorem State.sampleDie_sensed {n v : Nat} (h : n ≤ 48 → signed 16 v < 1150 ∨ s.monitor.hot.contains n = false) :
    s.sensed (s.sampleDie n v) := by
  have hread := s.readOut_sensed n v
  by_cases hn : n ≤ 48
  · obtain ⟨hot, hnote, -⟩ := State.watchTrip_notes (s := s.readOut n v) (by rw [(s.readOut_hot n v).1]; exact h hn)
    rw [State.sampleDie_junction v hn, hnote]
    exact hread.trans rfl
  · rw [State.sampleDie_stack v hn]
    exact hread

/-- What a sample that does not trip is stored as, and what it notes. -/
theorem State.sampleDie_stores {n v : Nat} (hp : s.processors = true) (hwf : SMap.wf (0x8000, 0) s.monitor.readings = true)
    (h : n ≤ 48 → signed 16 v < 1150 ∨ s.monitor.hot.contains n = false) :
    SMap.get (0x8000, 0) (s.sampleDie n v).monitor.readings n = (v, s.crest.counter % 2 ^ 32) ∧
      (n ≤ 48 → ((s.sampleDie n v).monitor.hot.contains n = true ↔ 1150 ≤ signed 16 v)) := by
  obtain ⟨hreadings, hhot, -⟩ := (s.readOut_warned n v hp).monitored
  have hstored : SMap.get (0x8000, 0) (s.readOut n v).monitor.readings n = (v, s.crest.counter % 2 ^ 32) := by
    rw [hreadings]; exact SMap.get_set_eq _ _ _ _ hwf
  by_cases hn : n ≤ 48
  · obtain ⟨hot, hnote, hiff⟩ := State.watchTrip_notes (s := s.readOut n v) (v := signed 16 v) (by rw [hhot]; exact h hn)
    rw [State.sampleDie_junction v hn, hnote]
    exact ⟨hstored, fun _ => hiff⟩
  · rw [State.sampleDie_stack v hn]
    exact ⟨hstored, fun h' => absurd h' hn⟩

/-! ### The carrier's samples (R533, R534, R609) -/

theorem State.withMonitor_sensed (s : State) (m : Monitor) : s.sensed { s with monitor := m } := rfl

theorem State.coolantOut_sensed (s : State) (k v : Nat) : s.sensed (s.coolantOut k v) := by
  unfold State.coolantOut
  extract_lets m was n
  have hn : s.sensed (if was || !s.processors then n else n.hEvent 0x34 (if k = 2 then 63 else 61) (k + v <<< 16)) := by
    split
    · rfl
    · exact State.sensed.trans (t := n) rfl (State.hEvent_logs n _ _ (by decide) (by decide)).sensed
  exact hn.trans rfl

theorem State.coolantIn_sensed (s : State) (inlet flow : Bool) (n v : Nat) : s.sensed (s.coolantIn inlet flow n v) := by
  unfold State.coolantIn
  extract_lets m m' t
  split
  · exact State.sensed.trans (t := t) rfl (State.hEvent_logs t _ _ (by decide) (by decide)).sensed
  · rfl

theorem State.watchCoolant_sensed (s : State) (n v : Nat) : s.sensed (s.watchCoolant n v) := by
  unfold State.watchCoolant
  extract_lets m
  split
  · exact (s.withMonitor_sensed _).trans (State.coolantIn_sensed _ _ _ _ _)
  next _ k _ =>
    split
    · exact (s.withMonitor_sensed _).trans (State.coolantOut_sensed _ k v)
    · exact s.withMonitor_sensed _

theorem State.watchPower_sensed (s : State) (v : Nat) : s.sensed (s.watchPower v) := by
  unfold State.watchPower
  extract_lets high _ n
  split
  · rfl
  · have hn : s.sensed (if s.monitor.powerHigh || !s.processors then n else n.hEvent 0x35 0 v) := by
      split
      · rfl
      · exact State.sensed.trans (t := n) rfl (State.hEvent_logs n _ _ (by decide) (by decide)).sensed
    exact hn.trans rfl

/-- A condition marked in the log entry of the running crest. -/
theorem State.markCrest_bit {b i : Nat} (hwf : SMap.wf 0 s.crest.log = true) (hb : bit (BitVec.ofNat 8 b).toNat i = true) :
    bit (SMap.get 0 (s.markCrest b).crest.log (s.crest.counter % 65536)).toNat i = true := by
  show bit (SMap.get 0 (SMap.set 0 s.crest.log (s.crest.counter % 65536)
    (SMap.get 0 s.crest.log (s.crest.counter % 65536) ||| BitVec.ofNat 8 b)) (s.crest.counter % 65536)).toNat i = true
  rw [SMap.get_set_eq _ _ _ _ hwf, BitVec.toNat_or, bit_eq_testBit, Nat.testBit_or, ← bit_eq_testBit (BitVec.ofNat 8 b).toNat, hb,
    Bool.or_true]

/-- The coolant out of range is noted and marks the crest, whether its event is written or not. -/
theorem State.coolantOut_marks {k v : Nat} (hwf : SMap.wf 0 s.crest.log = true) :
    (if k = 2 then (s.coolantOut k v).monitor.flowOut else (s.coolantOut k v).monitor.inletOut) = true ∧
    bit (SMap.get 0 (s.coolantOut k v).crest.log (s.crest.counter % 65536)).toNat 2 = true ∧
    (s.coolantOut k v).crest.counter = s.crest.counter := by
  unfold State.coolantOut
  extract_lets m was n
  have hn : n.logs (if was || !s.processors then n else n.hEvent 0x34 (if k = 2 then 63 else 61) (k + v <<< 16)) := by
    split
    · rfl
    · exact State.hEvent_logs n _ _ (by decide) (by decide)
  generalize (if was || !s.processors then n else n.hEvent 0x34 (if k = 2 then 63 else 61) (k + v <<< 16)) = x at hn ⊢
  have hmonitor : x.monitor = n.monitor := by rw [hn]
  have hcrest : x.crest = s.crest := by rw [hn]
  refine ⟨?_, ?_, ?_⟩
  · show (if k = 2 then x.monitor.flowOut else x.monitor.inletOut) = true
    rw [hmonitor]
    unfold n
    split <;> rfl
  · have hbit := State.markCrest_bit (s := x) (b := 4) (i := 2) (by rw [hcrest]; exact hwf) (by decide)
    rw [← hcrest]
    exact hbit
  · show x.crest.counter = s.crest.counter
    rw [hcrest]

theorem State.coolantIn_clears (s : State) (n v : Nat) : (s.coolantIn true true n v).monitor.inletOut = false ∧
    (s.coolantIn true true n v).monitor.flowOut = false ∧ (s.coolantIn true true n v).crest.log = s.crest.log := by
  unfold State.coolantIn
  extract_lets m m' t
  have ht : t.logs (if (m.inletOut || m.flowOut) && !m'.inletOut && !m'.flowOut && s.processors then t.hEvent 0x34 n (3 + v <<< 16) else t) := by
    split
    · exact State.hEvent_logs t _ _ (by decide) (by decide)
    · rfl
  have hmonitor : t.monitor.inletOut = false ∧ t.monitor.flowOut = false := ⟨Bool.and_false _, Bool.and_false _⟩
  rw [ht]
  exact ⟨hmonitor.1, hmonitor.2, rfl⟩

/-- The power above its warning level is noted and marks the crest. -/
theorem State.watchPower_marks {v : Nat} (hwf : SMap.wf 0 s.crest.log = true) (h : s.power.warnPower ≠ 0) (hv : s.power.warnPower < v) :
    (s.watchPower v).monitor.powerHigh = true ∧ bit (SMap.get 0 (s.watchPower v).crest.log (s.crest.counter % 65536)).toNat 4 = true := by
  have hhigh : (s.power.warnPower != 0 && decide (s.power.warnPower < v)) = true := by simp [h, hv]
  unfold State.watchPower
  extract_lets high _ n
  rw [if_neg (by simp [high, hhigh])]
  have hn : n.logs (if s.monitor.powerHigh || !s.processors then n else n.hEvent 0x35 0 v) := by
    split
    · rfl
    · exact State.hEvent_logs n _ _ (by decide) (by decide)
  generalize (if s.monitor.powerHigh || !s.processors then n else n.hEvent 0x35 0 v) = x at hn ⊢
  have hcrest : x.crest = s.crest := by rw [hn]
  have hmonitor : x.monitor = n.monitor := by rw [hn]
  refine ⟨(congrArg Monitor.powerHigh hmonitor).trans hhigh, ?_⟩
  have hbit := State.markCrest_bit (s := x) (b := 16) (i := 4) (by rw [hcrest]; exact hwf) (by decide)
  rw [← hcrest]
  exact hbit

/-! ### The rows -/

theorem exec_sensorSample_sensed {n : BitVec 7} (v : BitVec 16) (hn : n.toNat ≤ 67)
    (h : n.toNat ≤ 48 → signed 16 v.toNat < 1150 ∨ s.monitor.hot.contains n.toNat = false) :
    ∃ t, exec (.sensorSample n v) s = .next t ∧ s.sensed t := by
  show ∃ t, execSensorSample n v s = .next t ∧ s.sensed t
  unfold execSensorSample
  rw [if_neg (Nat.not_lt.2 hn)]
  split
  · extract_lets _ input
    have hinput : s.sensed input := rfl
    clear_value input
    refine ⟨_, rfl, ?_⟩
    split
    · exact hinput.trans (State.watchPower_sensed _ _)
    · exact hinput
  · split
    · extract_lets _ board read
      have hboard : s.sensed board := rfl
      have hread : s.sensed read := by
        unfold read
        split
        · exact hboard.trans rfl
        · exact hboard
      clear_value board read
      split
      · exact ⟨_, rfl, hboard⟩
      · refine ⟨_, rfl, ?_⟩
        split
        · exact hread.trans (State.watchCoolant_sensed _ _ _)
        · exact hread
    · split
      · exact ⟨s, rfl, rfl⟩
      · exact ⟨_, rfl, State.sampleDie_sensed h⟩

theorem exec_coolantEvent_out {k : BitVec 2} {v : BitVec 16} (hp : s.powered = true) (h3 : k ≠ 3)
    (hk : coolantKind (if k = 2 then 63 else 61) v.toNat = some k.toNat) : exec (.coolantEvent k v) s = .next (s.coolantOut k.toNat v.toNat) := by
  have h3' : k.toNat ≠ 3 := fun h => h3 (BitVec.eq_of_toNat_eq h)
  have h2 : k.toNat = 2 ↔ k = 2 := ⟨fun h => BitVec.eq_of_toNat_eq h, fun h => by rw [h]; rfl⟩
  simp only [exec, execCoolantEvent, hp, h2]
  rw [if_neg (by decide), if_neg h3', if_pos hk]

theorem exec_coolantEvent_skips {k : BitVec 2} {v : BitVec 16} (h3 : k ≠ 3)
    (hk : coolantKind (if k = 2 then 63 else 61) v.toNat ≠ some k.toNat) : exec (.coolantEvent k v) s = .next s := by
  have h3' : k.toNat ≠ 3 := fun h => h3 (BitVec.eq_of_toNat_eq h)
  have h2 : k.toNat = 2 ↔ k = 2 := ⟨fun h => BitVec.eq_of_toNat_eq h, fun h => by rw [h]; rfl⟩
  simp only [exec, execCoolantEvent, h2]
  rw [if_neg h3', if_neg hk, ite_self]

theorem exec_coolantEvent_in (v : BitVec 16) (hp : s.powered = true) :
    exec (.coolantEvent 3 v) s = .next (s.coolantIn true true 61 v.toNat) := by
  simp only [exec, execCoolantEvent, hp]
  rfl

theorem exec_coolantEvent_sensed (k : BitVec 2) (v : BitVec 16) : ∃ t, exec (.coolantEvent k v) s = .next t ∧ s.sensed t := by
  simp only [exec, execCoolantEvent]
  generalize (if k.toNat = 2 then 63 else 61) = sensor
  split
  · exact ⟨s, rfl, rfl⟩
  · split
    · exact ⟨_, rfl, s.coolantIn_sensed _ _ _ _⟩
    · split
      · exact ⟨_, rfl, s.coolantOut_sensed _ _⟩
      · exact ⟨s, rfl, rfl⟩

theorem exec_powerWarning_warns {v : BitVec 16} (hp : s.powered = true) (h : s.power.warnPower ≠ 0) (hv : s.power.warnPower < v.toNat) :
    exec (.powerWarning v) s = .next (s.watchPower v.toNat) := if_neg (by simp [hp, h, hv])

theorem exec_powerWarning_sensed (v : BitVec 16) : ∃ t, exec (.powerWarning v) s = .next t ∧ s.sensed t := by
  simp only [exec, execPowerWarning]
  split
  · exact ⟨s, rfl, rfl⟩
  · exact ⟨_, rfl, s.watchPower_sensed _⟩

theorem exec_stackFault_tells {m e : BitVec 4} (hm : m.toNat < 12) (he : e.toNat ≤ 2) (hp : s.powered = true) :
    exec (.stackFault m e) s = .next (s.event 0x27 6 m.toNat noStep e.toNat) := by
  simp only [exec, execStackFault]
  rw [if_neg (by omega), if_pos hp]

theorem exec_stackFault_sensed {m e : BitVec 4} (hm : m.toNat < 12) (he : e.toNat ≤ 2) :
    ∃ t, exec (.stackFault m e) s = .next t ∧ s.sensed t := by
  simp only [exec, execStackFault]
  rw [if_neg (by omega)]
  split
  · exact ⟨_, rfl, (State.event_logs s _ _ _ _ _ (by decide) (by decide)).sensed⟩
  · exact ⟨s, rfl, rfl⟩

theorem exec_processorRestart_counts (p : BitVec 2) (h : s.processors = true) : ∃ t, exec (.processorRestart p) s = .next t ∧
    t.cairn.restarts = s.cairn.restarts.modify p.toNat (fun n => satAdd 8 n 1) ∧ t.cairn.logTotal = s.cairn.logTotal + 1 ∧
    t = { s with cairn := t.cairn } := by
  simp only [exec, execProcessorRestart, h, if_true]
  exact ⟨_, rfl, rfl, rfl, rfl⟩

theorem exec_firewalledAccess_counts (p : BitVec 2) (h : s.processors = true) :
    exec (.firewalledAccess p) s = .next { s with cairn := { s.cairn with firewall := satAdd 32 s.cairn.firewall 1 } } := if_pos h

/-- The counts of the service processors change Cairn alone. -/
theorem exec_processors_cairn (p : BitVec 2) (i : Instr) (h : i = .processorRestart p ∨ i = .firewalledAccess p) :
    ∃ k, exec i s = .next { s with cairn := k } := by
  by_cases hp : s.processors = true
  · rcases h with rfl | rfl
    · obtain ⟨t, ht, -, -, hframe⟩ := exec_processorRestart_counts p hp
      exact ⟨t.cairn, by rw [← hframe]; exact ht⟩
    · exact ⟨_, exec_firewalledAccess_counts p hp⟩
  · rcases h with rfl | rfl
    · exact ⟨s.cairn, if_neg hp⟩
    · exact ⟨s.cairn, if_neg hp⟩

end

/-- Settles O49: a sample by its readout and its watch on the trip level, the warnings by what they mark, and the frame by `State.sensed`. -/
theorem sensorsAndWarnings : Obligations.SensorsAndWarnings := by
  intro s
  refine ⟨fun n v hn hp hproc hs hwf hcool => ?_, fun n v hn hp hs hv hhot => ?_, fun k v hp => ⟨fun h3 hk hwf => ?_,
    fun h3 hk => exec_coolantEvent_skips h3 hk, ?_⟩, fun v hp h hv hwf => ?_, fun m e hm he hp => ⟨exec_stackFault_tells hm he hp,
      fun hon hroom hup hhot hlost hwf => ?_⟩, exec_processorRestart_counts, exec_firewalledAccess_counts,
    fun n v k m e p i hn hm he hcool hi => ?_⟩
  case refine_1 =>
    obtain ⟨hstored, hnoted⟩ := State.sampleDie_stores hproc hwf hcool
    exact ⟨_, exec_sensorSample_die v hn hp hs, hstored, hnoted⟩
  case refine_2 =>
    obtain ⟨hkept, hcounter⟩ := s.readOut_hot n.toNat v.toNat
    have htrip : s.sampleDie n.toNat v.toNat = (s.readOut n.toNat v.toNat).doTrip true n.toNat (signed 16 v.toNat / 10).toNat :=
      (State.sampleDie_junction _ hn).trans (State.watchTrip_trips hv (by rw [hkept]; exact hhot))
    obtain ⟨hoff, hrecord⟩ := (s.readOut n.toNat v.toNat).doTrip_trip n.toNat (signed 16 v.toNat / 10).toNat
    refine ⟨_, exec_sensorSample_die v (by omega) hp hs, ?_⟩
    rw [htrip, hrecord]
    exact ⟨hoff, rfl, rfl, rfl, rfl, hcounter⟩
  case refine_3 =>
    have h2 : k.toNat = 2 ↔ k = 2 := ⟨fun h => BitVec.eq_of_toNat_eq h, fun h => by rw [h]; rfl⟩
    obtain ⟨hnoted, hmarked, hcounter⟩ := State.coolantOut_marks (k := k.toNat) (v := v.toNat) hwf
    simp only [h2] at hnoted
    exact ⟨_, exec_coolantEvent_out hp h3 hk, hnoted, hmarked, hcounter⟩
  case refine_4 => exact ⟨_, exec_coolantEvent_in v hp, s.coolantIn_clears 61 v.toNat⟩
  case refine_5 => exact ⟨_, exec_powerWarning_warns hp h hv, State.watchPower_marks hwf h hv⟩
  case refine_6 =>
    exact ⟨_, exec_stackFault_tells hm he hp, State.event_linked _ _ _ _ (by decide) (by decide) hon hroom hup hhot hlost hwf⟩
  case refine_7 =>
    have hsensed : (∃ t, exec i s = .next t ∧ s.sensed t) ∨ i = .processorRestart p ∨ i = .firewalledAccess p := by
      simp only [List.mem_cons, List.not_mem_nil, or_false] at hi
      rcases hi with rfl | rfl | rfl | rfl | hi
      · exact .inl (exec_sensorSample_sensed v hn hcool)
      · exact .inl (exec_coolantEvent_sensed k v)
      · exact .inl (exec_powerWarning_sensed v)
      · exact .inl (exec_stackFault_sensed hm he)
      · exact .inr hi
    rcases hsensed with ⟨t, ht, hframe⟩ | hcounts
    · exact ⟨t, ht, hframe.keeps⟩
    · obtain ⟨c, hc⟩ := exec_processors_cairn (s := s) p i hcounts
      exact ⟨_, hc, rfl, rfl, rfl, rfl, rfl, rfl, rfl, rfl⟩

end Sys2Proof.Machine
end

section
/-! PROOFS. Die resets and the device reset (R493, R543-R546): the reset of one die, the dies that a command names, and what a device reset
leaves. -/

namespace Sys2Proof.Machine

/-! ### Unwritten memory (R493) -/

/-- The byte at a canonical address is 0 and its granule holds the sweep pattern. -/
def Memory.unwritten (m : Memory) (c : Nat) : Prop := m.byte c = 0 ∧ m.markAt (c - c % granuleAt c) = .sweep

theorem Memory.unwritten.readAt {m : Memory} {c : Nat} (h : m.unwritten c) : m.readAt c = (0, true) := by
  obtain ⟨hbyte, hmark⟩ := h
  refine Prod.ext hbyte ?_
  simp only [Memory.readAt, Memory.seen, hmark]
  split <;> rfl

theorem State.loadByte_unwritten {s : State} {a : Nat} (ha : stackView ≤ a) (h : s.mem.unwritten a) : s.loadByte a = (0, true) := by
  rw [State.loadByte_eq, canon_of_stackView_le a ha, h.readAt]

theorem Memory.byte_poison_in (m : Memory) {lo hi x : Nat} (h1 : lo ≤ x) (h2 : x < hi) : (m.poison lo hi).byte x = 0 :=
  (Memory.byte_cover_in m ⟨lo, hi, 0, .sweep⟩ x h1 h2).trans (by simp)

/-- A poisoning leaves unwritten memory unwritten. -/
theorem Memory.unwritten.poison {m : Memory} {c : Nat} (h : m.unwritten c) (lo hi : Nat) : (m.poison lo hi).unwritten c := by
  obtain ⟨hbyte, hmark⟩ := h
  constructor
  · by_cases hc : lo ≤ c ∧ c < hi
    · exact Memory.byte_poison_in m hc.1 hc.2
    · exact (Memory.byte_cover_out m _ c (by dsimp only; omega)).trans hbyte
  · by_cases hc : lo ≤ c - c % granuleAt c ∧ c - c % granuleAt c < hi
    · exact Memory.markAt_cover_in m _ _ hc.1 hc.2
    · exact (Memory.markAt_cover_out m _ _ (by dsimp only; omega)).trans hmark

/-- A poisoning from the start of a word leaves its range unwritten. -/
theorem Memory.poison_unwritten (m : Memory) {lo hi c : Nat} (hlo : lo % 8 = 0) (h1 : lo ≤ c) (h2 : c < hi) :
    (m.poison lo hi).unwritten c :=
  ⟨Memory.byte_poison_in m h1 h2,
    Memory.markAt_cover_in m _ _ (Nat.not_lt.1 (mt (granuleStart_lt_iff c lo hlo).1 (Nat.not_lt.2 h1))) (by dsimp only; omega)⟩

/-! ### The cores of a C-die (R543) -/

theorem SMap.get_dropRange {α : Type} (d : α) (m : SMap α) (lo hi k : Nat) :
    SMap.get d (SMap.dropRange m lo hi) k = if lo ≤ k ∧ k < hi then d else SMap.get d m k := by
  induction m with
  | nil => simp [SMap.dropRange]
  | cons p rest ih =>
    obtain ⟨i, x⟩ := p
    rw [SMap.dropRange] at ih ⊢
    by_cases hi' : i < lo ∨ hi ≤ i
    · rw [List.filter_cons_of_pos (by simpa using hi'), SMap.get, SMap.get, ih]
      by_cases hk : i = k
      · rw [if_pos hk, if_pos hk, if_neg (by omega)]
      · rw [if_neg hk, if_neg hk]
    · rw [List.filter_cons_of_neg (by simpa using hi'), ih, SMap.get]
      by_cases hk : i = k
      · rw [if_pos (by omega), if_pos (by omega)]
      · rw [if_neg hk]

theorem State.core_resetCdie (s : State) (d c : Nat) :
    (s.resetCdie d).core c = if 32 * d ≤ c ∧ c < 32 * (d + 1) then CoreState.init else s.core c := SMap.get_dropRange _ _ _ _ _

/-! ### The ports of an L-die (R402, R543) -/

/-- The ports taken to DISABLED keep only their caps, and no other port changes. -/
theorem State.port_portsOff (s : State) (ps : List Nat) (q : Nat) (h : SMap.wf Port.init s.fabric.ports = true) :
    (s.portsOff ps).port q = if q ∈ ps then (s.port q).off else s.port q := by
  induction ps generalizing s with
  | nil => simp [State.portsOff]
  | cons p ps ih =>
    have hrest : (s.portsOff (p :: ps)).port q =
        if q ∈ ps then ((s.setPort p (s.port p).off).port q).off else (s.setPort p (s.port p).off).port q :=
      ih (s.setPort p (s.port p).off) (SMap.wf_set _ _ _ _ h)
    rw [hrest]
    by_cases hq : q = p
    · rw [hq, State.port_setPort h, if_pos (List.mem_cons_self ..)]
      exact ite_self _
    · simp only [State.port_setPort_ne h hq, List.mem_cons, hq, false_or]

theorem State.portsOff_wf (s : State) (ps : List Nat) (h : SMap.wf Port.init s.fabric.ports = true) :
    SMap.wf Port.init (s.portsOff ps).fabric.ports = true := by
  induction ps generalizing s with
  | nil => exact h
  | cons p ps ih => exact ih (s.setPort p (s.port p).off) (SMap.wf_set _ _ _ _ h)

/-- The ports of L-die l. -/
def diePorts (l : Nat) : List Nat := (List.range 8).map fun i => 8 * l + i

theorem mem_diePorts {l q : Nat} : q ∈ diePorts l ↔ l = q / 8 := by
  simp only [diePorts, List.mem_map, List.mem_range]
  exact ⟨fun ⟨i, hi, hq⟩ => by omega, fun h => ⟨q % 8, by omega, by omega⟩⟩

theorem State.resetLdie_ports (s : State) (l : Nat) : (s.resetLdie l).fabric.ports = (s.portsOff (diePorts l)).fabric.ports := by
  unfold State.resetLdie
  extract_lets t f
  dsimp only
  split <;> rfl

theorem State.resetLdie_fabric (s : State) (l : Nat) :
    s.resetLdie l = { s with fabric := (s.resetLdie l).fabric, tables := (s.resetLdie l).tables } := by
  unfold State.resetLdie
  extract_lets t f
  have ht : t = { s with fabric := t.fabric, tables := t.tables } :=
    congrArg (fun x : State => { x with tables := t.tables }) (State.portsOff_frame s (diePorts l))
  dsimp only
  rw [ht]

theorem State.resetLdie_cores (s : State) (l : Nat) : (s.resetLdie l).cores = s.cores := by rw [State.resetLdie_fabric]

theorem State.resetLdie_mdies (s : State) (l : Nat) : (s.resetLdie l).mdies = s.mdies := by rw [State.resetLdie_fabric]

theorem State.resetLdie_mem (s : State) (l : Nat) : (s.resetLdie l).mem = s.mem := by rw [State.resetLdie_fabric]

theorem State.resetLdie_power (s : State) (l : Nat) : (s.resetLdie l).power = s.power := by rw [State.resetLdie_fabric]

/-! ### The reset of one die, by its number in the error log (R543) -/

/-- The reset of die d: C-dies 0 to 7, M-dies 8 to 19, L-dies from 20. -/
def State.resetDie (s : State) (d : Nat) : State :=
  if d < 8 then s.resetCdie d else if d < 20 then s.resetMdie (d - 8) else s.resetLdie (d - 20)

theorem State.resetNamed_eq (s : State) (v : Nat) : s.resetNamed v = ((resetDies v).foldl State.resetDie s).beginReset (resetDies v) := rfl

theorem mem_resetDies {v d : Nat} : d ∈ resetDies v ↔ d < 24 ∧ bit v d = true := by simp [resetDies]

section
variable {s t u : State} {d : Nat}

theorem State.resetDie_c (h : d < 8) : s.resetDie d = s.resetCdie d := if_pos h

theorem State.resetDie_m (h : 8 ≤ d) (h' : d < 20) : s.resetDie d = s.resetMdie (d - 8) := by
  rw [State.resetDie, if_neg (Nat.not_lt.2 h), if_pos h']

/-- The die is of one of the three kinds. -/
theorem State.resetDie_cases (s : State) (d : Nat) :
    (d < 8 ∧ s.resetDie d = s.resetCdie d) ∨ (8 ≤ d ∧ d < 20 ∧ s.resetDie d = s.resetMdie (d - 8)) ∨
      (20 ≤ d ∧ s.resetDie d = s.resetLdie (d - 20)) := by
  rcases Nat.lt_or_ge d 8 with hc | hc
  · exact .inl ⟨hc, if_pos hc⟩
  · rcases Nat.lt_or_ge d 20 with hm | hm
    · exact .inr (.inl ⟨hc, hm, State.resetDie_m hc hm⟩)
    · exact .inr (.inr ⟨hm, (if_neg (Nat.not_lt.2 hc)).trans (if_neg (Nat.not_lt.2 hm))⟩)

/-- t differs from s at most in what die resets change: cores, core map, memories, M-dies with their merge buffers, table words, fabric, and the
stacks that are being poisoned. -/
def State.diesReset (s t : State) : Prop :=
  t = { s with cores := t.cores, spares := t.spares, coreMap := t.coreMap, mem := t.mem, tiles := t.tiles, mdies := t.mdies, merge := t.merge,
               tables := t.tables, fabric := t.fabric, power := { s.power with poisoning := t.power.poisoning } }

theorem State.diesReset.trans (h : s.diesReset t) (h' : t.diesReset u) : s.diesReset u :=
  Eq.trans h' (congrArg (fun x : State =>
    { x with cores := u.cores, spares := u.spares, coreMap := u.coreMap, mem := u.mem, tiles := u.tiles, mdies := u.mdies, merge := u.merge,
             tables := u.tables, fabric := u.fabric, power := { x.power with poisoning := u.power.poisoning } }) h)

theorem State.resetDie_diesReset (s : State) (d : Nat) : s.diesReset (s.resetDie d) := by
  unfold State.diesReset
  obtain ⟨-, heq⟩ | ⟨-, -, heq⟩ | ⟨-, heq⟩ := s.resetDie_cases d
  · rw [heq]; rfl
  · rw [heq]; rfl
  · rw [heq, State.resetLdie_fabric]

theorem State.resetDie_code (s : State) (d : Nat) : (s.resetDie d).code = s.code := by rw [s.resetDie_diesReset d]

/-! ### What the reset of one die does to each core, M-die, port and byte -/

theorem State.core_resetDie (s : State) (d : Nat) {c : Nat} (hc : c < 256) :
    (s.resetDie d).core c = if c / 32 = d then CoreState.init else s.core c := by
  obtain ⟨hd, heq⟩ | ⟨hd, hd', heq⟩ | ⟨hd, heq⟩ := s.resetDie_cases d
  · rw [heq, State.core_resetCdie]
    exact if_congr (by omega) rfl rfl
  · rw [heq, if_neg (by omega)]
    exact State.core_congr rfl c
  · rw [heq, if_neg (by omega)]
    exact State.core_congr (s.resetLdie_cores _) c

theorem State.resetDie_mdies_wf (s : State) (d : Nat) (h : SMap.wf MDie.init s.mdies = true) :
    SMap.wf MDie.init (s.resetDie d).mdies = true := by
  obtain ⟨hd, heq⟩ | ⟨hd, hd', heq⟩ | ⟨hd, heq⟩ := s.resetDie_cases d
  · rw [heq]; exact h
  · rw [heq]; exact SMap.wf_set _ _ _ _ h
  · rw [heq, State.resetLdie_mdies]; exact h

theorem State.mdie_resetDie (s : State) (d : Nat) {m : Nat} (hm : m < 12) (h : SMap.wf MDie.init s.mdies = true) :
    (s.resetDie d).mdie m = if 8 + m = d then MDie.init else s.mdie m := by
  obtain ⟨hd, heq⟩ | ⟨hd, hd', heq⟩ | ⟨hd, heq⟩ := s.resetDie_cases d
  · rw [heq, if_neg (by omega)]
    rfl
  · rw [heq]
    by_cases hm' : 8 + m = d
    · rw [if_pos hm', show d - 8 = m by omega]
      exact State.mdie_setMdie s m MDie.init h
    · rw [if_neg hm']
      exact State.mdie_setMdie_ne s (d - 8) m MDie.init h (by omega)
  · rw [heq, if_neg (by omega), State.mdie, State.resetLdie_mdies, State.mdie]

theorem State.mem_poisoning_resetDie (s : State) (d : Nat) {m : Nat} (hm : m < 12) :
    m ∈ (s.resetDie d).power.poisoning ↔ 8 + m = d ∨ m ∈ s.power.poisoning := by
  obtain ⟨hd, heq⟩ | ⟨hd, hd', heq⟩ | ⟨hd, heq⟩ := s.resetDie_cases d
  · rw [heq]
    exact (or_iff_right (by omega)).symm
  · have hlist : (s.resetMdie (d - 8)).power.poisoning = s.power.poisoning.filter (fun x => x != d - 8) ++ [d - 8] := rfl
    rw [heq, hlist, List.mem_append, List.mem_singleton]
    by_cases hm' : m = d - 8
    · exact iff_of_true (.inr hm') (.inl (by omega))
    · rw [mem_filter_bne hm', or_iff_left hm', or_iff_right (by omega)]
  · rw [heq, State.resetLdie_power]
    exact (or_iff_right (by omega)).symm

theorem State.resetDie_ports_wf (s : State) (d : Nat) (h : SMap.wf Port.init s.fabric.ports = true) :
    SMap.wf Port.init (s.resetDie d).fabric.ports = true := by
  obtain ⟨hd, heq⟩ | ⟨hd, hd', heq⟩ | ⟨hd, heq⟩ := s.resetDie_cases d
  · rw [heq]; exact h
  · rw [heq]; exact h
  · rw [heq, State.resetLdie_ports]; exact s.portsOff_wf _ h

theorem State.port_resetDie (s : State) (d : Nat) {q : Nat} (h : SMap.wf Port.init s.fabric.ports = true) :
    (s.resetDie d).port q = if 20 + q / 8 = d then (s.port q).off else s.port q := by
  obtain ⟨hd, heq⟩ | ⟨hd, hd', heq⟩ | ⟨hd, heq⟩ := s.resetDie_cases d
  · rw [heq, if_neg (by omega)]
    rfl
  · rw [heq, if_neg (by omega)]
    rfl
  · have hports : (s.resetLdie (d - 20)).port q = (s.portsOff (diePorts (d - 20))).port q := by
      rw [State.port, State.resetLdie_ports, State.port]
    rw [heq, hports, State.port_portsOff _ _ _ h]
    exact if_congr (mem_diePorts.trans (by omega)) rfl rfl

/-- A die reset writes no memory: it poisons. -/
theorem State.unwritten_resetDie {a : Nat} (h : s.mem.unwritten a) : (s.resetDie d).mem.unwritten a := by
  obtain ⟨hd, heq⟩ | ⟨hd, hd', heq⟩ | ⟨hd, heq⟩ := s.resetDie_cases d
  · rw [heq]
    exact (((h.poison _ _).poison _ _).poison _ _).poison _ _
  · rw [heq]
    exact (h.poison _ _).poison _ _
  · rw [heq, State.resetLdie_mem]
    exact h

theorem State.store_resetDie {a : Nat} (hd : d < 8) (h1 : storeBase + d * 2 ^ 28 ≤ a) (h2 : a < storeBase + (d + 1) * 2 ^ 28) :
    (s.resetDie d).mem.unwritten a := by
  have hstore : (s.mem.poison (storeBase + 32 * d * 2 ^ 23) (storeBase + 32 * (d + 1) * 2 ^ 23)).unwritten a := by
    have hspan (k : Nat) : 32 * k * 2 ^ 23 = k * 2 ^ 28 := by omega
    rw [hspan, hspan]
    exact Memory.poison_unwritten _ (by unfold storeBase; omega) h1 h2
  rw [State.resetDie_c hd]
  exact ((hstore.poison _ _).poison _ _).poison _ _

theorem State.acc_resetDie {a : Nat} (hd : d < 8) (h1 : accBase + d * 2 ^ 26 ≤ a) (h2 : a < accBase + (d + 1) * 2 ^ 26) :
    (s.resetDie d).mem.unwritten a := by
  have hacc (m : Memory) : (m.poison (accBase + 32 * d * 2 ^ 21) (accBase + 32 * (d + 1) * 2 ^ 21)).unwritten a := by
    have hspan (k : Nat) : 32 * k * 2 ^ 21 = k * 2 ^ 26 := by omega
    rw [hspan, hspan]
    exact Memory.poison_unwritten _ (by unfold accBase; omega) h1 h2
  rw [State.resetDie_c hd]
  exact ((hacc _).poison _ _).poison _ _

theorem State.stack_resetDie {m o : Nat} (hm : m < 12) (ho : o < s.code.stackBytes) :
    (s.resetDie (8 + m)).mem.unwritten (stackView + m * 2 ^ 36 + o) := by
  rw [State.resetDie_m (by omega) (by omega), Nat.add_sub_cancel_left]
  exact Memory.poison_unwritten _ (by unfold stackView; omega) (Nat.le_add_right _ _) (Nat.add_lt_add_left ho _)

end

/-! ### The resets of the dies that a command names (R544) -/

section
variable {s : State}

theorem State.foldl_resetDie_diesReset (l : List Nat) (s : State) : s.diesReset (l.foldl State.resetDie s) := by
  induction l generalizing s with
  | nil => rfl
  | cons d l ih => exact (s.resetDie_diesReset d).trans (ih _)

theorem State.core_foldl_resetDie (l : List Nat) (s : State) {c : Nat} (hc : c < 256) :
    (l.foldl State.resetDie s).core c = if c / 32 ∈ l then CoreState.init else s.core c := by
  induction l generalizing s with
  | nil => simp
  | cons d l ih =>
    rw [List.foldl_cons, ih, State.core_resetDie _ _ hc]
    by_cases hd : c / 32 = d <;> simp [hd]

theorem State.mdie_foldl_resetDie (l : List Nat) (s : State) {m : Nat} (hm : m < 12) (h : SMap.wf MDie.init s.mdies = true) :
    (l.foldl State.resetDie s).mdie m = if 8 + m ∈ l then MDie.init else s.mdie m := by
  induction l generalizing s with
  | nil => simp
  | cons d l ih =>
    rw [List.foldl_cons, ih _ (s.resetDie_mdies_wf d h), State.mdie_resetDie _ _ hm h]
    by_cases hd : 8 + m = d <;> simp [hd]

theorem State.mem_poisoning_foldl_resetDie (l : List Nat) (s : State) {m : Nat} (hm : m < 12) :
    m ∈ (l.foldl State.resetDie s).power.poisoning ↔ 8 + m ∈ l ∨ m ∈ s.power.poisoning := by
  induction l generalizing s with
  | nil => simp
  | cons d l ih => rw [List.foldl_cons, ih, State.mem_poisoning_resetDie _ _ hm, List.mem_cons, ← or_assoc, or_comm (a := 8 + m ∈ l)]

theorem State.port_foldl_resetDie (l : List Nat) (s : State) {q : Nat} (h : SMap.wf Port.init s.fabric.ports = true) :
    (l.foldl State.resetDie s).port q = if 20 + q / 8 ∈ l then (s.port q).off else s.port q := by
  induction l generalizing s with
  | nil => simp
  | cons d l ih =>
    rw [List.foldl_cons, ih _ (s.resetDie_ports_wf d h), State.port_resetDie _ _ h]
    by_cases hd : 20 + q / 8 = d
    · rw [if_pos hd, if_pos (List.mem_cons.2 (.inl hd))]
      exact ite_self _
    · simp only [hd, if_false, List.mem_cons, false_or]

theorem State.foldl_resetDie_keeps_unwritten (l : List Nat) {a : Nat} (h : s.mem.unwritten a) : (l.foldl State.resetDie s).mem.unwritten a := by
  induction l generalizing s with
  | nil => exact h
  | cons d l ih => exact ih (State.unwritten_resetDie h)

/-- What the reset of one named die leaves unwritten on every module of this ordering code is unwritten after all. -/
theorem State.foldl_resetDie_leaves_unwritten {l : List Nat} {d a : Nat} (hd : d ∈ l)
    (h : ∀ t : State, t.code = s.code → (t.resetDie d).mem.unwritten a) : (l.foldl State.resetDie s).mem.unwritten a := by
  induction l generalizing s with
  | nil => cases hd
  | cons e l ih =>
    rcases List.mem_cons.1 hd with rfl | hd
    · exact State.foldl_resetDie_keeps_unwritten l (h s rfl)
    · exact ih hd fun t ht => h t (ht.trans (s.resetDie_code e))

/-! ### The commands (R544) -/

/-- A write of the reset control register from ATTESTED on, its reserved bits 0 and not both the device and dies named. -/
theorem State.writeReset {v : Word} (h : 4 ≤ s.power.hot.code) (hv : fld v.toNat 24 8 = 0) (hv' : fld v.toNat 33 31 = 0)
    (hone : (bit v.toNat 32 && fld v.toNat 0 24 != 0) = false) :
    ((fld v.toNat 0 24 != 0 && s.resetForbidden v.toNat) = false →
      s.regWrite 0x418 (writeResetControl v.toNat) = if bit v.toNat 32 then s.deviceReset else s.resetNamed v.toNat) ∧
    ((fld v.toNat 0 24 != 0 && s.resetForbidden v.toNat) = true →
      s.regWrite 0x418 (writeResetControl v.toNat) = s.illegalWrite false 0x418 3) := by
  obtain ⟨htaken, hrefused, -⟩ := State.regWrite_checked_idle (off := 0x418) h
    (rfl : writeResetControl v.toNat s = refuseIf [(_, 2), (_, 3)] _)
  have hlegal : (fld v.toNat 24 8 != 0 || fld v.toNat 33 31 != 0 || (bit v.toNat 32 && fld v.toNat 0 24 != 0)) = false := by
    rw [hone, hv, hv']; rfl
  exact ⟨htaken hlegal, hrefused hlegal⟩

/-- The three rows of die resets are one register write. -/
theorem exec_dieReset {v : Word} {i : Instr} (hi : i ∈ [Instr.cReset v, .mReset v, .lReset v]) :
    exec i s = .next (s.regWrite 0x418 (writeResetControl v.toNat)) := by
  simp only [List.mem_cons, List.not_mem_nil, or_false] at hi
  rcases hi with rfl | rfl | rfl <;> rfl

section
variable {v : Word} {i : Instr}

theorem exec_dieReset_refused (h : 4 ≤ s.power.hot.code) (hv : fld v.toNat 24 8 = 0) (hv' : fld v.toNat 33 31 = 0)
    (hdie : bit v.toNat 32 = false) (hnamed : fld v.toNat 0 24 ≠ 0) (hforbidden : s.resetForbidden v.toNat = true)
    (hi : i ∈ [Instr.cReset v, .mReset v, .lReset v]) : exec i s = .next (s.illegalWrite false 0x418 3) := by
  obtain ⟨-, hrefused⟩ := State.writeReset h hv hv' (by rw [hdie, Bool.false_and])
  rw [exec_dieReset hi, hrefused (by rw [hforbidden, Bool.and_true]; exact bne_iff_ne.2 hnamed)]

theorem exec_dieReset_named (h : 4 ≤ s.power.hot.code) (hv : fld v.toNat 24 8 = 0) (hv' : fld v.toNat 33 31 = 0)
    (hdie : bit v.toNat 32 = false) (hfree : s.resetForbidden v.toNat = false) (hi : i ∈ [Instr.cReset v, .mReset v, .lReset v]) :
    exec i s = .next (((resetDies v.toNat).foldl State.resetDie s).beginReset (resetDies v.toNat)) := by
  obtain ⟨htaken, -⟩ := State.writeReset h hv hv' (by rw [hdie, Bool.false_and])
  rw [exec_dieReset hi, htaken (by rw [hfree, Bool.and_false]), hdie, if_neg Bool.false_ne_true, State.resetNamed_eq]

theorem exec_deviceReset (h : 4 ≤ s.power.hot.code) (hv : fld v.toNat 24 8 = 0) (hv' : fld v.toNat 33 31 = 0)
    (hdevice : bit v.toNat 32 = true) (hnone : fld v.toNat 0 24 = 0) : exec (.deviceReset v) s = .next s.deviceReset := by
  obtain ⟨htaken, -⟩ := State.writeReset h hv hv' (by rw [hnone]; exact Bool.and_false _)
  have htaken := htaken (by rw [hnone]; rfl)
  rw [hdevice, if_pos rfl] at htaken
  exact congrArg Host.Outcome.next htaken

end

/-! ### The device reset (R545, R546, R622) -/

/-- Until the event ring is enabled a hot-plug event is held, or lost. -/
theorem State.hotEvent_closed (cls src step detail : Nat) (h : s.eventsOpen = false) :
    (s.event 0x19 cls src step detail).rings = s.rings ∧ (s.event 0x19 cls src step detail).link = s.link := by
  have hwaits : ((0x19 == 0x19 || 0x19 == 0x38) && (!s.eventsOpen || !s.linkUp || s.power.hot == .released)) = true := by rw [h]; rfl
  unfold State.event
  dsimp only
  rw [if_pos hwaits]
  split <;> exact ⟨rfl, rfl⟩

/-- Until the event ring is enabled a change of the hot-plug state writes no record. -/
theorem State.setHot_closed (hot : HotPlug) (h : s.eventsOpen = false) : (s.setHot hot).rings = s.rings ∧ (s.setHot hot).link = s.link := by
  unfold State.setHot
  extract_lets _ n
  have hopen : n.eventsOpen = false := by unfold n; rw [State.alertFrom_alert]; exact h
  have hrings : n.rings = s.rings := by unfold n; rw [State.alertFrom_alert]
  have hlink : n.link = s.link := by unfold n; rw [State.alertFrom_alert]
  clear_value n
  split
  · exact ⟨hrings, hlink⟩
  · rw [if_neg (by rw [hopen]; exact Bool.false_ne_true)]
    obtain ⟨hrings', hlink'⟩ := State.hotEvent_closed (s := n) 4 0 noStep (hot.code + s.power.hot.code <<< 4) hopen
    exact ⟨hrings'.trans hrings, hlink'.trans hlink⟩

/-- What a loss of power leaves, with the device in reset. -/
def State.coldReset (s : State) : State := { s.cold with power := { s.cold.power with resetting := [24] } }

theorem State.deviceReset_entered (s : State) : s.coldReset.entered .powered s.deviceReset := by
  have hreset : s.deviceReset = s.alertFrom (s.coldReset.setHot .powered) := rfl
  rw [hreset, State.alertFrom_alert]
  unfold State.entered
  rw [s.coldReset.setHot_entered .powered]

theorem State.deviceReset_quiet (s : State) : s.deviceReset.rings = [] ∧ s.deviceReset.link.bytes = s.link.bytes := by
  have hreset : s.deviceReset = s.alertFrom (s.coldReset.setHot .powered) := rfl
  obtain ⟨hrings, hlink⟩ := State.setHot_closed (s := s.coldReset) .powered rfl
  rw [hreset, State.alertFrom_alert]
  dsimp only
  rw [hlink]
  exact ⟨hrings, rfl⟩

end

/-- Settles O53: the checks of the reset control register, the named dies one after the other, and the device reset by what it leaves. -/
theorem resetCommands : Obligations.ResetCommands := by
  intro v s h hv hv' hmdies hports
  refine ⟨fun hdie hnamed hforbidden i hi => exec_dieReset_refused h hv hv' hdie hnamed hforbidden hi, fun hdie hfree i hi => ?_,
    fun hdevice hnone => ?_⟩
  case refine_1 =>
    have hframe := State.foldl_resetDie_diesReset (resetDies v.toNat) s
    have hnamed {d : Nat} (hd : d < 24) (hb : bit v.toNat d = true) : d ∈ resetDies v.toNat := mem_resetDies.2 ⟨hd, hb⟩
    refine ⟨_, exec_dieReset_named h hv hv' hdie hfree hi, fun d hd hb => List.mem_append_right _ (hnamed hd hb),
      fun d hd hb => ⟨fun c h1 h2 => ?_, fun a h1 h2 => ?_, fun a h1 h2 => ?_⟩, fun m hm hb => ⟨?_, ?_, fun o ho => ?_⟩,
      fun l k hl hk hb => ?_, fun c hc hb => ?_, ?_⟩
    · exact (State.core_foldl_resetDie _ s (by omega)).trans (if_pos (by rw [show c / 32 = d by omega]; exact hnamed (by omega) hb))
    · exact State.loadByte_unwritten (Nat.le_trans (Nat.le_add_right_of_le (by decide)) h1)
        (State.foldl_resetDie_leaves_unwritten (hnamed (by omega) hb) fun _ _ => State.store_resetDie hd h1 h2)
    · exact State.loadByte_unwritten (Nat.le_trans (Nat.le_add_right_of_le (by decide)) h1)
        (State.foldl_resetDie_leaves_unwritten (hnamed (by omega) hb) fun _ _ => State.acc_resetDie hd h1 h2)
    · exact (State.mdie_foldl_resetDie _ s hm hmdies).trans (if_pos (hnamed (by omega) hb))
    · exact (State.mem_poisoning_foldl_resetDie _ s hm).2 (.inl (hnamed (by omega) hb))
    · exact State.loadByte_unwritten (by omega)
        (State.foldl_resetDie_leaves_unwritten (hnamed (by omega) hb) fun _ ht => State.stack_resetDie hm (by rw [ht]; exact ho))
    · have hoff := (State.port_foldl_resetDie (resetDies v.toNat) s (q := 8 * l + k) hports).trans
        (if_pos (by rw [show 20 + (8 * l + k) / 8 = 20 + l by omega]; exact hnamed (by omega) hb))
      exact congrArg Port.state hoff
    · exact (State.core_foldl_resetDie _ s hc).trans (if_neg fun hmem => by rw [(mem_resetDies.1 hmem).2] at hb; cases hb)
    · rw [hframe]
      exact ⟨rfl, rfl, rfl, rfl⟩
  case refine_2 =>
    refine ⟨s.deviceReset, exec_deviceReset h hv hv' hdevice hnone, ?_⟩
    obtain ⟨hrings, hbytes⟩ := s.deviceReset_quiet
    have hentered := s.deviceReset_entered
    generalize s.deviceReset = t at hrings hbytes hentered ⊢
    have hring (i : Nat) : t.ring i = Ring.init := by rw [State.ring, hrings, SMap.get_nil]
    rw [hentered]
    exact ⟨rfl, rfl, rfl, rfl, rfl, rfl, fun _ => rfl, hring, fun a => Memory.readAt_empty (canon a), rfl, rfl, hbytes, rfl, rfl⟩

end Sys2Proof.Machine
end

section
/-! PROOFS. Dips of the supply, over-voltage and trips (R474, R487, R525-R528, R530, R539, R593). -/

namespace Sys2Proof.Machine

/-! ### The counts of the error log that a record changes (R474, R487) -/

/-- The error log of t is that of s but for the writes and events that were lost. -/
def State.losses (s t : State) : Prop :=
  t.err = { s.err with losses := t.err.losses, linkWrites := t.err.linkWrites, eventsLost := t.err.eventsLost,
                       lostUnreported := t.err.lostUnreported }

section
variable {s t u : State}

theorem State.losses.trans (h : s.losses t) (h' : t.losses u) : s.losses u :=
  Eq.trans h' (congrArg (fun e : ErrorLog =>
    { e with losses := u.err.losses, linkWrites := u.err.linkWrites, eventsLost := u.err.eventsLost,
             lostUnreported := u.err.lostUnreported }) h)

/-- The counts of the supply are not among the losses. -/
theorem State.losses.supply (h : s.losses t) : t.err.dips = s.err.dips ∧ t.err.overVolts = s.err.overVolts := by
  constructor <;> rw [h]

theorem State.hostWrite_losses (s : State) (a : Nat) (bs : List Byte) : s.losses (s.hostWrite a bs) := by
  unfold State.hostWrite; split <;> rfl

theorem State.interrupt_losses (s : State) (i : Nat) : s.losses (s.interrupt i) := by
  unfold State.interrupt
  extract_lets r
  split
  · rfl
  · exact State.hostWrite_losses (s.setRing i { r with holding := decide (r.holdoff ≠ 0) }) _ _

theorem State.putRecord_losses (s : State) (i body : Nat) : s.losses (s.putRecord i body) := by
  unfold State.putRecord
  split
  · rfl
  · extract_lets r phase a
    exact (State.hostWrite_losses s _ _).trans (State.interrupt_losses (State.setRing _ i _) i)

theorem State.putEvent_losses (s : State) (body : Nat) : s.losses (s.putEvent body) := by
  unfold State.putEvent
  split
  · rfl
  · exact State.putRecord_losses s _ _

theorem State.reportLost_losses (s : State) : s.losses s.reportLost := by
  unfold State.reportLost
  split
  · rfl
  · rfl

theorem State.event_losses (s : State) (code cls src step detail : Nat) : s.losses (s.event code cls src step detail) := by
  unfold State.event
  extract_lets record
  split
  · split <;> rfl
  · exact (State.reportLost_losses s).trans (State.putEvent_losses _ _)

/-! ### Dips (R526, R527) -/

/-- The crest log with bit 0 set in the entry of crest c, as a dip that overlapped the crest leaves it. -/
def dipped (l : SMap Byte) (c : Nat) : SMap Byte := SMap.set 0 l (c % 65536) (SMap.get 0 l (c % 65536) ||| 1)

theorem State.markDip_log (s : State) (d : Dip) : (s.markDip d).crest.log = d.crests.foldl dipped s.crest.log := rfl

theorem dipped_wf {l : SMap Byte} (hwf : SMap.wf 0 l = true) (c : Nat) : SMap.wf 0 (dipped l c) = true := SMap.wf_set _ _ _ _ hwf

theorem dipped_same {l : SMap Byte} (hwf : SMap.wf 0 l = true) (c : Nat) : bit (SMap.get 0 (dipped l c) (c % 65536)).toNat 0 = true := by
  rw [dipped, SMap.get_set_eq _ _ _ _ hwf, BitVec.toNat_or, bit_eq_testBit, Nat.testBit_or]
  simp

theorem dipped_keeps {l : SMap Byte} {k : Nat} (hwf : SMap.wf 0 l = true) (c : Nat) (h : bit (SMap.get 0 l k).toNat 0 = true) :
    bit (SMap.get 0 (dipped l c) k).toNat 0 = true := by
  by_cases hk : k = c % 65536
  · rw [hk]; exact dipped_same hwf c
  · rw [dipped, SMap.get_set_ne _ _ _ _ _ hwf hk]; exact h

theorem foldl_dipped_keeps {l : SMap Byte} {k : Nat} (cs : List Nat) (hwf : SMap.wf 0 l = true) (h : bit (SMap.get 0 l k).toNat 0 = true) :
    bit (SMap.get 0 (cs.foldl dipped l) k).toNat 0 = true := by
  induction cs generalizing l with
  | nil => exact h
  | cons c cs ih => exact ih (dipped_wf hwf c) (dipped_keeps hwf c h)

/-- Every crest of the list is marked at the end, whichever order they come in. -/
theorem foldl_dipped_marks {l : SMap Byte} {cs : List Nat} {c : Nat} (hwf : SMap.wf 0 l = true) (hc : c ∈ cs) :
    bit (SMap.get 0 (cs.foldl dipped l) (c % 65536)).toNat 0 = true := by
  induction cs generalizing l with
  | nil => cases hc
  | cons b cs ih =>
    rcases List.mem_cons.1 hc with rfl | hc
    · exact foldl_dipped_keeps cs (dipped_wf hwf c) (dipped_same hwf c)
    · exact ih (dipped_wf hwf b) hc

theorem exec_supplyDip_begins {x : BitVec 16} (hp : s.powered = true) (hd : s.power.dip = none) (hx : x.toNat < s.power.warnVoltage) :
    exec (.supplyDip x) s = .next { s with power := { s.power with dip := some ⟨x.toNat, [s.crest.counter]⟩ } } :=
  if_pos (by simp [hp, hd, hx])

theorem exec_supplyDip_skips {x : BitVec 16} (h : s.powered = false ∨ s.power.dip ≠ none ∨ s.power.warnVoltage ≤ x.toNat) :
    exec (.supplyDip x) s = .next s := by
  refine if_neg fun hall => ?_
  simp only [Bool.and_eq_true, Option.isNone_iff_eq_none, decide_eq_true_eq] at hall
  obtain ⟨⟨hp, hd⟩, hx⟩ := hall
  rcases h with h | h | h
  · rw [hp] at h; cases h
  · exact h hd
  · omega

theorem exec_supplyDipEnd_idle (x : BitVec 16) (y : BitVec 32) (h : s.power.dip = none) : exec (.supplyDipEnd x y) s = .next s := by
  simp only [exec, execSupplyDipEnd, h]

theorem exec_supplyLow_idle (x : BitVec 16) (y : BitVec 32) (h : s.power.dip = none) : exec (.supplyLow x y) s = .next s := by
  simp only [exec, execSupplyLow, h]

/-- The state after the event of a dip that ends (R526). -/
def State.toldDip (s : State) (d : Dip) (x : BitVec 16) (y : BitVec 32) : State :=
  s.event 0x30 4 0 noStep (min d.lowest x.toNat + y.toNat <<< 16 + (min 65535 d.crests.length) <<< 48 + (d.crests.headD 0 % 2 ^ 32) <<< 64)

theorem exec_supplyDipEnd_ends {d : Dip} (x : BitVec 16) (y : BitVec 32) (h : s.power.dip = some d) :
    exec (.supplyDipEnd x y) s = .next (State.markDip
      { s.toldDip d x y with err := { (s.toldDip d x y).err with dips := satAdd 32 s.err.dips 1 } } d) := by
  have hdips : (s.toldDip d x y).err.dips = s.err.dips := (State.event_losses s _ _ _ _ _).supply.1
  simp only [exec, execSupplyDipEnd, h]
  rw [← hdips]
  rfl

theorem exec_supplyLow_tells {d : Dip} (x : BitVec 16) (y : BitVec 32) (h : s.power.dip = some d) :
    exec (.supplyLow x y) s = .next (State.event
      { s with power := { s.power with dip := some { d with lowest := min d.lowest x.toNat } } } 0x31 4 0 noStep
      (min d.lowest x.toNat + y.toNat <<< 16)) := by
  simp only [exec, execSupplyLow, h]
  rfl

/-! ### Over-voltage (R525) -/

/-- The state with one more over-voltage counted. -/
def State.overVolted (s : State) : State := { s with err := { s.err with overVolts := satAdd 32 s.err.overVolts 1 } }

theorem exec_overVoltage_tells {x : BitVec 16} (hp : s.powered = true) (hx : 7200 < x.toNat) :
    exec (.overVoltage x) s = .next (s.overVolted.event 0x37 4 0 noStep x.toNat) := if_pos (by simp [hp, overVoltage, hx])

theorem exec_overVoltage_skips {x : BitVec 16} (h : s.powered = false ∨ x.toNat ≤ 7200) : exec (.overVoltage x) s = .next s := by
  refine if_neg fun hall => ?_
  simp only [Bool.and_eq_true, decide_eq_true_eq] at hall
  obtain ⟨hp, hx⟩ := hall
  rcases h with h | h
  · rw [hp] at h; cases h
  · exact Nat.not_le.2 hx h

/-! ### Trips (R528-R531) -/

theorem tripValue_voltage {v : Nat} : tripValue false v = true ↔ v < 5000 := decide_eq_true_iff

theorem tripValue_junction {v : Nat} : tripValue true v = true ↔ 115 ≤ v := decide_eq_true_iff

/-- A trip leaves the module in PRESENT with the trip's record. -/
theorem State.doTrip_records (s : State) (temperature : Bool) (sensor value : Nat) :
    (s.doTrip temperature sensor value).power.hot = .present ∧
    (s.doTrip temperature sensor value).side.trip = s.recordTrip temperature sensor value := by
  unfold State.doTrip
  rw [State.alertFrom_alert]
  exact ⟨s.powerOff_hot .present, rfl⟩

theorem exec_trip {temperature : Bool} {n : BitVec 8} (v : BitVec 16) (hn : temperature = true → n.toNat ≤ 48) :
    exec (.trip temperature n v) s = if s.powered = true ∧ tripValue temperature v.toNat = true ∧
        (temperature = true → s.monitor.hot.contains n.toNat = true)
      then .next (s.doTrip temperature n.toNat v.toNat) else .next s := by
  simp only [exec, execTrip]
  rw [if_neg (by rintro ⟨ht, h48⟩; have := hn ht; omega)]
  refine if_congr ?_ rfl rfl
  cases temperature <;> simp [and_assoc]

end

/-- Settles O48: each row by its own equations, the marks of a dip by induction over the crests that it overlapped. -/
theorem supplyRows : Obligations.SupplyRows := by
  intro s
  refine ⟨fun x hp hd hx => ⟨_, exec_supplyDip_begins hp hd hx, rfl, rfl, rfl⟩, fun x => exec_supplyDip_skips,
    fun x y hd => ⟨exec_supplyDipEnd_idle x y hd, exec_supplyLow_idle x y hd⟩, fun x y d hd hwf => ⟨?_, ?_⟩,
    fun x => ⟨fun hp hx => ?_, exec_overVoltage_skips⟩, fun temperature n v hn => ⟨fun hskip => ?_, fun hp hlow hjunction => ?_⟩⟩
  case refine_1 =>
    refine ⟨_, _, exec_supplyDipEnd_ends x y hd, rfl, rfl, rfl, rfl, fun c hc => ?_, State.event_mem _ _ _ _ _ _,
      State.event_cores _ _ _ _ _ _⟩
    have hlog : (s.toldDip d x y).crest.log = s.crest.log := congrArg CrestState.log (State.event_crest _ _ _ _ _ _)
    rw [State.markDip_log]
    exact foldl_dipped_marks (by rw [hlog]; exact hwf) hc
  case refine_2 =>
    refine ⟨_, exec_supplyLow_tells x y hd, ⟨{ d with lowest := min d.lowest x.toNat }, ?_, rfl, rfl, rfl⟩,
      State.event_mem _ _ _ _ _ _, State.event_cores _ _ _ _ _ _⟩
    rw [State.event_told]
  case refine_3 =>
    refine ⟨_, exec_overVoltage_tells hp hx, (State.event_losses _ _ _ _ _ _).supply.2, State.event_mem _ _ _ _ _ _,
      State.event_cores _ _ _ _ _ _, ?_, rfl⟩
    rw [State.event_told]
    rfl
  case refine_4 =>
    rw [exec_trip v hn, if_neg]
    rintro ⟨hp, hvalue, hhot⟩
    rcases hskip with h | ⟨rfl, h⟩ | ⟨rfl, h | h⟩
    · rw [hp] at h; cases h
    · exact absurd (tripValue_voltage.1 hvalue) (Nat.not_lt.2 h)
    · exact absurd (tripValue_junction.1 hvalue) (Nat.not_le.2 h)
    · rw [hhot rfl] at h; cases h
  case refine_5 =>
    have hvalue : tripValue temperature v.toNat = true := by
      cases temperature
      · exact tripValue_voltage.2 (hlow rfl)
      · exact tripValue_junction.2 (hjunction rfl).1
    obtain ⟨hoff, hrecord⟩ := s.doTrip_records temperature n.toNat v.toNat
    refine ⟨s.doTrip temperature n.toNat v.toNat, ?_, hoff, ?_⟩
    · rw [exec_trip v hn, if_pos ⟨hp, hvalue, fun ht => (hjunction ht).2⟩]
    · rw [hrecord]
      exact ⟨rfl, rfl, rfl, rfl, fun ht => if_pos ht, rfl⟩

end Sys2Proof.Machine
end

section
/-! PROOFS. The sideband: its controller and the MCTP control commands (R577, R581, R588, R589). -/

namespace Sys2Proof.Machine

/-! ### The controller (R577, R581) -/

section
variable {s : State}

/-- The state of a controller that has latched its slot, with the alert that the new slot may raise (R592). -/
def State.latched (s : State) (g : BitVec 6) (p : Bool) : State :=
  s.alertFrom { s with side := { s.side with
    started := true, silent := badAddress g.toNat || (((List.range 6).map fun i => b2n (bit g.toNat i)).sum + b2n p) % 2 == 0,
    slot := g.toNat, pchg := true, response := none } }

theorem exec_sidebandControllerStart_latches (g : BitVec 6) (p : Bool) (h : s.side.started = false) :
    exec (.sidebandControllerStart g p) s = .next (s.latched g p) := if_neg (by simp [h])

theorem exec_sidebandControllerStart_runs (g : BitVec 6) (p : Bool) (h : s.side.started = true) :
    exec (.sidebandControllerStart g p) s = .next s := if_pos h

theorem badAddress_slot (g : BitVec 6) : badAddress g.toNat = true ↔ 33 < g.toNat := by
  have hlt : g.toNat % 64 = g.toNat := Nat.mod_eq_of_lt g.isLt
  rw [badAddress, hlt, decide_eq_true_iff]

/-! ### MCTP control commands (R588, R589) -/

/-- A control row takes a request of its code, and acts on it while the controller answers. -/
theorem controlRow_eq {code : Nat} {msg : List Byte} (act : State → State) (hreq : controlRequest msg = true)
    (hcode : msgByte msg 2 = code) : controlRow code act msg s = if s.answers then .next (act s) else .next s := by
  simp [controlRow, hreq, hcode]

/-- The state with another endpoint ID. -/
def State.withEndpoint (s : State) (e : Nat) : State := { s with side := { s.side with endpoint := e } }

/-- A response changes the response alone, a datagram nothing. -/
theorem State.answerControl_frame (s : State) (msg : List Byte) (cc : Nat) (data : List Byte) :
    s.answerControl msg cc data = { s with side := { s.side with response := (s.answerControl msg cc data).side.response } } := by
  unfold State.answerControl State.respond
  split <;> rfl

theorem State.answerControl_endpoint (s : State) (msg : List Byte) (cc : Nat) (data : List Byte) :
    (s.answerControl msg cc data).side.endpoint = s.side.endpoint := by
  rw [State.answerControl_frame]

theorem State.answerControl_datagram {msg : List Byte} (cc : Nat) (data : List Byte) (h : bit (msgByte msg 1) 6 = true) :
    s.answerControl msg cc data = s := if_pos h

theorem State.answerControl_response {msg : List Byte} (cc : Nat) (data : List Byte) (h : bit (msgByte msg 1) 6 = false) :
    (s.answerControl msg cc data).side.response =
      some (leBytes 1 0 ++ leBytes 1 (msgByte msg 1 % 32) ++ leBytes 1 (msgByte msg 2) ++ leBytes 1 cc ++ data) := by
  rw [State.answerControl, if_neg (by simp [h])]
  rfl

/-- What a control request comes to: the endpoint ID, the completion code and the data of its response. -/
inductive State.control (s : State) (msg : List Byte) : Nat → Nat → List Byte → Prop
  /-- SET_ENDPOINT_ID that assigns its endpoint ID. -/
  | assign (data : List Byte) (h : msgByte msg 2 = 1) : s.control msg (msgByte msg 4) ccSuccess data
  /-- SET_ENDPOINT_ID with too few bytes, another operation, or an endpoint ID that is null, reserved or broadcast. -/
  | refuse (cc : Nat) (h : msgByte msg 2 = 1)
      (hbad : msg.length < 5 ∨ 1 < msgByte msg 3 % 4 ∨ msgByte msg 4 < 8 ∨ msgByte msg 4 = 0xFF) : s.control msg s.side.endpoint cc []
  /-- The other commands that have rows of their own. -/
  | read (cc : Nat) (data : List Byte) (h : msgByte msg 2 ∈ controlCodes) (hset : msgByte msg 2 ≠ 1) : s.control msg s.side.endpoint cc data
  | unsupported (h : msgByte msg 2 ∉ controlCodes) : s.control msg s.side.endpoint ccUnsupported []

/-- The step of a control request that comes to endpoint ID e and a response. -/
def State.controlled (s : State) (msg : List Byte) (e cc : Nat) (data : List Byte) : Host.Outcome State Fault Refusal :=
  if s.answers then .next ((s.withEndpoint e).answerControl msg cc data) else .next s

section
variable {msg : List Byte}

theorem exec_setEndpointId (hreq : controlRequest msg = true) (hcode : msgByte msg 2 = 1) :
    ∃ e cc data, s.control msg e cc data ∧ exec (.setEndpointId msg) s = s.controlled msg e cc data := by
  simp only [exec, execSetEndpointId]
  rw [controlRow_eq _ hreq hcode]
  by_cases hshort : msg.length < 5
  · exact ⟨_, _, _, .refuse ccInvalidLength hcode (.inl hshort), by rw [if_pos hshort]; rfl⟩
  · by_cases hbad : 1 < msgByte msg 3 % 4 ∨ msgByte msg 4 < 8 ∨ msgByte msg 4 = 0xFF
    · exact ⟨_, _, _, .refuse ccInvalidData hcode (.inr hbad), by rw [if_neg hshort, if_pos hbad]; rfl⟩
    · exact ⟨_, _, _, .assign _ hcode, by rw [if_neg hshort, if_neg hbad]; rfl⟩

/-- A control row of another command whose action is a response. -/
theorem controlRow_reads {code : Nat} {act : State → State} (hact : ∃ cc data, act s = s.answerControl msg cc data)
    (hreq : controlRequest msg = true) (hcode : msgByte msg 2 = code) (hmem : code ∈ controlCodes) (hset : code ≠ 1) :
    ∃ e cc data, s.control msg e cc data ∧ controlRow code act msg s = s.controlled msg e cc data := by
  obtain ⟨cc, data, hact⟩ := hact
  refine ⟨s.side.endpoint, cc, data, .read cc data (hcode ▸ hmem) (hcode ▸ hset), ?_⟩
  rw [controlRow_eq act hreq hcode, hact]
  rfl

theorem exec_unsupportedControl (hreq : controlRequest msg = true) (hnone : msgByte msg 2 ∉ controlCodes) :
    exec (.unsupportedControlCommand msg) s = s.controlled msg s.side.endpoint ccUnsupported [] := by
  simp only [exec, execUnsupportedControlCommand]
  rw [if_neg (by simpa [otherRequest, hreq] using hnone), if_pos hreq, controlRow_eq _ hreq rfl]
  rfl

/-- The row of a control request by its command code. -/
theorem exec_controlMessageRow (s : State) (hreq : controlRequest msg = true) :
    ∃ e cc data, s.control msg e cc data ∧ exec (controlMessageRow msg) s = s.controlled msg e cc data := by
  unfold controlMessageRow
  split
  case h_1 hcode => exact exec_setEndpointId hreq hcode
  case h_2 hcode =>
    simp only [exec, execGetEndpointId]
    exact controlRow_reads ⟨_, _, rfl⟩ hreq hcode (by decide) (by decide)
  case h_3 hcode =>
    simp only [exec, execGetMctpVersionSupport]
    refine controlRow_reads ?_ hreq hcode (by decide) (by decide)
    split
    · exact ⟨_, _, rfl⟩
    · split <;> exact ⟨_, _, rfl⟩
  case h_4 hcode =>
    simp only [exec, execGetMessageTypeSupport]
    exact controlRow_reads ⟨_, _, rfl⟩ hreq hcode (by decide) (by decide)
  case h_5 hcode =>
    simp only [exec, execGetVendorDefinedMessageSupport]
    refine controlRow_reads ?_ hreq hcode (by decide) (by decide)
    split
    · exact ⟨_, _, rfl⟩
    · split <;> exact ⟨_, _, rfl⟩
  case h_6 h1 h2 h4 h5 h6 =>
    have hnone : msgByte msg 2 ∉ controlCodes := by simp [controlCodes]; exact ⟨h1, h2, h4, h5, h6⟩
    exact ⟨_, _, _, .unsupported hnone, exec_unsupportedControl hreq hnone⟩

end

theorem State.control.unlisted {msg : List Byte} {e cc : Nat} {data : List Byte} (h : s.control msg e cc data)
    (hnone : msgByte msg 2 ∉ controlCodes) : cc = 5 ∧ data = [] := by
  cases h with
  | assign _ hcode | refuse _ hcode => exact absurd (by rw [hcode]; decide) hnone
  | read _ _ hmem => exact absurd hmem hnone
  | unsupported => exact ⟨rfl, rfl⟩

theorem State.control.keeps_endpoint {msg : List Byte} {e cc : Nat} {data : List Byte} (h : s.control msg e cc data)
    (hset : msgByte msg 2 ≠ 1) : e = s.side.endpoint := by
  cases h with
  | assign _ hcode => exact absurd hcode hset
  | refuse | read | unsupported => rfl

theorem State.control.sets_endpoint {msg : List Byte} {e cc : Nat} {data : List Byte} (h : s.control msg e cc data)
    (hcode : msgByte msg 2 = 1) (hlong : 5 ≤ msg.length) (hop : msgByte msg 3 % 4 ≤ 1) (hlow : 8 ≤ msgByte msg 4)
    (hhigh : msgByte msg 4 < 255) : e = msgByte msg 4 := by
  cases h with
  | assign => rfl
  | refuse _ _ hbad => omega
  | read _ _ _ hset => exact absurd hcode hset
  | unsupported hnone => exact absurd (by rw [hcode]; decide) hnone

end

/-- Settles O57: the controller's two rows by their equations, a control request by what it comes to. -/
theorem sidebandControl : Obligations.SidebandControl := by
  refine ⟨fun g p s => ⟨exec_sidebandControllerStart_runs g p, fun hoff => ⟨_, exec_sidebandControllerStart_latches g p hoff, ?_⟩,
    _, rfl, rfl, rfl, rfl, rfl, rfl, rfl⟩, fun msg s hreq => ?_⟩
  case refine_1 =>
    rw [State.latched, State.alertFrom_alert]
    refine ⟨rfl, rfl, rfl, rfl, rfl, ?_⟩
    rw [← badAddress_slot]
    simp
  case refine_2 =>
    obtain ⟨e, cc, data, hcontrol, hexec⟩ := exec_controlMessageRow s hreq
    rw [hexec, State.controlled]
    refine ⟨fun hdeaf => by rw [hdeaf]; rfl, fun hanswers => ⟨(s.withEndpoint e).answerControl msg cc data, by rw [hanswers]; rfl, ?_,
      fun hdatagram => ?_, fun hanswered => ⟨cc, data, State.answerControl_response cc data hanswered, hcontrol.unlisted⟩, fun hset => ?_,
      fun hcode hlong hop hlow hhigh => ?_⟩⟩
    · rw [State.answerControl_endpoint]
      exact State.answerControl_frame (s.withEndpoint e) msg cc data
    · rw [State.answerControl_datagram cc data hdatagram]
      rfl
    · rw [State.answerControl_endpoint]
      exact hcontrol.keeps_endpoint hset
    · rw [State.answerControl_endpoint]
      exact hcontrol.sets_endpoint hcode hlong hop hlow hhigh

end Sys2Proof.Machine
end

section
/-! PROOFS. The Llynyar commands of the sideband (R590-R593). -/

namespace Sys2Proof.Machine

/-- Whether a Llynyar request is answered: by a controller that answers, with an endpoint ID, to its vendor identifier (R590). -/
def State.hears (s : State) (msg : List Byte) : Bool := s.answers && s.side.endpoint != 0 && (msg.drop 1).take 4 == vendorId

/-- The module with its rails off by POWER_DISABLE: in PRESENT a soft start ends, elsewhere every state is lost (R350, R591). -/
def State.disabled (s : State) : State :=
  if s.power.hot = .present then { s with power := { s.power with softStart := false, booted := false } } else s.powerOff .present

/-- The trip record cleared, with the alert that this may raise (R592, R593). -/
def State.tripCleared (s : State) : State :=
  s.alertFrom { s with side := { s.side with trip := { s.side.trip with valid := false, count := 0 } } }

/-- What a Llynyar command of a code comes to: its completion code, the data behind it, and the state that is left but for the response. -/
inductive State.llynyar (s : State) : Nat → Nat → List Byte → State → Prop
  | getState : s.llynyar 1 0 (s.stateBytes.flatMap (leBytes 1)) { s with side := { s.side with alert := false } }
  | softStart (h : s.power.hot = .present) : s.llynyar 2 0 [] { s with power := { s.power with softStart := true } }
  | enabled (h : s.power.hot ≠ .present) : s.llynyar 2 0 [] s
  | disable : s.llynyar 3 0 [] s.disabled
  | read (code cc : Nat) (data : List Byte) (h : 4 ≤ code ∧ code ≤ 7) : s.llynyar code cc data s
  | clearTrip (h : s.power.hot = .present) : s.llynyar 8 0 [] s.tripCleared
  | keepTrip (h : s.power.hot ≠ .present) : s.llynyar 8 3 [] s
  | unknown (code : Nat) (h : code = 0 ∨ 8 < code) : s.llynyar code 1 [] s

section
variable {s t : State} {cc : Nat} {data : List Byte}

theorem State.disabled_present (s : State) : s.disabled.power.hot = .present := by
  unfold State.disabled
  split
  case isTrue h => exact h
  case isFalse => exact s.powerOff_hot .present

theorem State.powerOff_trip (s : State) (h : HotPlug) : (s.powerOff h).side.trip = s.side.trip := by
  unfold State.powerOff
  rw [State.alertFrom_alert]
  rfl

theorem State.disabled_trip (s : State) : s.disabled.side.trip = s.side.trip := by
  unfold State.disabled
  split
  · rfl
  · exact s.powerOff_trip .present

theorem State.tripCleared_trip (s : State) : s.tripCleared.side.trip = { s.side.trip with valid := false, count := 0 } := by
  rw [State.tripCleared, State.alertFrom_alert]

/-! ### What each command comes to, read from its code (R591) -/

theorem State.llynyar.of_getState (h : s.llynyar 1 cc data t) :
    cc = 0 ∧ t = { s with side := { s.side with alert := false } } ∧ data = s.stateBytes.flatMap (leBytes 1) := by
  cases h with
  | getState => exact ⟨rfl, rfl, rfl⟩
  | read _ _ _ h | unknown _ h => omega

theorem State.llynyar.of_powerEnable (h : s.llynyar 2 cc data t) : cc = 0 ∧
    (s.power.hot = .present → t = { s with power := { s.power with softStart := true } }) ∧ (s.power.hot ≠ .present → t = s) := by
  cases h with
  | softStart h => exact ⟨rfl, fun _ => rfl, fun hnot => absurd h hnot⟩
  | enabled h => exact ⟨rfl, fun hpresent => absurd hpresent h, fun _ => rfl⟩
  | read _ _ _ h | unknown _ h => omega

theorem State.llynyar.of_powerDisable (h : s.llynyar 3 cc data t) : cc = 0 ∧ t = s.disabled := by
  cases h with
  | disable => exact ⟨rfl, rfl⟩
  | read _ _ _ h | unknown _ h => omega

theorem State.llynyar.of_clearTrip (h : s.llynyar 8 cc data t) :
    (s.power.hot = .present → cc = 0 ∧ t = s.tripCleared) ∧ (s.power.hot ≠ .present → cc = 3 ∧ t = s) := by
  cases h with
  | clearTrip h => exact ⟨fun _ => ⟨rfl, rfl⟩, fun hnot => absurd h hnot⟩
  | keepTrip h => exact ⟨fun hpresent => absurd hpresent h, fun _ => ⟨rfl, rfl⟩⟩
  | read _ _ _ h | unknown _ h => omega

theorem State.llynyar.of_read {code : Nat} (h : s.llynyar code cc data t) (hlow : 4 ≤ code) (hhigh : code ≤ 7) : t = s := by
  cases h with
  | read => rfl
  | getState | softStart | enabled | disable | clearTrip | keepTrip => omega
  | unknown => rfl

theorem State.llynyar.of_unknown {code : Nat} (h : s.llynyar code cc data t) (hcode : code = 0 ∨ 8 < code) : cc = 1 ∧ data = [] ∧ t = s := by
  cases h with
  | unknown => exact ⟨rfl, rfl, rfl⟩
  | getState | softStart | enabled | disable | clearTrip | keepTrip => omega
  | read _ _ _ h => omega

/-! ### The rows (R590, R591) -/

/-- The step of a Llynyar request that leaves state t but for its response. -/
def State.llynyarStep (s : State) (msg : List Byte) (cc : Nat) (data : List Byte) (t : State) : Host.Outcome State Fault Refusal :=
  if s.hears msg then .next (t.answerVendor msg cc data) else .next s

variable {msg : List Byte}

/-- A Llynyar row takes a request of its code, and acts on it where it is heard. -/
theorem vendorRow_eq {code : Nat} (act : State → State) (hreq : vendorRequest msg = true) (hcode : msgByte msg 5 = code) :
    vendorRow code act msg s = if s.hears msg then .next (act s) else .next s := by
  unfold vendorRow
  rw [if_neg (by simp [hreq, hcode])]
  rfl

/-- A row whose action answers as its command comes to. -/
theorem vendorRow_answersAs {code : Nat} {act : State → State}
    (hact : ∃ cc data t, s.llynyar code cc data t ∧ act s = t.answerVendor msg cc data) (hreq : vendorRequest msg = true)
    (hcode : msgByte msg 5 = code) :
    ∃ cc data t, s.llynyar (msgByte msg 5) cc data t ∧ vendorRow code act msg s = s.llynyarStep msg cc data t := by
  obtain ⟨cc, data, t, ht, hact⟩ := hact
  refine ⟨cc, data, t, hcode ▸ ht, ?_⟩
  rw [vendorRow_eq act hreq hcode, hact]
  rfl

/-- A Llynyar request is no control request: its message type differs. -/
theorem controlRequest_of_vendorRequest (hreq : vendorRequest msg = true) : controlRequest msg = false := by
  simp only [vendorRequest, Bool.and_eq_true, beq_iff_eq] at hreq
  simp [controlRequest, hreq.2]

theorem exec_unsupportedVendor (hreq : vendorRequest msg = true) (hnone : msgByte msg 5 = 0 ∨ 8 < msgByte msg 5) :
    exec (.unsupportedControlCommand msg) s = s.llynyarStep msg 1 [] s := by
  have hcontrol := controlRequest_of_vendorRequest hreq
  have hother : otherRequest msg = true := by
    rw [otherRequest, hcontrol, hreq]
    simpa using hnone
  simp only [exec, execUnsupportedControlCommand, hcontrol, hother]
  exact vendorRow_eq (fun t => t.answerVendor msg 1 []) hreq rfl

/-- The row of a Llynyar request by its command code. -/
theorem exec_vendorMessageRow (s : State) (hreq : vendorRequest msg = true) :
    ∃ cc data t, s.llynyar (msgByte msg 5) cc data t ∧ exec (vendorMessageRow msg) s = s.llynyarStep msg cc data t := by
  unfold vendorMessageRow
  split
  case h_1 hcode =>
    simp only [exec, execGetState]
    exact vendorRow_answersAs ⟨_, _, _, .getState, rfl⟩ hreq hcode
  case h_2 hcode =>
    simp only [exec, execPowerEnable]
    refine vendorRow_answersAs ?_ hreq hcode
    split
    case isTrue h => exact ⟨_, _, _, .softStart h, rfl⟩
    case isFalse h => exact ⟨_, _, _, .enabled h, rfl⟩
  case h_3 hcode =>
    simp only [exec, execPowerDisable]
    exact vendorRow_answersAs ⟨_, _, _, .disable, rfl⟩ hreq hcode
  case h_4 hcode =>
    simp only [exec, execReadFru]
    refine vendorRow_answersAs ?_ hreq hcode
    split <;> exact ⟨_, _, _, .read _ _ _ (by decide), rfl⟩
  case h_5 hcode =>
    simp only [exec, execReadSensors]
    refine vendorRow_answersAs ?_ hreq hcode
    split <;> exact ⟨_, _, _, .read _ _ _ (by decide), rfl⟩
  case h_6 hcode =>
    simp only [exec, execReadInput]
    exact vendorRow_answersAs ⟨_, _, _, .read _ _ _ (by decide), rfl⟩ hreq hcode
  case h_7 hcode =>
    simp only [exec, execReadTrip]
    exact vendorRow_answersAs ⟨_, _, _, .read _ _ _ (by decide), rfl⟩ hreq hcode
  case h_8 hcode =>
    simp only [exec, execClearTrip]
    refine vendorRow_answersAs ?_ hreq hcode
    split
    case isTrue h => exact ⟨_, _, _, .keepTrip h, rfl⟩
    case isFalse h => exact ⟨_, _, _, .clearTrip (not_not.1 h), rfl⟩
  case h_9 h1 h2 h3 h4 h5 h6 h7 h8 =>
    simp only [imp_false] at h1 h2 h3 h4 h5 h6 h7 h8
    have hnone : msgByte msg 5 = 0 ∨ 8 < msgByte msg 5 := by omega
    exact ⟨_, _, _, .unknown _ hnone, exec_unsupportedVendor hreq hnone⟩

end

/-- Settles O58: the request by what its command comes to, and each clause read from the code. -/
theorem llynyarCommands : Obligations.LlynyarCommands := by
  intro msg s hreq
  obtain ⟨cc, data, t, hcomes, hexec⟩ := exec_vendorMessageRow s hreq
  rw [hexec]
  refine ⟨fun hdeaf => if_neg fun hhears => Bool.false_ne_true (hdeaf.symm.trans hhears),
    fun hhears => ⟨t.answerVendor msg cc data, cc, data, if_pos hhears, rfl, fun hcode => ?_, fun hcode => ?_, fun hcode => ?_, fun hcode => ?_,
      fun hlow hhigh => ?_, fun hcode => ?_⟩⟩
  case refine_1 =>
    rw [hcode] at hcomes
    obtain ⟨rfl, rfl, rfl⟩ := hcomes.of_getState
    exact ⟨rfl, rfl, rfl⟩
  case refine_2 =>
    rw [hcode] at hcomes
    obtain ⟨rfl, hstart, hkeep⟩ := hcomes.of_powerEnable
    refine ⟨rfl, fun hpresent => ?_, fun hnot => ?_⟩
    · rw [hstart hpresent]
      exact ⟨rfl, hpresent⟩
    · rw [hkeep hnot]
      rfl
  case refine_3 =>
    rw [hcode] at hcomes
    obtain ⟨rfl, rfl⟩ := hcomes.of_powerDisable
    exact ⟨rfl, s.disabled_present, s.disabled_trip⟩
  case refine_4 =>
    rw [hcode] at hcomes
    obtain ⟨hclear, hkeep⟩ := hcomes.of_clearTrip
    refine ⟨fun hpresent => ?_, fun hnot => ?_⟩
    · obtain ⟨rfl, rfl⟩ := hclear hpresent
      have htrip : (s.tripCleared.answerVendor msg 0 data).side.trip = { s.side.trip with valid := false, count := 0 } := s.tripCleared_trip
      rw [htrip]
      exact ⟨rfl, rfl, rfl⟩
    · obtain ⟨rfl, rfl⟩ := hkeep hnot
      exact ⟨rfl, rfl⟩
  case refine_5 =>
    obtain rfl := hcomes.of_read hlow hhigh
    rfl
  case refine_6 =>
    obtain ⟨rfl, rfl, rfl⟩ := hcomes.of_unknown hcode
    exact ⟨rfl, rfl, rfl⟩

end Sys2Proof.Machine
end
